-- ==== Sys2Proof/Word.lean ====
section
/-!
DEFINITION. The word types of the TN2: a word is 64 bits wherever the manual speaks of the fabric, of memories or
of frames, a register is 32 bits (00_scope.md, "Numbers, bits and units"), and bit 0 is the least significant bit
of each (R7).
-/
namespace Sys2Proof

/-- A word of the fabric, of a memory or of a frame: 64 bits. -/
abbrev Word := BitVec 64

/-- A BAR0 register: 32 bits. -/
abbrev Reg32 := BitVec 32

/-- One byte. -/
abbrev Byte := BitVec 8

end Sys2Proof
end

