-- ==== Sys2Proof/Syntax.lean ====
section
/-!
DEFINITION. The commands the part takes from outside: one constructor of `Instr` per row of the table of operations
and events. A row is a host access, a host command, a management access, or an event in one of the part's units
(a boundary, a timer that elapses, a frame that arrives); the sender says that it happens now, with the values the
outside gives it. What comes about inside a step is the machine's (Machine/).
-/
namespace Sys2Proof

/-- A host command: the ring in which its descriptor stands, and the 64 bytes of the descriptor (R379, R380), byte k in
bits 8k + 7 to 8k. -/
structure Hdr where
  ring : Fin 16
  desc : BitVec 512
  deriving DecidableEq, Repr

/-- What a poll batch returns for one command ring: the posted count and up to four descriptors from its head (R375). -/
structure RingRead where
  ring : Fin 16
  posted : Nat
  descs : List (BitVec 512)
  deriving DecidableEq, Repr

/-- What a poll batch returns (R375): its round trip in ns, the command rings read, and the consumed counts of the
completion rings, the event ring and the readout rings. -/
structure PollBatch where
  rttNs : Nat
  rings : List RingRead
  cplConsumed : List (Fin 16 × Nat)
  evtConsumed : Option Nat
  rdoConsumed : List (Fin 32 × Nat)
  deriving DecidableEq, Repr

/-- The record of an edge I/O ball over a tick (R141, R463): its level 2 ns before E(t), and the times at which it changes since
then, in units of 10 ps. -/
structure BallWave where
  ball : Fin 64
  start : Bool
  changes : List Nat
  deriving DecidableEq, Repr

/-- A ring of the host interface (R372). -/
inductive RingId where
  | cmd (i : Fin 16)
  | cpl (i : Fin 16)
  | evt
  | rdo (k : Fin 32)
  deriving DecidableEq, Repr

/-- A firmware image as it is fetched (R438): its bytes, and whether its Ed25519 signature checks under Wyerha's
key. -/
structure FwBytes where
  bytes : List Byte
  sigOk : Bool
  deriving DecidableEq, Repr

/-- What the image fetch of boot stage 3 finds (R427): no flash answers; the flash with the size of a slot and the
image in each slot; or the image the host supplied. -/
inductive ImageFetch where
  | noFlash
  | flash (slotBytes : Nat) (slot0 slot1 : Option FwBytes)
  | host (image : FwBytes)
  deriving DecidableEq, Repr

/-- A unit of an HBM stack that a disturbance can hit (R322): a data line, a tag line, or a counter block (level 0)
or tree node of a level. -/
inductive SealUnit where
  | data
  | tags
  | block (level : Fin 7)
  deriving DecidableEq, Repr

/-- A disturbance of external memory: the stack, the unit, its index there, and the bits of its 64 bytes that it
inverts. -/
structure Disturb where
  stack : Fin 2
  unit : SealUnit
  index : BitVec 32
  bits : BitVec 512
  deriving DecidableEq, Repr

/-- The initiators of sealed memory, as the bits of SEAL_INIT number them. -/
inductive SealUser where
  | loader | history | cores | trace | headstock
  deriving DecidableEq, Repr

/-- The wake sources of R395. -/
inductive WakeSource where
  | rxGroup (g : Fin 16)
  | acceptIn
  | timeAlarm
  | monitor
  deriving DecidableEq, Repr

/-- A flit of the service network as a router buffer holds it (R398): its 128 bits, and the stored bits upset on its
way, of the two 64-bit halves with 8 check bits each (the low half's 72 bits first). -/
structure Flit where
  bits : BitVec 128
  flips : BitVec 144
  deriving DecidableEq, Repr

/-- The commands: one constructor for each row of the table of operations and events, with its operands. -/
inductive Instr where
  /-- POWER_ON (R423): whether SYS_RST_N is low then, and the levels at CFG_ADDR[5:0]. -/
  | powerOn (rstLow : Bool) (pins : BitVec 6)
  /-- SYS_RST_N_LOW (R423). -/
  | sysRstNLow
  /-- SYS_RST_N_RELEASE (R425): the levels at CFG_ADDR[5:0]. -/
  | sysRstNRelease (pins : BitVec 6)
  /-- PERST_N_FALL (R423): the levels at CFG_ADDR[5:0]. -/
  | perstNFall (pins : BitVec 6)
  /-- PERST_N_RISE (R424). -/
  | perstNRise
  /-- HOT_RESET (R370). -/
  | hotReset
  /-- BUS_MASTER_ENABLE (R370). -/
  | busMasterEnable
  /-- PCIE_LINK_CHANGE (R369): the rate code (0 is link down) and the width. -/
  | pcieLinkChange (rate : Fin 7) (width : Fin 17)
  /-- AER_ERROR (R388): the kind (0 correctable, 1 non-fatal, 2 fatal) and the status register. -/
  | aerError (kind : Fin 3) (status : BitVec 32)
  /-- PLL_LOCK (R426). -/
  | pllLock
  /-- OTP_READ (R441): whether VDD_FAB, a rail of the HBM or a rail of the lanes reads below half its nominal
  voltage, and which fabric dies answer. -/
  | otpRead (noFab noHbm noSrd : Bool) (dies : BitVec 4)
  /-- IMAGE_FETCH_END (R427): what the fetch found. -/
  | imageFetchEnd (a : ImageFetch)
  /-- HST_BOOT_GO (R427). -/
  | hstBootGo
  /-- FIRMWARE_START (R436). -/
  | firmwareStart
  /-- SELF_TEST_END (R432): the test index of R432 and whether it passed. -/
  | selfTestEnd (test : Fin 8) (pass : Bool)
  /-- HBM_TRAINING_END (R426): the stack and whether its training succeeded. -/
  | hbmTrainingEnd (stack : Fin 2) (pass : Bool)
  /-- SEALING_INITIALISATION_END (R326, R327): the stack, and what the entropy source gives at the draw, none when it
  fails its health tests. -/
  | sealingInitialisationEnd (stack : Fin 2) (entropy : Option (BitVec 384))
  /-- D3HOT_ENTRY (R393). -/
  | d3hotEntry
  /-- D0_RETURN (R394). -/
  | d0Return
  /-- WAKE (R395): the source. -/
  | wake (src : WakeSource)
  /-- REGISTER_WRITE (R9): the BAR0 offset and the value. -/
  | registerWrite (off : BitVec 26) (v : Reg32)
  /-- LOW_WORD_READ (R12): the BAR0 offset, and the levels at the edge I/O balls. -/
  | lowWordRead (off : BitVec 26) (balls : BitVec 64)
  /-- READ_CLEAR (R9): the BAR0 offset, and the levels at the edge I/O balls. -/
  | readClear (off : BitVec 26) (balls : BitVec 64)
  /-- TIM_NOW_FRAC_READ (R345). -/
  | timNowFracRead
  /-- DEBUG_WINDOW_READ (R199): the offset from 0x0200_0000. -/
  | debugWindowRead (off : BitVec 25)
  /-- I2C_ACCESS (R431): the 7-bit target address, the bytes written (the offset, the data of a write, a PEC byte), whether
  a repeated start and a read of 4 bytes follow, and the levels at the edge I/O balls. -/
  | i2cAccess (addr : BitVec 7) (written : List Byte) (reads : Bool) (balls : BitVec 64)
  /-- SEAL_ENC_EN_WRITE (R328): the bit written. -/
  | sealEncEnWrite (v : Bool)
  /-- SEAL_REGION_WRITE (R324): the region, whether SEAL_RGNk_SIZE is written rather than SEAL_RGNk_BASE, and the
  value. -/
  | sealRegionWrite (k : Fin 16) (size : Bool) (v : Reg32)
  /-- SVN_MODE_WRITE (R404): whether SINK is written. -/
  | svnModeWrite (sink : Bool)
  /-- SVN_MODE_SWITCH (R404). -/
  | svnModeSwitch
  /-- ROUTE_WRITE (R402): the NI, the destination router and the value. -/
  | routeWrite (n : Fin 64) (d : Fin 8) (v : Reg32)
  /-- SVN_EREC_CLR (R407). -/
  | svnErecClr
  /-- SYS_OVR_EN_WRITE (R437): the bit written. -/
  | sysOvrEnWrite (v : Bool)
  /-- RING_SETUP_WRITE (R390): the BAR0 offset and the value. -/
  | ringSetupWrite (off : BitVec 26) (v : Reg32)
  /-- MSIX_UNMASK (R371, R392): the host writes an entry of the MSI-X table with its Mask bit clear: the vector, the
  message address and the message data. -/
  | msixUnmask (v : Fin 64) (addr : BitVec 64) (data : BitVec 32)
  /-- POLL (R375). -/
  | poll
  /-- POLL_BATCH_RETURN (R375): what the batch returns. -/
  | pollBatchReturn (b : PollBatch)
  /-- NOP_COMMAND (R380). -/
  | nopCommand (h : Hdr)
  /-- QUERY (R381). -/
  | query (h : Hdr)
  /-- COUNTERS_READ (R382), with CLEAR 0. -/
  | countersRead (h : Hdr)
  /-- COUNTERS_READ_CLEAR (R382): COUNTERS_READ with CLEAR 1. -/
  | countersReadClear (h : Hdr)
  /-- LOAD_BLANK (R202): the command, and the bytes at the image address. -/
  | loadBlank (h : Hdr) (img : List Byte)
  /-- LOAD_REGION (R202): the command, and the bytes at the image address. -/
  | loadRegion (h : Hdr) (img : List Byte)
  /-- LOAD_CHECK (R162). -/
  | loadCheck
  /-- LOAD_WRITE_END (R203). -/
  | loadWriteEnd
  /-- ENTER_LOADING (R207). -/
  | enterLoading
  /-- ENTER_HELD (R209): the region. -/
  | enterHeld (k : Fin 8)
  /-- REGION_RELEASE (R211). -/
  | regionRelease
  /-- ADMIT (R185). -/
  | admitFabric (h : Hdr)
  /-- START (R181). -/
  | start (h : Hdr)
  /-- ENTER_RUNNING (R181). -/
  | enterRunning
  /-- STOP (R183). -/
  | stop (h : Hdr)
  /-- ENTER_STOPPED (R183). -/
  | enterStopped
  /-- HALT (R418). -/
  | halt (h : Hdr)
  /-- HALT_N (R412). -/
  | haltN
  /-- HALT_TAKES_EFFECT (R413). -/
  | haltTakesEffect
  /-- TICK_BOUNDARY (R20): the measured step-0 phase e(n) in ps, and for edge I/O balls the levels over the tick that
  ends. -/
  | tickBoundary (phase : Int) (balls : List BallWave)
  /-- NOP (R85): the column, row and index of the spindle, and the execute step. -/
  | nop (col row idx step : Nat)
  /-- BOOL3 (R86): the column, row and index of the spindle, and the execute step. -/
  | bool3 (col row idx step : Nat)
  /-- MOVE (R86): the column, row and index of the spindle, and the execute step. -/
  | move (col row idx step : Nat)
  /-- SEL (R86): the column, row and index of the spindle, and the execute step. -/
  | sel (col row idx step : Nat)
  /-- ADD (R87): the column, row and index of the spindle, and the execute step. -/
  | add (col row idx step : Nat)
  /-- SUB (R87): the column, row and index of the spindle, and the execute step. -/
  | sub (col row idx step : Nat)
  /-- CMP (R88): the column, row and index of the spindle, and the execute step. -/
  | cmp (col row idx step : Nat)
  /-- MIN (R87): the column, row and index of the spindle, and the execute step. -/
  | min (col row idx step : Nat)
  /-- MAX (R87): the column, row and index of the spindle, and the execute step. -/
  | max (col row idx step : Nat)
  /-- CMPX (R89): the column, row and index of the spindle, and the execute step. -/
  | cmpx (col row idx step : Nat)
  /-- SHF (R91): the column, row and index of the spindle, and the execute step. -/
  | shf (col row idx step : Nat)
  /-- ROT (R91): the column, row and index of the spindle, and the execute step. -/
  | rot (col row idx step : Nat)
  /-- POPC (R92): the column, row and index of the spindle, and the execute step. -/
  | popc (col row idx step : Nat)
  /-- PRIO (R92): the column, row and index of the spindle, and the execute step. -/
  | prio (col row idx step : Nat)
  /-- LDI (R86): the column, row and index of the spindle, and the execute step. -/
  | ldi (col row idx step : Nat)
  /-- SEND (R93): the column, row and index of the spindle, and the execute step. -/
  | send (col row idx step : Nat)
  /-- RECV (R94): the column, row and index of the spindle, and the execute step. -/
  | recv (col row idx step : Nat)
  /-- BPUB (R95): the column, row and index of the spindle, and the execute step. -/
  | bpub (col row idx step : Nat)
  /-- TBLR (R96): the column, row and index of the spindle, and the execute step. -/
  | tblr (col row idx step : Nat)
  /-- TBLW (R96): the column, row and index of the spindle, and the execute step. -/
  | tblw (col row idx step : Nat)
  /-- PIN (R99): the column, row and index of the spindle, and the execute step. -/
  | pin (col row idx step : Nat)
  /-- POUT (R137): the column, row and index of the spindle, and the execute step. -/
  | pout (col row idx step : Nat)
  /-- HIST (R100): the column, row and index of the spindle, and the execute step. -/
  | hist (col row idx step : Nat)
  /-- PROBE (R100): the column, row and index of the spindle, and the execute step. -/
  | probe (col row idx step : Nat)
  /-- ACCEPT (R101): the column, row and index of the spindle, and the execute step. -/
  | accept (col row idx step : Nat)
  /-- UEVT (R101): the column, row and index of the spindle, and the execute step. -/
  | uevt (col row idx step : Nat)
  /-- STAT (R101): the column, row and index of the spindle, and the execute step. -/
  | stat (col row idx step : Nat)
  /-- GRAIN_SLOT (R121): the column and row of the router, and the step. -/
  | grainSlot (col row step : Nat)
  /-- TABLE_WRITE (R131): the command, and the bytes at the entry list address. -/
  | tableWrite (h : Hdr) (list : List Byte)
  /-- TABLE_WRITE_APPLY (R130). -/
  | tableWriteApply
  /-- START_SEGMENT (R214, R216): the beats of the segment. -/
  | startSegment (beats : List (BitVec 16))
  /-- DATA_SEGMENT (R214, R216): the beats of the segment. -/
  | dataSegment (beats : List (BitVec 16))
  /-- END_SEGMENT (R214, R217): the beats of the segment. -/
  | endSegment (beats : List (BitVec 16))
  /-- ABORT_SEGMENT (R214, R216): the beats of the segment. -/
  | abortSegment (beats : List (BitVec 16))
  /-- CFG_SEL_N_HIGH (R220). -/
  | cfgSelNHigh
  /-- CFG_SEL_N_LOW (R220). -/
  | cfgSelNLow
  /-- FRAME_TRANSMIT (R240): the lane. -/
  | frameTransmit (n : Fin 128)
  /-- RECEIVE_FRAME (R227): the lane, the line bits, whether the frame lies F bits after the start of the one
  before, the device time at which its first line bit was detected, and its slack in ps. -/
  | receiveFrame (n : Fin 128) (bits : List Bool) (posOk : Bool) (first slack : Nat)
  /-- LOSS_FRAMES_EXPIRY (R247): the lane. -/
  | lossFramesExpiry (n : Fin 128)
  /-- SIGNAL_LOSS (R247): the lane. -/
  | signalLoss (n : Fin 128)
  /-- FORWARDED_CLOCK_LOSS (R247): the lane. -/
  | forwardedClockLoss (n : Fin 128)
  /-- TRACKING_LIMIT (R225): the lane. -/
  | trackingLimit (n : Fin 128)
  /-- FORWARDED_CLOCK_DETECT (R245): the lane and the rate code that the clock shows. -/
  | forwardedClockDetect (n : Fin 128) (rate : Fin 4)
  /-- SAMPLING_POINT_CENTRED (R225): the lane. -/
  | samplingPointCentred (n : Fin 128)
  /-- BIT_LOCK (R245): the lane. -/
  | bitLock (n : Fin 128)
  /-- TRAIN_TIMEOUT (R245): the lane. -/
  | trainTimeout (n : Fin 128)
  /-- LOCK_TIMEOUT (R245): the lane. -/
  | lockTimeout (n : Fin 128)
  /-- EXCHANGE_TIMEOUT (R245): the lane. -/
  | exchangeTimeout (n : Fin 128)
  /-- ATTEMPTS_LIMIT (R245): the lane. -/
  | attemptsLimit (n : Fin 128)
  /-- CAPABILITY_MESSAGE (R246): the lane. -/
  | capabilityMessage (n : Fin 128)
  /-- TIME_MESSAGE (R254): the lane. -/
  | timeMessage (n : Fin 128)
  /-- RECEIVER_DETECTION (R244): the lane. -/
  | receiverDetection (n : Fin 128)
  /-- TP1_TIME_END (R243): the lane. -/
  | tp1TimeEnd (n : Fin 128)
  /-- TP2_TIME_END (R243): the lane. -/
  | tp2TimeEnd (n : Fin 128)
  /-- TX_ENTER_ACTIVE (R243): the lane. -/
  | txEnterActive (n : Fin 128)
  /-- LINE_CLOCK_PLL_LOSS (R244): the transmit group. -/
  | lineClockPllLoss (g : Fin 16)
  /-- LINK_RETRAIN (R249): LINK_CTRL with this action. -/
  | linkRetrain (h : Hdr)
  /-- LINK_TAKE_DOWN (R249): LINK_CTRL with this action. -/
  | linkTakeDown (h : Hdr)
  /-- LINK_BRING_UP (R249): LINK_CTRL with this action. -/
  | linkBringUp (h : Hdr)
  /-- LINK_CLEAR (R249): LINK_CTRL with this action. -/
  | linkClear (h : Hdr)
  /-- HISTORY_WRITE (R258). -/
  | historyWrite
  /-- SPILL_END (R261): the number of the page. -/
  | spillEnd (id : Nat)
  /-- RELEASE_TRANSFER_END (R261): the number of the page. -/
  | releaseTransferEnd (id : Nat)
  /-- RETENTION_EXPIRY (R262): the number of the page. -/
  | retentionExpiry (id : Nat)
  /-- ACCEPT_IN (R268). -/
  | acceptIn
  /-- ACCEPT_COMMAND (R270). -/
  | acceptCommand (h : Hdr)
  /-- WINDOW_COMPLETE (R276). -/
  | windowComplete
  /-- INSTANCE_START (R281). -/
  | instanceStart
  /-- TASK_DISPATCH (R284). -/
  | taskDispatch
  /-- TASK_COMPLETE (R282): the core, the outcome of a registered node type (0 done, 1 error reported, 2 trap), and
  the bytes it appends to each buffer. -/
  | taskComplete (j : Fin 32) (outcome : Fin 3) (writes : List (Fin 16 × List Byte))
  /-- TASK_TIMEOUT (R285): the core. -/
  | taskTimeout (j : Fin 32)
  /-- GATHER (R279): the core. -/
  | gather (j : Fin 32)
  /-- ZSUPP (R279): the core. -/
  | zsupp (j : Fin 32)
  /-- PACK (R279): the core. -/
  | pack (j : Fin 32)
  /-- CHECKSUM (R279): the core. -/
  | checksum (j : Fin 32)
  /-- SEND_RING (R287): the core. -/
  | sendRing (j : Fin 32)
  /-- SEND_LANE (R288): the core. -/
  | sendLane (j : Fin 32)
  /-- RELEASE (R279): the core. -/
  | release (j : Fin 32)
  /-- RING_WAIT_TIMEOUT (R287): the core. -/
  | ringWaitTimeout (j : Fin 32)
  /-- RDO_GRAPH_LOAD (R277): the command, and the bytes at the image address. -/
  | rdoGraphLoad (h : Hdr) (img : List Byte)
  /-- RDO_POLICY (R286). -/
  | rdoPolicy (h : Hdr)
  /-- CAPTURE_ARM (R295). -/
  | captureArm (h : Hdr)
  /-- CAPTURE_DISARM (R301). -/
  | captureDisarm (h : Hdr)
  /-- DECISION_INSTANT (R296). -/
  | decisionInstant
  /-- CAPTURE_REARM (R297): the unit. -/
  | captureRearm (u : Fin 16)
  /-- SEGMENT_DELIVERY (R302). -/
  | segmentDelivery
  /-- DELIVERY_WAIT_TIMEOUT (R302). -/
  | deliveryWaitTimeout
  /-- TBUS_DRIVE (R305). -/
  | tbusDrive
  /-- TBUS_SAMPLE (R306): the lines sampled low. -/
  | tbusSample (lines : BitVec 8)
  /-- CHUTE_TAKE (R314): the MSG shavings that the runtimes of the cores (0 to 31) and the firmware (32) wrote since the
  row before (R308). -/
  | chuteTake (msgs : List (Fin 33 × List Byte))
  /-- COUNTER_SHAVING (R308): the router, and its four flit counts and four stall counts. -/
  | counterShaving (m : Fin 8) (flits stalls : BitVec 128)
  /-- CHUNK_TIMEOUT (R315). -/
  | chunkTimeout
  /-- TRACE_STOP_INSTANT (R316). -/
  | traceStopInstant
  /-- SINK_FULL_TIMEOUT (R319). -/
  | sinkFullTimeout
  /-- TRACE_START (R317): TRACE_CTRL with this action. -/
  | traceStart (h : Hdr)
  /-- TRACE_STOP (R317): TRACE_CTRL with this action. -/
  | traceStop (h : Hdr)
  /-- TRACE_TRIGGER (R317): TRACE_CTRL with this action. -/
  | traceTrigger (h : Hdr)
  /-- SET_SOURCES (R317): TRACE_CTRL with this action. -/
  | setSources (h : Hdr)
  /-- DRAIN (R317): TRACE_CTRL with this action. -/
  | drain (h : Hdr)
  /-- DRAIN_END (R319). -/
  | drainEnd
  /-- AUTH (R318): TRACE_CTRL with this action, and the bytes at the buffer address. -/
  | auth (h : Hdr) (buf : List Byte)
  /-- SEALED_READ (R333): the initiator, the address, the length, and the disturbances that external memory has
  suffered up to it. -/
  | sealedRead (u : SealUser) (a len : BitVec 64) (ds : List Disturb)
  /-- SEALED_WRITE (R334): the initiator, the address, the bytes, and the disturbances that external memory has
  suffered up to it. -/
  | sealedWrite (u : SealUser) (a : BitVec 64) (b : List Byte) (ds : List Disturb)
  /-- REKEY (R341): the command, and what the entropy source gives at the draw. -/
  | rekey (h : Hdr) (entropy : Option (BitVec 384))
  /-- REKEY_AUTO_START (R338): the region, and what the entropy source gives at the draw. -/
  | rekeyAutoStart (k : Fin 16) (entropy : Option (BitVec 384))
  /-- REKEY_DEFERRED_START (R341): what the entropy source gives at the draw. -/
  | rekeyDeferredStart (entropy : Option (BitVec 384))
  /-- REKEY_WALK_END (R339). -/
  | rekeyWalkEnd
  /-- IDENTITY_RETIRED (R340): the identity. -/
  | identityRetired (kid : Fin 4)
  /-- TIME_SET (R354). -/
  | timeSet (h : Hdr)
  /-- TIME_ADJ (R355). -/
  | timeAdj (h : Hdr)
  /-- SLEW_END (R355). -/
  | slewEnd
  /-- TIME_INCREMENT (R352). -/
  | timeIncrement (h : Hdr)
  /-- INCREMENT_APPLY (R352). -/
  | incrementApply
  /-- HOLDOVER_TIMEOUT (R351). -/
  | holdoverTimeout
  /-- PPS_IN_EDGE (R349): the edge in 1/512 of a time-clock cycle after the last time-clock edge. -/
  | ppsInEdge (frac : Fin 512)
  /-- PPS_OUT_PULSE (R365). -/
  | ppsOutPulse
  /-- TIME_ALARM (R367). -/
  | timeAlarm
  /-- MGMT_FRAME (R360): the port on which a frame arrives, the bytes from its destination address to its FCS, its detection
  in 1/512 of a time-clock cycle after the last edge, and the time through an idle part in the same units. -/
  | mgmtFrame (port : Fin 2) (frame : List Byte) (frac : Fin 512) (through : Nat)
  /-- MGMT_LINK_CHANGE (R368): the port and whether its link is up. -/
  | mgmtLinkChange (port : Fin 2) (up : Bool)
  /-- PTP_SYNC (R361): a frame on the port of the ordinary clock, and its arrival in 1/512 of a time-clock cycle after the
  last edge. -/
  | ptpSync (frame : List Byte) (frac : Fin 512)
  /-- PTP_FOLLOW_UP (R361): a frame on the port of the ordinary clock. -/
  | ptpFollowUp (frame : List Byte)
  /-- PTP_ANNOUNCE (R361): a frame on the port of the ordinary clock. -/
  | ptpAnnounce (frame : List Byte)
  /-- PTP_DELAY_RESP (R361): a frame on the port of the ordinary clock. -/
  | ptpDelayResp (frame : List Byte)
  /-- DELAY_REQ_SEND (R361): the departure in 1/512 of a time-clock cycle after the last edge. -/
  | delayReqSend (frac : Fin 512)
  /-- ANNOUNCE_TIMEOUT (R361). -/
  | announceTimeout
  /-- EVENT_RING_WRITE (R387). -/
  | eventRingWrite
  /-- MODERATION_TIMEOUT (R392): the ring. -/
  | moderationTimeout (r : RingId)
  /-- COMPLETION_BLOCK_TIMEOUT (R388): the completion ring. -/
  | completionBlockTimeout (c : Fin 16)
  /-- RING_FAULT (R388): the ring, and whether the cause is an unsupported request or poisoned data rather than a
  completer abort. -/
  | ringFault (r : RingId) (poisoned : Bool)
  /-- SERVICE_REQUEST (R400): the flits of a request packet as its unit hands them to its NI (ROUTE 0), whether it is
  flagged URGENT-abort, what host memory holds where a DMA read asks, and the levels at the edge I/O balls. -/
  | serviceRequest (flits : List Flit) (urgent : Bool) (host : List Byte) (balls : BitVec 64)
  /-- RESPONSE_ARRIVAL (R405): the NI, the tag, and the bits upset in the response's flits on their way. -/
  | responseArrival (ni : Fin 64) (tag : BitVec 12) (flips : List (BitVec 144))
  /-- ERROR_NOTICE (R406). -/
  | errorNotice
  /-- REQUEST_TIMEOUT (R405): the NI and the tag. -/
  | requestTimeout (ni : Fin 64) (tag : BitVec 12)
  /-- MON_CONVERT (R446). -/
  | monConvert (h : Hdr)
  /-- MONITOR_SCAN (R445). -/
  | monitorScan
  /-- CONVERSION_END (R447): the code. -/
  | conversionEnd (code : BitVec 12)
  /-- OPEN_WIRE_CHECK (R448): the channel, whose codes with the pull-up and with the pull-down have been taken. -/
  | openWireCheck (ch : Fin 32)
  /-- MONITOR_CALIBRATION (R432). -/
  | monitorCalibration
  /-- THERMAL_COMPARATOR (R449): the die and the code. -/
  | thermalComparator (die : Fin 4) (code : BitVec 12)
  /-- FW_UPDATE (R439): the command, and the image that the part fetches. -/
  | fwUpdate (h : Hdr) (img : FwBytes)
  /-- OTP_WRITE_RECORD (R443): the command, the bytes at the record address, and the bits that the programming leaves
  when they differ from those intended. -/
  | otpWriteRecord (h : Hdr) (payload : List Byte) (burnt : Option (List Byte))
  /-- FLASH_WRITE_END (R439): whether the read-back agrees. -/
  | flashWriteEnd (same : Bool)
  deriving DecidableEq, Repr

end Sys2Proof
end

