-- ==== Sys2Proof/Decode.lean ====
section
/-!
DEFINITION. The commands as table words. No row of the table of operations and events gives its command any bits: the
rows are host accesses, host commands and events, not words that the part fetches and decodes. The encoding of the
spindle instructions, which the part does decode, is that of Machine/SpindleIsa.lean.
-/
namespace Sys2Proof

/-- The command that a table word spells: none, since no row has bits. -/
def decodeTableWord (_nbits _w : Nat) : Option Instr := none

end Sys2Proof
end

