-- ==== Sys2Proof/Config.lean ====
section
/-!
DEFINITION. What an implementation fixes and the spec leaves open: free values. Each is a constant with no body, so
that nothing can be proved of its value and every claim holds whatever it is.
-/
namespace Sys2Proof.Config

/-- Which column of its check matrix the SECDED code gives a data bit, among those still free (R56): the spec gives no matrix
(DESIGN CHOICE, log 11). -/
opaque eccPick : Nat → Nat

/-- The word that a PIN reads outside the port billets: the loader refuses such an image (R99), and the spec gives a
corrupted entry that spells one no value. The argument counts the free values drawn (DESIGN CHOICE, log 12). -/
opaque strayPin : Nat → Word

/-- The status with which a request that is not posted and that no target decodes is answered (R406 speaks of posted
writes alone): an index into the error codes of R17, by the address (DESIGN CHOICE, log 13). -/
opaque undecodedStatus : Nat → Nat

/-- The fields of event source 170 that the spec gives no value where no descriptor was refused (R390): case × 4 +
field, with case 0 the host boot image, 1 a page, 2 a window, 3 a ring, 4 a request at NI 0, and field 0 kind, 1 ring,
2 opcode, 3 tag (DESIGN CHOICE, log 14). -/
opaque refusalField : Nat → Nat

/-- Whether INC is rounded up where R346 gives no whole number of units of 2^−32 ns; the argument is the numerator of
the exact value over 10^9 × 2^48 (DESIGN CHOICE, log 15). -/
opaque incRound : Nat → Bool

/-- The challenge bytes that the random source gives (R318): the number of the draw, and the byte, 0 to 31 (DESIGN
CHOICE, log 16). -/
opaque challenge : Nat → Nat → BitVec 8

/-- Whether the readout-runtime image of a version registers a node type, 8 to 63 (R279): the spec gives no format of
that list (DESIGN CHOICE, log 17). -/
opaque registeredType : Nat → Nat → Bool

/-- The highest blank format minor version that a headstock firmware version supports (R146, R162): the spec gives no
list (DESIGN CHOICE, log 18). -/
opaque fmtMinor : Nat → Nat

/-- The fixed input of the KDF of R326 (label, separator and context) for K_enc (false) and K_mac (true): the spec names
the KDF and not its input (DESIGN CHOICE, log 59). -/
opaque kdfInput : Bool → List Byte

/-- The flits of response buffer that an NI has beyond the longest response (R404, R411): the spec gives no size (DESIGN
CHOICE, log 60). -/
opaque niRoom : Nat → Nat

/-- The cycles that a credit takes over a bridge link (R411), taken modulo 7, by the cycle of its return: the spec gives only
their limit of 6 (DESIGN CHOICE, log 60). -/
opaque bridgeCycles : Nat → Nat

/-- Wyerha's Vendor ID in PCI configuration space (R369): the spec does not give it (DESIGN CHOICE, log 62). -/
opaque vendorId : BitVec 16

/-- Wyerha's manufacturer code in the JTAG IDCODE (R431): the spec does not give it (DESIGN CHOICE, log 63). -/
opaque jtagMaker : BitVec 11

end Sys2Proof.Config
end

