-- ==== Sys2Proof/Machine/Codes.lean ====
section
/-!
DEFINITION. Byte strings: reading little-endian numbers (R8), and the CRC-32 of IEEE 802.3.
-/
namespace Sys2Proof.Machine

/-- The number that little-endian bytes spell (R8). -/
def leNat : List Byte → Nat
  | [] => 0
  | b :: l => b.toNat + 256 * leNat l

/-- The little-endian number of `n` bytes at an offset; bytes beyond the end read as 0. -/
def leAt (l : List Byte) (off n : Nat) : Nat := leNat ((l.drop off).take n)

/-- `n` bytes at an offset. -/
def sliceBytes (l : List Byte) (off n : Nat) : List Byte := (l.drop off).take n

/-- The first `n` words of 8 bytes of a byte string. -/
def wordsOf : Nat → List Byte → List Word
  | 0, _ => []
  | n + 1, l => BitVec.ofNat 64 (leNat (l.take 8)) :: wordsOf n (l.drop 8)

/-- One bit of the reflected CRC-32 of IEEE 802.3. -/
def crc32Bit (c : BitVec 32) : BitVec 32 := if c.getLsbD 0 then (c >>> 1) ^^^ 0xEDB88320#32 else c >>> 1

/-- One byte of the CRC-32. -/
def crc32Byte (c : BitVec 32) (b : Byte) : BitVec 32 :=
  crc32Bit (crc32Bit (crc32Bit (crc32Bit (crc32Bit (crc32Bit (crc32Bit (crc32Bit (c ^^^ b.setWidth 32))))))))

/-- The CRC-32 with the IEEE 802.3 polynomial, as Ethernet uses it (R214, R279, R441). -/
def crc32 (l : List Byte) : Nat := (~~~(l.foldl crc32Byte 0xFFFFFFFF#32)).toNat

end Sys2Proof.Machine
end

