-- ==== Sys2Proof/Machine/Desc.lean ====
section
/-!
DEFINITION. The fields of a command descriptor (R379, R380), and its reserved bits.
-/
namespace Sys2Proof

/-- The number in `size` bytes of a descriptor from an offset (R8). -/
def Hdr.par (h : Hdr) (off size : Nat) : Nat := h.desc.toNat / 2 ^ (8 * off) % 2 ^ (8 * size)

/-- OPCODE. -/
def Hdr.op (h : Hdr) : Nat := h.par 0 1

/-- FENCE, FLAGS bit 0. -/
def Hdr.fence (h : Hdr) : Bool := h.desc.getLsbD 8

/-- URGENT, FLAGS bit 1. -/
def Hdr.urgent (h : Hdr) : Bool := h.desc.getLsbD 9

/-- TAG. -/
def Hdr.tag (h : Hdr) : BitVec 16 := BitVec.ofNat 16 (h.par 2 2)

/-- The completion ring of CPL. -/
def Hdr.cpl (h : Hdr) : Fin 16 := Fin.ofNat 16 (h.par 4 1)

/-- The phase bit (R374). -/
def Hdr.phase (h : Hdr) : Bool := h.desc.getLsbD 40

/-- The action of TRACE_CTRL, at 0x08. -/
def Hdr.traceAction (h : Hdr) : Nat := h.par 8 1

/-- The parameter bits of an opcode that R380 names, as first bit and width. An opcode that the table does not list has
none. -/
def paramFields (h : Hdr) : List (Nat × Nat) :=
  match h.op with
  | 0x01 => [(64, 96)]
  | 0x02 => [(64, 128)]
  | 0x03 => [(64, 192)]
  | 0x05 => [(64, 64)]
  | 0x06 => [(64, 64)]
  | 0x10 => [(64, 32)]
  | 0x18 => [(64, 96), (160, 3), (168, 8)]
  | 0x19 => [(64, 96)]
  | 0x1A => [(64, 3), (80, 16), (96, 16), (112, 1)]
  | 0x20 => [(64, 256), (320, 4), (328, 16), (344, 7), (352, 25), (384, 30), (416, 5), (424, 4), (432, 8)]
  | 0x21 => [(64, 4)]
  | 0x28 => (64, 8) :: (if h.traceAction = 3 then [(128, 128)] else if h.traceAction = 5 then [(128, 64)] else [])
  | 0x30 => [(64, 48), (128, 64)]
  | 0x31 => [(64, 64), (128, 32), (160, 1)]
  | 0x32 => [(64, 64), (128, 32), (160, 4)]
  | 0x38 => [(64, 4)]
  | 0x40 => [(64, 8)]
  | 0x48 => [(64, 32), (128, 64)]
  | 0x50 => [(64, 8), (72, 1), (80, 48), (128, 96)]
  | 0x51 => [(64, 128), (192, 16)]
  | 0x58 => [(64, 96)]
  | _ => []

/-- The header bits that R379 names: OPCODE, FLAGS, TAG, CPL and PHASE. -/
def headerFields : List (Nat × Nat) := [(0, 8), (8, 2), (16, 16), (32, 4), (40, 1)]

/-- The bits that fields cover. -/
def fieldMask (fs : List (Nat × Nat)) : BitVec 512 :=
  fs.foldl (fun m f => m ||| BitVec.ofNat 512 ((2 ^ f.2 - 1) * 2 ^ f.1)) 0

/-- Is a reserved header or parameter bit of the descriptor nonzero (R16, R380)? -/
def Hdr.rsv (h : Hdr) : Bool := h.desc &&& ~~~fieldMask (headerFields ++ paramFields h) != 0

end Sys2Proof
end

