-- ==== Sys2Proof/Machine/SMap.lean ====
section
/-!
DEFINITION. Sparse maps in one canonical form: a list of (key, value) pairs with strictly rising keys and no entry
equal to the value an unlisted key reads as. Every memory, register file and table of the model is one, so equal
contents are equal data.
-/
namespace Sys2Proof.Machine

/-- A sparse map from natural-number keys. -/
abbrev SMap (α : Type) := List (Nat × α)

/-- The value at a key; `dflt` is what an unlisted key reads as. -/
def smapGet {α : Type} (dflt : Nat → α) : SMap α → Nat → α
  | [], k => dflt k
  | (a, v) :: m, k => if a = k then v else smapGet dflt m k

/-- Store a value at a key; storing what an unlisted key reads as removes the entry. -/
def smapSet {α : Type} [DecidableEq α] (dflt : Nat → α) : SMap α → Nat → α → SMap α
  | [], k, v => if v = dflt k then [] else [(k, v)]
  | (a, w) :: m, k, v =>
    if k < a then (if v = dflt k then (a, w) :: m else (k, v) :: (a, w) :: m)
    else if k = a then (if v = dflt k then m else (k, v) :: m)
    else (a, w) :: smapSet dflt m k v

/-- The canonical form: keys strictly rising from `lo`, no entry equal to its default. -/
def smapWfFrom {α : Type} [DecidableEq α] (dflt : Nat → α) : Nat → SMap α → Bool
  | _, [] => true
  | lo, (a, v) :: m => decide (lo ≤ a) && decide (v ≠ dflt a) && smapWfFrom dflt (a + 1) m

/-- The canonical form of a sparse map. -/
def smapWf {α : Type} [DecidableEq α] (dflt : Nat → α) (m : SMap α) : Bool := smapWfFrom dflt 0 m

/-- Keep only the entries whose key passes. -/
def smapFilter {α : Type} (keep : Nat → Bool) : SMap α → SMap α
  | [] => []
  | (a, v) :: m => if keep a then (a, v) :: smapFilter keep m else smapFilter keep m

/-- Store several values one after another. -/
def smapSetMany {α : Type} [DecidableEq α] (dflt : Nat → α) (m : SMap α) : List (Nat × α) → SMap α
  | [] => m
  | (k, v) :: l => smapSetMany dflt (smapSet dflt m k v) l

end Sys2Proof.Machine
end

