-- ==== Sys2Proof/Machine/HostState.lean ====
section
/-!
DEFINITION. The state of the host interface (chapter 13) and of the service network (chapter 14) beside their
registers.
-/
namespace Sys2Proof.Machine

/-- The completion status codes of R17. -/
inductive Status where
  | ok | errOpcode | errParam | errWindow | errState | errAdmit | errVersion | errTimeout
  | errHalted | errIntegrity | errAuth | errOtpFull | errAborted
  deriving DecidableEq, Repr

/-- What the part found as it picked a command up: the tick; whether a part halt was in effect; whether the state allowed a
LOAD_BLANK and the regions for which it allowed a LOAD_REGION (R472); whether a TRIGGER took effect (R316). -/
structure Found where
  tick : Nat
  late : Bool
  blankOk : Bool
  regions : List Nat
  triggered : Bool
  deriving DecidableEq, Repr

/-- A command picked up and not yet completed (R375), which holds one reserved slot of its completion ring: whether it has
begun, whether it waits since for a self-test or for DMA (R370, R433), and what the part found at its pickup. -/
structure Inflight where
  hdr : Hdr
  begun : Bool
  waits : Bool
  found : Found
  deriving DecidableEq, Repr

/-- The opcode of a command in flight. -/
def Inflight.op (e : Inflight) : Nat := e.hdr.op

/-- A completion that has arisen and is not yet written (R383; held in D3hot, R393). -/
structure CplEntry where
  cpl : Fin 16
  tag : BitVec 16
  status : Status
  ring : Fin 16
  aux : Nat
  result : Nat
  deriving DecidableEq, Repr

/-- An event on its way to the event ring (R385): `payload` lists its fields as (size in bytes, value). -/
structure Event where
  src : Nat
  superseded : Bool
  lost : Bool
  ns : Nat
  payload : List (Nat × Nat)
  deriving DecidableEq, Repr

/-- An entry of the MSI-X table (R371): message address, message data, and the Mask bit. -/
structure MsixEntry where
  addr : BitVec 64
  data : BitVec 32
  masked : Bool
  deriving DecidableEq, Repr

/-- An entry after a reset of the table: masked (PRESUMED, log 62). -/
def MsixEntry.init : MsixEntry := ⟨0, 0, true⟩

/-- The PCI configuration space as far as R369 gives it fields that change: Bus Master Enable, PME_En and PME_Status,
the payload and read-request sizes in bytes, and the Advanced Error Reporting status by kind. -/
structure PciConfig where
  busMaster : Bool
  pmeEn : Bool
  pmeStatus : Bool
  maxPayload : Nat
  maxReadRequest : Nat
  aerStatus : SMap Nat
  deriving DecidableEq, Repr

/-- Configuration space after a reset of it (PRESUMED, log 62). -/
def PciConfig.init : PciConfig := ⟨false, false, false, 128, 512, []⟩

/-- The values of configuration space that never change (R369): identity, the largest payload and read-request sizes in
bytes, the tags of outstanding requests, the MSI-X vectors, and which capabilities there are. -/
structure PciFixed where
  vendorId : BitVec 16
  deviceId : BitVec 16
  classCode : BitVec 24
  payloadMax : Nat
  readRequestMax : Nat
  tags : Nat
  vectors : Nat
  ecrc : Bool
  noSoftReset : Bool
  pmeFromD3hot : Bool
  d1d2 : Bool
  aspmL1 : Bool
  deriving DecidableEq, Repr

/-- The host interface beside its registers. Counts are free-running (R372); `mem` is what the part has written into host
memory; `batches` are the poll batches under way, oldest first, each with the command rings that it reads and the head of
each (R375); `evtHeld` counts the events held in D3hot that are still to be written (R394); `vecDue` are the vectors whose
message waits for the link and D0; `vecSent` counts the messages sent by vector. -/
structure HostState where
  mem : SMap Byte
  partCount : SMap Nat
  hostCount : SMap Nat
  reserved : SMap Nat
  unsignalled : SMap Nat
  stopped : SMap Bool
  inflight : List Inflight
  heldCpl : List CplEntry
  events : List Event
  evtHeld : Nat
  lostNext : Bool
  evtSeq : Nat
  batches : List (List (Nat × Nat))
  lastFirst : Nat
  endpointUp : Bool
  linkUp : Bool
  pmeSent : Bool
  pci : PciConfig
  msix : SMap MsixEntry
  vecPending : SMap Bool
  vecDue : SMap Bool
  vecSent : SMap Nat
  deriving DecidableEq, Repr

/-- The host interface right after reset: nothing posted, written, queued or held. -/
def HostState.init : HostState where
  mem := []
  partCount := []
  hostCount := []
  reserved := []
  unsignalled := []
  stopped := []
  inflight := []
  heldCpl := []
  events := []
  evtHeld := 0
  lostNext := false
  evtSeq := 0
  batches := []
  lastFirst := 15
  endpointUp := false
  linkUp := false
  pmeSent := false
  pci := .init
  msix := []
  vecPending := []
  vecDue := []
  vecSent := []

/-- The header of a packet (R398). `route` is the 20-bit field; `cls` the virtual channel. -/
structure NetHeader where
  cls : Nat
  dst : Nat
  src : Nat
  op : Nat
  tag : Nat
  len : Nat
  status : Nat
  addr : Nat
  route : Nat
  deriving DecidableEq, Repr

/-- A packet: its header, its flits (two of header, then data), whether its request is flagged URGENT-abort, and what
the outside gives when it is served: what host memory holds where it reads it, and the levels at the edge I/O balls. -/
structure NetPacket where
  head : NetHeader
  flits : List Flit
  urgent : Bool
  host : List Byte
  balls : BitVec 64
  deriving DecidableEq, Repr

/-- A flit on its way: its packet's number, whether it is the first or the last, the hops left (in the first), and the
network cycle in which it reached the buffer it stands in. -/
structure NetFlit where
  flit : Flit
  pkt : Nat
  first : Bool
  last : Bool
  hops : List Nat
  since : Nat
  deriving DecidableEq, Repr

/-- The central routers, 0 to 7, and the bridges of the fabric dies, 8 to 11 (R397, R399, R400): the flits that wait in each
NI to enter, by NI × 4 + virtual channel; the input buffers, by (router × 64 + port) × 4 + virtual channel, and alike the
cycles in which credits of a bridge link reach their sender (R411); the input port that holds each output, and the channel
that each output served last; the flits that have left at an NI of packets not yet whole; the packets under way by number,
the next number, and the cycle count; what the monitors have counted since their last COUNTER, by router × 8: flits
forwarded on VC0 to VC3, then cycles stalled on them (R311). -/
structure NetState where
  entry : SMap (List NetFlit)
  buffers : SMap (List NetFlit)
  returning : SMap (List Nat)
  locks : SMap (Option Nat)
  served : SMap Nat
  leaving : SMap (List Flit)
  packets : List (Nat × NetPacket)
  next : Nat
  cycle : Nat
  counts : SMap Nat
  deriving DecidableEq, Repr

/-- Routers with empty buffers. -/
def NetState.init : NetState := ⟨[], [], [], [], [], [], [], 0, 0, []⟩

/-- A non-posted request of an initiator NI (R405): its tag, target, address and class, and the flits of response room
it takes (R404, R411). -/
structure SvnRequest where
  ni : Nat
  tag : Nat
  tgt : Nat
  addr : Nat
  control : Bool
  read : Bool
  room : Nat
  deriving DecidableEq, Repr

/-- A response (R398): the target that gives it, its initiator and tag, its class, status and data. -/
structure SvnResponse where
  tgt : Nat
  ni : Nat
  tag : Nat
  control : Bool
  status : Status
  data : List Byte
  deriving DecidableEq, Repr

/-- A record of the error log (R406). -/
structure ErrorRecord where
  init : Nat
  tgt : Nat
  cause : Nat
  addr : Nat
  ns : Nat
  deriving DecidableEq, Repr

/-- What waits for a self-test to end or for DMA (R370, R433): a request at its target, or a command that has begun. -/
inductive Waiter where
  | packet (pk : NetPacket)
  | command (i : Instr) (h : Hdr)
  deriving DecidableEq, Repr

/-- The service network beside its registers: whether SINK is in force and a switch waits; the requests that wait in
their initiator NIs (R404), and the requests and commands that wait at a block (R433), oldest first; the requests
outstanding; the responses that their targets have given; the error notices on VC1, as target and initiator;
the error log; what each NI handed its unit last; and the central routers. -/
structure SvnState where
  sink : Bool
  switching : Bool
  held : List NetPacket
  waiting : List Waiter
  outstanding : List SvnRequest
  responses : List SvnResponse
  notices : List (Nat × Nat)
  errorLog : List ErrorRecord
  delivered : List SvnResponse
  net : NetState
  deriving DecidableEq, Repr

/-- The service network right after reset: mode RESERVE, nothing in flight. -/
def SvnState.init : SvnState where
  sink := false
  switching := false
  held := []
  waiting := []
  outstanding := []
  responses := []
  notices := []
  errorLog := []
  delivered := []
  net := .init

/-! ### Catches and halts (chapters 05 and 14) -/

/-- The catch classes of R164, with the codes of that rule given by `CatchClass.code`. -/
inductive CatchClass where
  | seal | imem | dmem | table | slot | thermal | pin | sw | version
  deriving DecidableEq, Repr

/-- A halt request, or the halt it became: `part` says which of the two kinds it is (R167), `cls` the class of the
request that decided it. -/
structure HaltReq where
  part : Bool
  cls : CatchClass
  deriving DecidableEq, Repr

end Sys2Proof.Machine
end

