-- ==== Sys2Proof/Machine/TickState.lean ====
section
/-!
DEFINITION. The state of the tick sequencer and of the fabric as a whole (chapter 06), with the halt requests of
chapter 14 and the catch log of chapter 05.
-/
namespace Sys2Proof.Machine

/-- The fabric states of R180. -/
inductive FabState where
  | off | loaded | admitted | running | stopped | halted
  deriving DecidableEq, Repr

/-- Where a catch was raised (R165). -/
inductive CatchPlace where
  | spindle (col row idx : Nat)
  | router (col row : Nat)
  | table (col row : Nat)
  | block (sub : Nat)
  deriving DecidableEq, Repr

/-- A catch record (R165). -/
structure CatchRec where
  cls : CatchClass
  flags : Nat
  place : CatchPlace
  tick : Nat
  step : Nat
  detail : Nat
  rep : Nat
  deriving DecidableEq, Repr

/-- The tick sequencer, the fabric's state and the halts.
`tick` is the tick counter, `reached` says that boundaries are being produced; `pllN` and `pllT` are the N and T the
step clock takes its ratio from (R173); `start` is a pending START with its tick; `stopAt` the last tick to execute
and `stopCmds` the STOP commands that wait for it; `haltReq` is the most severe halt request recognised and not yet
registered, `haltDue` the one registered at the latest boundary and taking effect there, `halt` the one in effect;
`haltCmds` the HALT commands that wait; `catchOvf` collects, within one tick, the places whose record the full log did
not keep (R166). `fabHaltFrom` and `partHaltFrom` are the first ticks whose frames a fabric halt and a part halt cover
(R415), and `pvWest` and `pvEast` say that the fabric executed the previous tick with the region of the west or east
port billets LIVE (R240). -/
structure TickState where
  fab : FabState
  tick : Nat
  reached : Bool
  pllN : Nat
  pllT : Nat
  start : Option (Hdr × Nat)
  stopAt : Option Nat
  stopCmds : List Hdr
  haltReq : Option HaltReq
  haltDue : Option HaltReq
  halt : Option HaltReq
  haltCmds : List Hdr
  catchLog : List CatchRec
  catchOvf : List CatchRec
  classSeen : List CatchClass
  log154 : Bool
  fabHaltFrom : Option Nat
  partHaltFrom : Option Nat
  pvWest : Bool
  pvEast : Bool
  deriving DecidableEq, Repr

/-- The tick sequencer right after reset: fabric OFF, no boundary yet, the step clock on the reset values of FAB_N
and T (R173), within the maximum of the order (R3; `lastsStep`). -/
def TickState.init : TickState where
  fab := .off
  tick := 0
  reached := false
  pllN := 80
  pllT := 40 * 2 ^ 32
  start := none
  stopAt := none
  stopCmds := []
  haltReq := none
  haltDue := none
  halt := none
  haltCmds := []
  catchLog := []
  catchOvf := []
  classSeen := []
  log154 := false
  fabHaltFrom := none
  partHaltFrom := none
  pvWest := false
  pvEast := false

end Sys2Proof.Machine
end

