-- ==== Sys2Proof/Machine/FabricState.lean ====
section
/-!
DEFINITION. The state of the fabric: spindle memories, billet buses, TR, table memories, the grain, the staging
slots, the port windows and the edge I/O cells (chapters 02, 03 and 04). Coordinates are virtual: billet
b = column × 32 + row, spindle number = b × 64 + index (R27). Within a tick, what an instruction has produced and the
spec makes visible only at a later step is held with its step.
-/
namespace Sys2Proof.Machine

/-- A stored word under SECDED (R56, R127): the data last written and the stored bits upset since, of the 64 data
bits (0 to 63) and the 8 check bits (64 to 71) (DESIGN CHOICE, log 56). -/
structure EccWord where
  data : Word
  flips : BitVec 72
  deriving DecidableEq, Repr

/-- Zero with valid check bits (R47, R134). -/
def EccWord.zero : EccWord := ⟨0, 0⟩

/-- Who owns a slot (R118). -/
inductive SlotOwner where
  | empty
  | inject (idx : Nat)
  | input (ch : Nat)
  deriving DecidableEq, Repr

/-- A slot-table entry with its parity bit (R118, R123): `badParity` says that the stored bits fail it. -/
structure SlotEntry where
  owner : SlotOwner
  tag : Nat
  badParity : Bool
  deriving DecidableEq, Repr

/-- An empty slot-table entry. -/
def SlotEntry.none : SlotEntry := ⟨.empty, 0, false⟩

/-- A grain word in a slot: its tag and its data (R79). -/
structure GrainWord where
  tag : Nat
  data : Word
  deriving DecidableEq, Repr

/-- A billet-bus slot within a tick: `latest` was published by the instruction executing at `step` (0: in an earlier
tick), `settled` is what the slot held before (R35, R39). -/
structure BusSlot where
  settled : Word
  latest : Word
  step : Nat
  deriving DecidableEq, Repr

/-- A result on its way to data memory: written by the instruction executing at `step` (R34). -/
structure PendWrite where
  step : Nat
  addr : Nat
  val : Word
  deriving DecidableEq, Repr

/-- TR with the loads on their way, each with the execute step that first sees it (R36). -/
structure TrState where
  cur : Word
  coming : List (Nat × Word)
  deriving DecidableEq, Repr

/-- A staging write: execute step, spindle index, word; step 0 means not written in this tick (R45, R137, R178). -/
structure Staged where
  step : Nat
  idx : Nat
  val : Word
  deriving DecidableEq, Repr

/-- A staging slot that nothing has written in this tick: it hands over zero (R46). -/
def Staged.none : Staged := ⟨0, 0, 0⟩

/-- What a SEND left for its slot (R120, R121): the word accepted, or that the refusal has been reported. -/
inductive Injection where
  | accepted (w : GrainWord)
  | refused
  deriving DecidableEq, Repr

/-- The status words of a tick, latched at its step 1 (R41, R42); FIRST is per region and computed. -/
structure StatusWords where
  s0 : Word
  acceptReady : Bool
  s2 : Word
  s3 : Word
  s4 : Word
  s5 : Word
  deriving DecidableEq, Repr

/-- A TABLE_WRITE held under R131: its entries as (billet, address, word), and its tick u. -/
structure TableWriteCmd where
  hdr : Hdr
  entries : List (Nat × Nat × Word)
  tick : Nat
  deriving DecidableEq, Repr

/-- The spindle memories and what the pipeline of each spindle holds within a tick. Keys: data word
spindle × 256 + x, instruction entry spindle × 512 + e, table word billet × 16384 + a,
suppressed instruction of this tick spindle × 1024 + step. The correction queues hold
addresses, oldest first (R63, R132); the patrol pointers are per region, with 8 for columns outside every region. Of the
present boundary window, `dUsed` and `iUsed` count the write-backs of a spindle, and `dFixed` and `iFixed` hold, under the
key of a word that was written back at step 7 or 8, that step and the word as it stood before (R43, R63). -/
structure SpindleState where
  dmem : SMap EccWord
  imem : SMap EccWord
  table : SMap EccWord
  pend : SMap PendWrite
  bus : SMap BusSlot
  tr : SMap TrState
  lastStep : SMap Nat
  suppressed : SMap Bool
  tableStep : SMap Nat
  dQueue : SMap (List Nat)
  iQueue : SMap (List Nat)
  dUsed : SMap Nat
  iUsed : SMap Nat
  dFixed : SMap (Nat × EccWord)
  iFixed : SMap (Nat × EccWord)
  tQueue : SMap (List Nat)
  dPatrol : SMap Nat
  iPatrol : SMap Nat
  tPatrol : SMap Nat
  ceD : SMap Nat
  ceI : SMap Nat
  ceT : SMap Nat
  deriving DecidableEq, Repr

/-- The spindle memories right after reset: zero in every word (R47, R134). -/
def SpindleState.init : SpindleState :=
  ⟨[], [], [], [], [], [], [], [], [], [], [], [], [], [], [], [], [], [], [], [], [], []⟩

/-- The grain, the staging slots, the port windows and the edge I/O cells. Keys: slot entry
(billet × 16 + output channel) × 512 + (step − 8); injections and arrivals (billet × 16 + channel); history slot
billet × 8 + HIX; probe slot billet × 4 + PIX; window word lane × 128 + word; edge cell 0 to 63. `slotsNew` is the
slot table that the loader has written for a region not yet released (R211). `gioWords` are the output words of an edge
cell, that of the present tick first; `gioLast` is the last bit it drove, and `gioDelay` its delays in force. -/
structure GrainState where
  slots : SMap SlotEntry
  slotsNew : SMap SlotEntry
  inject : SMap (List (Nat × Injection))
  arrive : SMap (List (Nat × GrainWord))
  routerStep : SMap Nat
  status : StatusWords
  hist : SMap Staged
  probe : SMap Staged
  txStage : SMap Staged
  txCommit : SMap Word
  rxVisible : SMap Word
  accept : Staged
  uevt : Staged
  stat : SMap Staged
  held : List TableWriteCmd
  gioIn : SMap Word
  gioStage : SMap Staged
  gioWords : SMap (List Word)
  gioLast : SMap (Option Bool)
  gioDelay : SMap Nat
  deriving DecidableEq, Repr

/-- The grain and the ports right after reset. -/
def GrainState.init : GrainState :=
  ⟨[], [], [], [], [], ⟨0, false, 0, 0, 0, 0⟩, [], [], [], [], [], .none, .none, [], [], [], [], [], [], []⟩

end Sys2Proof.Machine
end

