-- ==== Sys2Proof/Machine/LoaderState.lean ====
section
/-!
DEFINITION. The state of the loader, of the loaded blank and of its regions (chapters 05 and 07).
-/
namespace Sys2Proof.Machine

/-- The region states of R206. -/
inductive RegionState where
  | empty | loading | held | live
  deriving DecidableEq, Repr

/-- The declarations of a DECL section (R153). Lanes, billets and status outputs key the maps; a port's spindle is
its spindle number (R27). -/
structure Decl where
  rxWords : SMap Nat
  txWords : SMap Nat
  accept : Option Nat
  uevt : Option Nat
  stat : SMap (Option Nat)
  acceptRateMax : Nat
  winBeforeMax : Nat
  winAfterMax : Nat
  histMask : SMap Nat
  probeMask : SMap Nat
  deriving DecidableEq, Repr

/-- No declarations. -/
def Decl.none : Decl := ⟨[], [], .none, .none, [], 0, 0, 0, [], []⟩

/-- What the part keeps of a blank image beside the memories it fills (R146, R149, R153): `travel` is its TRAVEL
section, byte by byte, and `runs` the billet, START and COUNT of every table run (R152). -/
structure BlankInfo where
  colsPerDie : Nat
  len : Nat
  stages : Nat
  minFw : Nat
  steppings : Nat
  energyNj : Nat
  firstCol : Nat
  lastCol : Nat
  region : Nat
  travel : List Byte
  decl : Decl
  regions : List (Nat × Nat)
  runs : List (Nat × List (Nat × Nat))
  deriving DecidableEq, Repr

/-- What a blank image writes: memory words by key (as `SpindleState` and `GrainState` key them). -/
structure BlankImages where
  imem : List (Nat × Word)
  dmem : List (Nat × Word)
  table : List (Nat × Word)
  slots : List (Nat × SlotEntry)
  deriving DecidableEq, Repr

/-- No memory words. -/
def BlankImages.none : BlankImages := ⟨[], [], [], []⟩

/-- A region of the loaded blank: its state; the u0 of the partial blank on its way, the release tick fixed for it,
the last release tick; the command of that partial blank, its header and its images, and whether it waits for the
boundary at which it enters LOADING (R206); the ENERGY_NJ of the newest partial blank of the region (R191). -/
structure Region where
  state : RegionState
  u0 : Nat
  release : Option Nat
  relTick : Option Nat
  cmd : Option Hdr
  coming : Option BlankInfo
  imgs : BlankImages
  waits : Bool
  energy : Nat
  deriving DecidableEq, Repr

/-- A region of no loaded blank. -/
def Region.empty : Region := ⟨.empty, 0, none, none, none, none, BlankImages.none, false, 0⟩

/-- A load taken up (R202, R472): its command (none from the configuration port), whether that is a LOAD_REGION, its
u0, the bytes delivered, and whether a stream carried a payload beyond its START length (R216). -/
structure LoadJob where
  hdr : Option Hdr
  region : Bool
  u0 : Nat
  image : List Byte
  overLen : Bool
  deriving DecidableEq, Repr

/-- An active configuration stream (R216): the START length, the image bytes that its segments wrote in the load area,
and whether a payload extended past that length. -/
structure CfgStream where
  len : Nat
  bytes : SMap Byte
  overLen : Bool
  deriving DecidableEq, Repr

/-- A blank that has passed its checks and is being written (R203): the load, its header and images, and the used
physical columns. -/
structure Writing where
  job : LoadJob
  info : BlankInfo
  imgs : BlankImages
  cols : List Nat
  deriving DecidableEq, Repr

/-- The loader and the configuration port: the loads taken up and not ended, first come first; the full blank being
written; the stream; whether CFG_SEL_N is low; whether a gap was detected; whether the part pulls CFG_DONE low and
whether it pulls CFG_NACK_N low; whether event source 214 has been raised for the present SEQ (R219); and whether it
acts on nothing before the next START (R220). -/
structure LoaderState where
  jobs : List LoadJob
  writing : Option Writing
  selected : Bool
  stream : Option CfgStream
  gap : Bool
  doneLow : Bool
  nackLow : Bool
  evt214 : Bool
  awaits : Bool
  deriving DecidableEq, Repr

/-- The loader right after reset: idle; CFG_SEL_N is pulled up (R454). -/
def LoaderState.init : LoaderState := ⟨[], none, false, none, false, false, false, false, false⟩

end Sys2Proof.Machine
end

