-- ==== Sys2Proof/Machine/ReadoutState.lean ====
section
/-!
DEFINITION. The state of history, accepts and readout (chapter 09), and of capture and trace (chapter 10), beside their
registers.
-/
namespace Sys2Proof.Machine

/-! ### History -/

/-- The states of a heartwood page (R261) as a page of history sees its own: `none` when it has no heartwood page. -/
inductive HwState where
  | none | filling | spill | release | retained | pinned
  deriving DecidableEq, Repr

/-- A page of a sequence (R259): its number, its first tick, H and K, its sapwood frame, the heartwood page assigned
to it with its state and the accepts that pin it (their number is its pin count), whether its last tick is in sapwood, whether its frame still holds it, and the
ticks written, latest first. -/
structure HPage where
  id : Nat
  first : Nat
  words : Nat
  perPage : Nat
  frame : Nat
  hw : Nat
  st : HwState
  waitsHw : Bool
  pins : List Nat
  done : Bool
  inSap : Bool
  ticks : List (Nat × List Word)
  deriving DecidableEq, Repr

/-- An accept in the queue (R267 to R271): its number in order of entry, the accepted tick, the window as applied,
level, TAG, source, the CLAMPED flag, whether its window is complete, and whether it was pending when the fabric left
RUNNING (R276). -/
structure AcceptEntry where
  id : Nat
  tick : Int
  before : Nat
  after : Nat
  prio : Nat
  tag : Nat
  source : Nat
  clamped : Bool
  complete : Bool
  early : Bool
  deriving DecidableEq, Repr

/-- History and accepts. `handed` holds the ticks taken up and not yet in sapwood; `freed` the heartwood pages on the
free list that have been used and `fresh` the first that never was; `frame` the last frame used. `takesBlank` and
`takesExt` are the ticks of the accepts counted by R269; `lastEvt` the ticks of the latest events 64 and 65; both in the
numbering of the present ticks, so that one before tick 0 is negative. -/
structure HisState where
  handed : List (Nat × List Word)
  pages : List HPage
  nextPage : Nat
  frame : Nat
  freed : List Nat
  fresh : Nat
  lowSeen : Bool
  accepts : List AcceptEntry
  nextAccept : Nat
  fullSeen : Bool
  takesBlank : List Int
  takesExt : List Int
  lastEvt : SMap (Option Int)
  deriving DecidableEq, Repr

/-- History right after reset: nothing kept. -/
def HisState.init : HisState := ⟨[], [], 0, 1023, [], 0, false, [], 0, false, [], [], []⟩

/-! ### Readout -/

/-- A node of a readout graph (R278). -/
structure GraphNode where
  typ : Nat
  level : Nat
  usePrio : Bool
  pred : Nat
  succ : List Nat
  param : Nat
  deriving DecidableEq, Repr

/-- A loaded readout graph (R278). -/
structure Graph where
  nodes : List GraphNode
  cost : Nat
  work : Nat
  deriving DecidableEq, Repr

/-- A started instance (R281, R282): its slot, its accept, the window ticks that are absent from its records, the
predecessors still to complete of each node, the flags of its records, where each of its 16 buffers lies in its work area
(R323) as pieces of offset and length in order, and CHECK. -/
structure Instance where
  slot : Nat
  acc : AcceptEntry
  gone : List Int
  counters : SMap Nat
  taskError : Bool
  truncated : Bool
  bufs : SMap (List (Nat × Nat))
  check : Nat
  deriving DecidableEq, Repr

/-- A task (R282 to R284): instance slot, node, level, and the device time in ns at which it entered its queue. -/
structure Task where
  slot : Nat
  node : Nat
  level : Nat
  since : Nat
  deriving DecidableEq, Repr

/-- What a task on a core has done so far. -/
inductive TaskPhase where
  | running | waiting | acted (ok : Bool)
  deriving DecidableEq, Repr

/-- A readout core (R284 to R286). -/
inductive CoreState where
  | idle
  | busy (t : Task) (start : Nat) (phase : TaskPhase)
  | resetting
  deriving DecidableEq, Repr

/-- A readout lane's buffer (R288): its words, each with whether a record starts there, and LSEQ. -/
structure LaneBuf where
  words : List (Bool × Word)
  lseq : Nat
  deriving DecidableEq, Repr

/-- Readout: the graph, the accepts whose window is complete in the order of R281, the started instances, the ready
queues and the park list, the cores, the readout lanes, the next SEQ of each destination (rings 0 to 31, lanes from
32), the local memories of the cores, 64 KiB each: byte `a` of core `j` at key j × 65,536 + a (R286), and RDO_TRACE_STALL as
it stood when the latest task of each core was dispatched (R286). -/
structure RdoState where
  graph : Option Graph
  order : List Nat
  insts : List Instance
  queue : List Task
  parked : List Task
  cores : SMap CoreState
  lanes : SMap LaneBuf
  seqs : SMap Nat
  coreMem : SMap Byte
  stallMode : SMap Bool
  deriving DecidableEq, Repr

/-- Readout right after reset. -/
def RdoState.init : RdoState := ⟨none, [], [], [], [], [], [], [], [], []⟩

/-! ### Capture -/

/-- What CAPTURE_ARM carries (R293, R380): the entries of WORD in order, 16 of them. -/
structure CapArm where
  unit : Fin 16
  probe : BitVec 8
  lsb : BitVec 6
  width : BitVec 2
  sgn : Bool
  dir : BitVec 2
  src : BitVec 2
  wrap : Bool
  evtEach : Bool
  level : BitVec 64
  hyst : BitVec 64
  pre : BitVec 10
  post : BitVec 10
  words : BitVec 5
  word : List (BitVec 8)
  slots : BitVec 13
  base : BitVec 17
  ring : Fin 32
  tbDrive : BitVec 4
  tbListen : BitVec 8
  deriving DecidableEq, Repr

/-- The parameters of a CAPTURE_ARM descriptor (R380). -/
def capArmOf (h : Hdr) : CapArm :=
  let bits (off lo w : Nat) : Nat := h.par off 4 / 2 ^ lo % 2 ^ w
  { unit := Fin.ofNat 16 (bits 0x28 0 4)
    probe := BitVec.ofNat 8 (bits 0x29 0 8)
    lsb := BitVec.ofNat 6 (bits 0x2A 0 6)
    width := BitVec.ofNat 2 (bits 0x2A 6 2)
    sgn := bits 0x2B 0 1 == 1
    dir := BitVec.ofNat 2 (bits 0x2B 1 2)
    src := BitVec.ofNat 2 (bits 0x2B 3 2)
    wrap := bits 0x2B 5 1 == 1
    evtEach := bits 0x2B 6 1 == 1
    level := BitVec.ofNat 64 (h.par 8 8)
    hyst := BitVec.ofNat 64 (h.par 0x10 8)
    pre := BitVec.ofNat 10 (bits 0x2C 0 10)
    post := BitVec.ofNat 10 (bits 0x2C 10 10)
    words := BitVec.ofNat 5 (bits 0x2C 20 5)
    word := (List.range 16).map (fun k => BitVec.ofNat 8 (h.par (0x18 + k) 1))
    slots := BitVec.ofNat 13 (bits 0x30 0 13)
    base := BitVec.ofNat 17 (bits 0x30 13 17)
    ring := Fin.ofNat 32 (bits 0x34 0 5)
    tbDrive := BitVec.ofNat 4 (bits 0x35 0 4)
    tbListen := BitVec.ofNat 8 (bits 0x36 0 8) }

/-- A segment (R303), being recorded or complete. -/
structure Segment where
  trig : Nat
  trigTime : Nat
  own : Bool
  bus : Bool
  lines : Nat
  value : Nat
  preValid : Nat
  ticks : List (Nat × List Word)
  short : Bool
  disarmed : Bool
  renumbered : Bool
  seq : Nat
  deadNs : Nat
  deadTicks : Nat
  deriving DecidableEq, Repr

/-- The states of a capture unit (R297). -/
inductive CapSt where
  | off | waiting | recording | dead | full
  deriving DecidableEq, Repr

/-- A capture unit: `skip` ticks are still to pass before it evaluates; `pre` is its pre-ring, oldest first; `cur` the segment being recorded; `segs` those complete and
not delivered, oldest first; `deadSince` the device time of the last completion; `deadTicks` the ticks since then that
were not evaluated; `dead` the dead time and tick count for the next segment; `disarm` says that it goes OFF once its
segments are delivered, with the commands that wait for that. `doneTick` is the last tick of its latest segment. -/
structure CapUnit where
  st : CapSt
  cfg : CapArm
  skip : Nat
  pr : Bool
  pf : Bool
  pre : List (Nat × List Word)
  cur : Option Segment
  segs : List Segment
  seq : Nat
  lost : Nat
  deadSince : Nat
  deadTicks : Nat
  deadNs : Nat
  deadCount : Nat
  doneTick : Nat
  disarm : Bool
  cmds : List Hdr
  deriving DecidableEq, Repr

/-- A tick whose probe words have been taken up and whose decision instant is still to come (R290, R292). -/
structure ProbeTick where
  tick : Nat
  words : List Word
  lines : Nat
  driven : Bool
  sampled : Bool
  deriving DecidableEq, Repr

/-- Capture: the units, the ticks to decide, oldest first, the order in which complete segments are to be delivered
(unit numbers), the trigger-bus lines that the part drove last and the instant from which (R305), and DRV and SMP in force
in units of 100 ps (R307). -/
structure CapState where
  units : SMap (Option CapUnit)
  ticks : List ProbeTick
  delivery : List Nat
  drive : Nat
  driveFrom : Nat
  drv : Nat
  smp : Nat
  deriving DecidableEq, Repr

/-- Capture right after reset: every unit OFF. -/
def CapState.init : CapState := ⟨[], [], [], 0, 0, 0, 0⟩

/-! ### Trace -/

/-- The input of a trace source at the chute (R310, R313, R314): shavings that wait, the time of its last shaving in
units of 4 ns, the bytes it has emitted and those since its last SYNC, whether a SYNC must come first, the shavings and
bytes dropped, the shavings (kind and payload) with which a stalled core waits (R286), and whether a LOSS has gone out
after which no CHANGE has (R312). -/
structure TrcSource where
  queue : List (List Byte)
  last : Nat
  emitted : Nat
  sinceSync : Nat
  needSync : Bool
  dropN : Nat
  dropBytes : Nat
  stalled : List (Nat × List Byte)
  afterLoss : Bool
  deriving DecidableEq, Repr

/-- A trace source that has emitted nothing since START. -/
def TrcSource.init : TrcSource := ⟨[], 0, 0, 0, true, 0, 0, [], false⟩

/-- The trace states of TRC_STATUS. -/
inductive TrcSt where
  | idle | running | triggered | frozen
  deriving DecidableEq, Repr

/-- Trace: its state and stop instant in ns, the sources, the source served last, the bytes gathered for a chunk,
the DRAINs under way with the stream offset each has reached, the values of the
history slots with whether every group must send a full CHANGE (R312), the draw that gave the challenge, and the device
time in ns of the latest event 113 of each source (R319). -/
structure TrcState where
  st : TrcSt
  stopAt : Nat
  sources : SMap TrcSource
  served : Nat
  gather : List Byte
  drains : List (Hdr × Nat)
  prev : SMap Word
  full : Bool
  chal : Nat
  lossAt : SMap (Option Int)
  deriving DecidableEq, Repr

/-- Trace right after reset: idle. -/
def TrcState.init : TrcState := ⟨.idle, 0, [], 127, [], [], [], false, 0, []⟩

end Sys2Proof.Machine
end

