-- ==== Sys2Proof/Machine/RegMap.lean ====
section
/-!
DEFINITION. The BAR0 register map: one row for every field of every register table of the spec (chapters 04 to 15),
with its absolute BAR0 offset (R15), its place in the register, its access code (R9), its reset value and, where its
table gives a range, the values a write may give it (R469). The registers' bits live in ONE register file
(`Part.regs`), read and written through these rows.
-/
namespace Sys2Proof.Machine

/-- The access codes of R9. -/
inductive Access where
  | ro | rw | rwl | rw1c | rw1s | wo | rc
  deriving DecidableEq, Repr

/-- One field of one register, or of an array of registers: `dims` holds (stride, count) pairs, outermost first. -/
structure FieldRow where
  off : Nat
  dims : List (Nat × Nat)
  lo : Nat
  width : Nat
  acc : Access
  rst : Nat
  legal : List (Nat × Nat)
  deriving DecidableEq, Repr

/-- The offset of register number `i` of an array (row-major over the dimensions). -/
def dimsAt : List (Nat × Nat) → Nat → Nat
  | [], _ => 0
  | [(s, _)], i => s * i
  | (s, _) :: (t, n) :: _, i => s * (i / n) + t * (i % n)

/-- The BAR0 offset of a row's register number `i`. -/
def FieldRow.at (f : FieldRow) (i : Nat) : Nat := f.off + dimsAt f.dims i

/-- Does a distance from the first register fall on a register of the array? -/
def dimsHit : List (Nat × Nat) → Nat → Bool
  | [], d => d == 0
  | (s, n) :: l, d => decide (d / s < n) && dimsHit l (d % s)

/-- Does a BAR0 offset hold the register of this row? -/
def FieldRow.hits (f : FieldRow) (off : Nat) : Bool := decide (f.off ≤ off) && dimsHit f.dims (off - f.off)

/-- May a write give the field this value (R469)? An empty list admits every value that fits. -/
def FieldRow.admits (f : FieldRow) (v : Nat) : Bool :=
  f.legal.isEmpty || f.legal.any (fun r => decide (r.1 ≤ v) && decide (v ≤ r.2))

/-! ### SYS: identity, reset, status, power limit, version override (chapter 15) -/

-- SYS_ID at 0x0
def SYS_STEPPING : FieldRow := ⟨0x0, [], 0, 8, .ro, 17, []⟩
def SYS_ORDER : FieldRow := ⟨0x0, [], 8, 4, .ro, 0, []⟩
def SYS_DEVICE : FieldRow := ⟨0x0, [], 16, 16, .ro, 32258, []⟩
-- SYS_STATE at 0x4
def SYS_PART_STATE : FieldRow := ⟨0x4, [], 0, 3, .ro, 0, []⟩
def SYS_BOOT_STAGE : FieldRow := ⟨0x4, [], 3, 3, .ro, 0, []⟩
def SYS_RESTRICTED : FieldRow := ⟨0x4, [], 6, 1, .ro, 0, []⟩
-- SYS_RESET_CAUSE at 0x8
def SYS_CAUSE : FieldRow := ⟨0x8, [], 0, 3, .ro, 0, []⟩
-- SYS_PRESENT at 0xc
def SYS_PRESENT_MAP : FieldRow := ⟨0xc, [], 0, 32, .ro, 0, []⟩
-- SYS_POWER_LIMIT at 0x10
def SYS_PWR_LIMIT : FieldRow := ⟨0x10, [], 0, 16, .rwl, 0, [(1, 4000)]⟩
-- SYS_VERSION_OVERRIDE at 0x14
def SYS_OVR_EN : FieldRow := ⟨0x14, [], 0, 1, .rwl, 0, []⟩
-- SYS_VERSION_STATUS at 0x18
def SYS_VER_CAUSE : FieldRow := ⟨0x18, [], 0, 4, .ro, 0, []⟩
def SYS_VER_PARTY : FieldRow := ⟨0x18, [], 4, 2, .ro, 0, []⟩
def SYS_OVR_ACTIVE : FieldRow := ⟨0x18, [], 6, 1, .ro, 0, []⟩
def SYS_RDO_STARTED : FieldRow := ⟨0x18, [], 7, 1, .ro, 0, []⟩
-- SYS_SERIAL_LO at 0x20
def SYS_SERIAL_L : FieldRow := ⟨0x20, [], 0, 32, .ro, 0, []⟩
-- SYS_SERIAL_HI at 0x24
def SYS_SERIAL_H : FieldRow := ⟨0x24, [], 0, 32, .ro, 0, []⟩

/-- The fields of block SYS. -/
def sysRows : List FieldRow :=
  [SYS_STEPPING, SYS_ORDER, SYS_DEVICE, SYS_PART_STATE, SYS_BOOT_STAGE, SYS_RESTRICTED, SYS_CAUSE, SYS_PRESENT_MAP, SYS_PWR_LIMIT, SYS_OVR_EN, SYS_VER_CAUSE, SYS_VER_PARTY] ++
  [SYS_OVR_ACTIVE, SYS_RDO_STARTED, SYS_SERIAL_L, SYS_SERIAL_H]

/-! ### HIF: host interface (chapter 13) -/

-- HIF_CTRL at 0x100000
def HIF_POLL_EN : FieldRow := ⟨0x100000, [], 0, 1, .rwl, 0, []⟩
-- HIF_STATUS at 0x100004
def HIF_LINK_RATE : FieldRow := ⟨0x100004, [], 0, 4, .ro, 0, []⟩
def HIF_LINK_WIDTH : FieldRow := ⟨0x100004, [], 4, 5, .ro, 0, []⟩
def HIF_DSTATE : FieldRow := ⟨0x100004, [], 9, 2, .ro, 0, []⟩
def HIF_PME_PENDING : FieldRow := ⟨0x100004, [], 11, 1, .ro, 0, []⟩
def HIF_CFG_ERR : FieldRow := ⟨0x100004, [], 12, 1, .ro, 0, []⟩
-- HIF_POLL at 0x100008
def HIF_POLL_NS : FieldRow := ⟨0x100008, [], 0, 20, .rwl, 1000, [(64, 1000000)]⟩
-- HIF_RTT at 0x10000c
def HIF_RTT_LAST : FieldRow := ⟨0x10000c, [], 0, 16, .ro, 0, []⟩
def HIF_RTT_MAX : FieldRow := ⟨0x10000c, [], 16, 16, .ro, 0, []⟩
-- HIF_DB_BASE_LO at 0x100010
def HIF_DB_ADDR_LO : FieldRow := ⟨0x100010, [], 12, 20, .rwl, 0, []⟩
-- HIF_DB_BASE_HI at 0x100014
def HIF_DB_ADDR_HI : FieldRow := ⟨0x100014, [], 0, 32, .rwl, 0, []⟩
-- HIF_WB_BASE_LO at 0x100018
def HIF_WB_ADDR_LO : FieldRow := ⟨0x100018, [], 12, 20, .rwl, 0, []⟩
-- HIF_WB_BASE_HI at 0x10001c
def HIF_WB_ADDR_HI : FieldRow := ⟨0x10001c, [], 0, 32, .rwl, 0, []⟩
-- HIF_WAKE_EN at 0x100020
def HIF_WAKE_RXG : FieldRow := ⟨0x100020, [], 0, 16, .rwl, 0, []⟩
def HIF_WAKE_ACC : FieldRow := ⟨0x100020, [], 16, 1, .rwl, 0, []⟩
def HIF_WAKE_ALARM : FieldRow := ⟨0x100020, [], 17, 1, .rwl, 0, []⟩
def HIF_WAKE_MON : FieldRow := ⟨0x100020, [], 18, 1, .rwl, 0, []⟩
-- HIF_WAKE_CAUSE at 0x100024
def HIF_WAKE_SRC : FieldRow := ⟨0x100024, [], 0, 2, .ro, 0, []⟩
def HIF_WAKE_GRP : FieldRow := ⟨0x100024, [], 2, 4, .ro, 0, []⟩
def HIF_WAKE_SUPERSEDED : FieldRow := ⟨0x100024, [], 6, 1, .ro, 0, []⟩
def HIF_WAKE_VALID : FieldRow := ⟨0x100024, [], 7, 1, .ro, 0, []⟩
-- HIF_WIN_REJECT at 0x100028
def HIF_WIN_COUNT : FieldRow := ⟨0x100028, [], 0, 32, .rc, 0, []⟩
-- HIF_EVT_LOST at 0x10002c
def HIF_LOST_COUNT : FieldRow := ⟨0x10002c, [], 0, 32, .rc, 0, []⟩
-- HIF_EVT_MASKw at 0x100040 (array)
def HIF_EVT_MASK : FieldRow := ⟨0x100040, [(4, 8)], 0, 32, .rw, 0, []⟩
-- HIF_CMDi_BASE_LO at 0x100100 (array)
def HIF_CMD_ADDR_LO : FieldRow := ⟨0x100100, [(16, 16)], 12, 20, .rwl, 0, []⟩
-- HIF_CMDi_BASE_HI at 0x100104 (array)
def HIF_CMD_ADDR_HI : FieldRow := ⟨0x100104, [(16, 16)], 0, 32, .rwl, 0, []⟩
-- HIF_CMDi_CTRL at 0x100108 (array)
def HIF_CMD_EN : FieldRow := ⟨0x100108, [(16, 16)], 0, 1, .rwl, 0, []⟩
def HIF_CMD_LOG2 : FieldRow := ⟨0x100108, [(16, 16)], 1, 5, .rwl, 0, [(4, 16)]⟩
-- HIF_CMDi_STATUS at 0x10010c (array)
def HIF_CMD_STALL : FieldRow := ⟨0x10010c, [(16, 16)], 0, 1, .ro, 0, []⟩
def HIF_CMD_WAIT_CPL : FieldRow := ⟨0x10010c, [(16, 16)], 1, 1, .ro, 0, []⟩
def HIF_CMD_WAIT_TW : FieldRow := ⟨0x10010c, [(16, 16)], 2, 1, .ro, 0, []⟩
def HIF_CMD_INFLIGHT : FieldRow := ⟨0x10010c, [(16, 16)], 16, 16, .ro, 0, []⟩
-- HIF_CPLi_BASE_LO at 0x100200 (array)
def HIF_CPL_ADDR_LO : FieldRow := ⟨0x100200, [(16, 16)], 12, 20, .rwl, 0, []⟩
-- HIF_CPLi_BASE_HI at 0x100204 (array)
def HIF_CPL_ADDR_HI : FieldRow := ⟨0x100204, [(16, 16)], 0, 32, .rwl, 0, []⟩
-- HIF_CPLi_CTRL at 0x100208 (array)
def HIF_CPL_EN : FieldRow := ⟨0x100208, [(16, 16)], 0, 1, .rwl, 0, []⟩
def HIF_CPL_LOG2 : FieldRow := ⟨0x100208, [(16, 16)], 1, 5, .rwl, 0, [(4, 16)]⟩
def HIF_CPL_VECTOR : FieldRow := ⟨0x100208, [(16, 16)], 8, 6, .rwl, 0, []⟩
def HIF_CPL_IRQ_EN : FieldRow := ⟨0x100208, [(16, 16)], 14, 1, .rwl, 0, []⟩
def HIF_CPL_MOD_COUNT : FieldRow := ⟨0x100208, [(16, 16)], 16, 16, .rwl, 1, [(1, 65535)]⟩
-- HIF_CPLi_MOD at 0x10020c (array)
def HIF_CPL_MOD_NS : FieldRow := ⟨0x10020c, [(16, 16)], 0, 20, .rwl, 0, [(0, 1000000)]⟩
-- HIF_EVT_BASE_LO at 0x100300
def HIF_EVT_ADDR_LO : FieldRow := ⟨0x100300, [], 12, 20, .rwl, 0, []⟩
-- HIF_EVT_BASE_HI at 0x100304
def HIF_EVT_ADDR_HI : FieldRow := ⟨0x100304, [], 0, 32, .rwl, 0, []⟩
-- HIF_EVT_CTRL at 0x100308
def HIF_EVT_EN : FieldRow := ⟨0x100308, [], 0, 1, .rwl, 0, []⟩
def HIF_EVT_LOG2 : FieldRow := ⟨0x100308, [], 1, 5, .rwl, 0, [(4, 16)]⟩
def HIF_EVT_VECTOR : FieldRow := ⟨0x100308, [], 8, 6, .rwl, 0, []⟩
def HIF_EVT_IRQ_EN : FieldRow := ⟨0x100308, [], 14, 1, .rwl, 0, []⟩
def HIF_EVT_MOD_COUNT : FieldRow := ⟨0x100308, [], 16, 16, .rwl, 1, [(1, 65535)]⟩
-- HIF_EVT_MOD at 0x10030c
def HIF_EVT_MOD_NS : FieldRow := ⟨0x10030c, [], 0, 20, .rwl, 0, [(0, 1000000)]⟩
-- HIF_RDOk_BASE_LO at 0x100400 (array)
def HIF_RDO_ADDR_LO : FieldRow := ⟨0x100400, [(16, 32)], 12, 20, .rwl, 0, []⟩
-- HIF_RDOk_BASE_HI at 0x100404 (array)
def HIF_RDO_ADDR_HI : FieldRow := ⟨0x100404, [(16, 32)], 0, 32, .rwl, 0, []⟩
-- HIF_RDOk_CTRL at 0x100408 (array)
def HIF_RDO_EN : FieldRow := ⟨0x100408, [(16, 32)], 0, 1, .rwl, 0, []⟩
def HIF_RDO_LOG2 : FieldRow := ⟨0x100408, [(16, 32)], 1, 5, .rwl, 0, [(16, 30)]⟩
def HIF_RDO_VECTOR : FieldRow := ⟨0x100408, [(16, 32)], 8, 6, .rwl, 0, []⟩
def HIF_RDO_IRQ_EN : FieldRow := ⟨0x100408, [(16, 32)], 14, 1, .rwl, 0, []⟩
def HIF_RDO_MOD_COUNT : FieldRow := ⟨0x100408, [(16, 32)], 16, 16, .rwl, 1, [(1, 65535)]⟩
-- HIF_RDOk_MOD at 0x10040c (array)
def HIF_RDO_MOD_NS : FieldRow := ⟨0x10040c, [(16, 32)], 0, 20, .rwl, 0, [(0, 1000000)]⟩
-- HIF_WINw_BASE_LO at 0x100600 (array)
def HIF_WIN_ADDR_LO : FieldRow := ⟨0x100600, [(16, 16)], 12, 20, .rwl, 0, []⟩
-- HIF_WINw_BASE_HI at 0x100604 (array)
def HIF_WIN_ADDR_HI : FieldRow := ⟨0x100604, [(16, 16)], 0, 32, .rwl, 0, []⟩
-- HIF_WINw_SIZE at 0x100608 (array)
def HIF_WIN_PAGES : FieldRow := ⟨0x100608, [(16, 16)], 0, 32, .rwl, 0, []⟩
-- HIF_WINw_ACC at 0x10060c (array)
def HIF_WIN_RD : FieldRow := ⟨0x10060c, [(16, 16)], 0, 1, .rwl, 0, []⟩
def HIF_WIN_WR : FieldRow := ⟨0x10060c, [(16, 16)], 1, 1, .rwl, 0, []⟩

/-- The fields of block HIF. -/
def hifRows : List FieldRow :=
  [HIF_POLL_EN, HIF_LINK_RATE, HIF_LINK_WIDTH, HIF_DSTATE, HIF_PME_PENDING, HIF_CFG_ERR, HIF_POLL_NS, HIF_RTT_LAST, HIF_RTT_MAX, HIF_DB_ADDR_LO, HIF_DB_ADDR_HI, HIF_WB_ADDR_LO] ++
  [HIF_WB_ADDR_HI, HIF_WAKE_RXG, HIF_WAKE_ACC, HIF_WAKE_ALARM, HIF_WAKE_MON, HIF_WAKE_SRC, HIF_WAKE_GRP, HIF_WAKE_SUPERSEDED, HIF_WAKE_VALID, HIF_WIN_COUNT, HIF_LOST_COUNT, HIF_EVT_MASK] ++
  [HIF_CMD_ADDR_LO, HIF_CMD_ADDR_HI, HIF_CMD_EN, HIF_CMD_LOG2, HIF_CMD_STALL, HIF_CMD_WAIT_CPL, HIF_CMD_WAIT_TW, HIF_CMD_INFLIGHT, HIF_CPL_ADDR_LO, HIF_CPL_ADDR_HI, HIF_CPL_EN, HIF_CPL_LOG2] ++
  [HIF_CPL_VECTOR, HIF_CPL_IRQ_EN, HIF_CPL_MOD_COUNT, HIF_CPL_MOD_NS, HIF_EVT_ADDR_LO, HIF_EVT_ADDR_HI, HIF_EVT_EN, HIF_EVT_LOG2, HIF_EVT_VECTOR, HIF_EVT_IRQ_EN, HIF_EVT_MOD_COUNT, HIF_EVT_MOD_NS] ++
  [HIF_RDO_ADDR_LO, HIF_RDO_ADDR_HI, HIF_RDO_EN, HIF_RDO_LOG2, HIF_RDO_VECTOR, HIF_RDO_IRQ_EN, HIF_RDO_MOD_COUNT, HIF_RDO_MOD_NS, HIF_WIN_ADDR_LO, HIF_WIN_ADDR_HI, HIF_WIN_PAGES, HIF_WIN_RD] ++
  [HIF_WIN_WR]

/-! ### CFG: configuration loading (chapter 07) -/

-- CFG_CTRL at 0x200000
def CFG_PORT_EN : FieldRow := ⟨0x200000, [], 0, 1, .rwl, 1, []⟩
def CFG_REL_LEAD : FieldRow := ⟨0x200000, [], 8, 8, .rwl, 2, [(1, 255)]⟩
-- CFG_STATUS at 0x200004
def CFG_LOADER : FieldRow := ⟨0x200004, [], 0, 2, .ro, 0, []⟩
def CFG_STREAM_ACTIVE : FieldRow := ⟨0x200004, [], 2, 1, .ro, 0, []⟩
def CFG_SELECTED : FieldRow := ⟨0x200004, [], 3, 1, .ro, 0, []⟩
def CFG_DONE_LOW : FieldRow := ⟨0x200004, [], 4, 1, .ro, 0, []⟩
def CFG_GAP : FieldRow := ⟨0x200004, [], 5, 1, .ro, 0, []⟩
-- CFG_ADDR at 0x200008
def CFG_ADDRESS : FieldRow := ⟨0x200008, [], 0, 12, .ro, 0, []⟩
def CFG_ADDR_PINS : FieldRow := ⟨0x200008, [], 12, 1, .ro, 0, []⟩
-- CFG_REGION_STATE at 0x20000c
def CFG_REG_STATES : FieldRow := ⟨0x20000c, [], 0, 16, .ro, 0, []⟩
-- CFG_LOAD_RESULT at 0x200010
def CFG_RES_STATUS : FieldRow := ⟨0x200010, [], 0, 8, .ro, 0, []⟩
def CFG_RES_ADM : FieldRow := ⟨0x200010, [], 8, 8, .ro, 0, []⟩
def CFG_RES_CHECK : FieldRow := ⟨0x200010, [], 16, 4, .ro, 0, []⟩
def CFG_RES_SRC : FieldRow := ⟨0x200010, [], 20, 1, .ro, 0, []⟩
def CFG_RES_PARTIAL : FieldRow := ⟨0x200010, [], 21, 1, .ro, 0, []⟩
def CFG_RES_REGION : FieldRow := ⟨0x200010, [], 22, 3, .ro, 0, []⟩
def CFG_RES_VALID : FieldRow := ⟨0x200010, [], 25, 1, .ro, 0, []⟩
-- CFG_LOAD_DETAIL at 0x200014
def CFG_DET_BILLET : FieldRow := ⟨0x200014, [], 0, 10, .ro, 0, []⟩
def CFG_DET_SPINDLE : FieldRow := ⟨0x200014, [], 10, 6, .ro, 0, []⟩
def CFG_DET_INDEX : FieldRow := ⟨0x200014, [], 16, 9, .ro, 0, []⟩
def CFG_DET_HAS_BILLET : FieldRow := ⟨0x200014, [], 25, 1, .ro, 0, []⟩
def CFG_DET_CONST : FieldRow := ⟨0x200014, [], 26, 1, .ro, 0, []⟩
-- CFG_LOAD_SECTION at 0x200018
def CFG_DET_SECTION : FieldRow := ⟨0x200018, [], 0, 12, .ro, 0, []⟩
def CFG_DET_HAS_SECTION : FieldRow := ⟨0x200018, [], 12, 1, .ro, 0, []⟩
-- CFG_SEQ_NEXT at 0x200020
def CFG_SEQ_EXPECT : FieldRow := ⟨0x200020, [], 0, 32, .ro, 0, []⟩
-- CFG_STREAM at 0x200024
def CFG_STREAM_ID : FieldRow := ⟨0x200024, [], 0, 16, .ro, 0, []⟩
-- CFG_RETRY_THRESH at 0x200028
def CFG_THRESH : FieldRow := ⟨0x200028, [], 0, 16, .rw, 16, []⟩
-- CFG_RETRY at 0x20002c
def CFG_RETRY_SEG : FieldRow := ⟨0x20002c, [], 0, 16, .ro, 0, []⟩
def CFG_RETRY_MAX : FieldRow := ⟨0x20002c, [], 16, 16, .ro, 0, []⟩
-- CFG_NACK_TOTAL at 0x200030
def CFG_NACKS : FieldRow := ⟨0x200030, [], 0, 32, .rc, 0, []⟩
-- CFG_NACK_CAUSE at 0x200034
def CFG_CAUSE_CRC : FieldRow := ⟨0x200034, [], 0, 1, .rw1c, 0, []⟩
def CFG_CAUSE_GAP : FieldRow := ⟨0x200034, [], 1, 1, .rw1c, 0, []⟩
def CFG_CAUSE_BUSY : FieldRow := ⟨0x200034, [], 2, 1, .rw1c, 0, []⟩
-- CFG_REPEAT_SEEN at 0x200038
def CFG_REPEATS : FieldRow := ⟨0x200038, [], 0, 32, .rc, 0, []⟩
-- CFG_RELk_TICK_LO at 0x200100 (array)
def CFG_REL_TICK_L : FieldRow := ⟨0x200100, [(8, 8)], 0, 32, .ro, 0, []⟩
-- CFG_RELk_TICK_HI at 0x200104 (array)
def CFG_REL_TICK_H : FieldRow := ⟨0x200104, [(8, 8)], 0, 32, .ro, 0, []⟩

/-- The fields of block CFG. -/
def cfgRows : List FieldRow :=
  [CFG_PORT_EN, CFG_REL_LEAD, CFG_LOADER, CFG_STREAM_ACTIVE, CFG_SELECTED, CFG_DONE_LOW, CFG_GAP, CFG_ADDRESS, CFG_ADDR_PINS, CFG_REG_STATES, CFG_RES_STATUS, CFG_RES_ADM] ++
  [CFG_RES_CHECK, CFG_RES_SRC, CFG_RES_PARTIAL, CFG_RES_REGION, CFG_RES_VALID, CFG_DET_BILLET, CFG_DET_SPINDLE, CFG_DET_INDEX, CFG_DET_HAS_BILLET, CFG_DET_CONST, CFG_DET_SECTION, CFG_DET_HAS_SECTION] ++
  [CFG_SEQ_EXPECT, CFG_STREAM_ID, CFG_THRESH, CFG_RETRY_SEG, CFG_RETRY_MAX, CFG_NACKS, CFG_CAUSE_CRC, CFG_CAUSE_GAP, CFG_CAUSE_BUSY, CFG_REPEATS, CFG_REL_TICK_L, CFG_REL_TICK_H]

/-! ### FAB: fabric and tick (chapter 06 and 05 (FAB_CATCH_POLICY)) -/

-- FAB_STATE at 0x300000
def FAB_STATE_CODE : FieldRow := ⟨0x300000, [], 0, 3, .ro, 0, []⟩
def FAB_HALT_KIND : FieldRow := ⟨0x300000, [], 3, 2, .ro, 0, []⟩
def FAB_LOCKED : FieldRow := ⟨0x300000, [], 5, 1, .ro, 0, []⟩
def FAB_START_PENDING : FieldRow := ⟨0x300000, [], 6, 1, .ro, 0, []⟩
def FAB_EPOCH_REACHED : FieldRow := ⟨0x300000, [], 7, 1, .ro, 0, []⟩
-- FAB_CTRL at 0x300004
def FAB_VETO_STAT_EN : FieldRow := ⟨0x300004, [], 0, 1, .rwl, 0, []⟩
def FAB_BUSY_STAT_EN : FieldRow := ⟨0x300004, [], 1, 1, .rwl, 0, []⟩
-- FAB_TICK_STEPS at 0x300008
def FAB_N : FieldRow := ⟨0x300008, [], 0, 21, .rwl, 80, []⟩
-- FAB_TICK_PERIOD_LO at 0x300010
def FAB_T_FRAC : FieldRow := ⟨0x300010, [], 0, 32, .rwl, 0, []⟩
-- FAB_TICK_PERIOD_HI at 0x300014
def FAB_T_NS : FieldRow := ⟨0x300014, [], 0, 22, .rwl, 40, []⟩
-- FAB_EPOCH_NS at 0x300018
def FAB_EPOCH_NSEC : FieldRow := ⟨0x300018, [], 0, 30, .rwl, 0, [(0, 999999999)]⟩
-- FAB_EPOCH_SEC_LO at 0x300020
def FAB_EPOCH_SEC_L : FieldRow := ⟨0x300020, [], 0, 32, .rwl, 0, []⟩
-- FAB_EPOCH_SEC_HI at 0x300024
def FAB_EPOCH_SEC_H : FieldRow := ⟨0x300024, [], 0, 16, .rwl, 0, []⟩
-- FAB_START_LEAD at 0x300028
def FAB_LEAD : FieldRow := ⟨0x300028, [], 0, 16, .rwl, 16, [(2, 65535)]⟩
-- FAB_TICK_LO at 0x300030
def FAB_TICK_L : FieldRow := ⟨0x300030, [], 0, 32, .ro, 0, []⟩
-- FAB_TICK_HI at 0x300034
def FAB_TICK_H : FieldRow := ⟨0x300034, [], 0, 32, .ro, 0, []⟩
-- FAB_PHASE at 0x300038
def FAB_PHASE_LAST : FieldRow := ⟨0x300038, [], 0, 16, .ro, 0, []⟩
def FAB_PHASE_MAX : FieldRow := ⟨0x300038, [], 16, 16, .ro, 0, []⟩
-- FAB_SLIP_COUNT at 0x30003c
def FAB_SLIPS : FieldRow := ⟨0x30003c, [], 0, 32, .rc, 0, []⟩
-- FAB_ADM_CTRL at 0x300040
def FAB_ADM_GUARD : FieldRow := ⟨0x300040, [], 0, 8, .rwl, 0, []⟩
def FAB_LANE_REQUIRE : FieldRow := ⟨0x300040, [], 8, 1, .rwl, 1, []⟩
-- FAB_ADM_RESULT at 0x300044
def FAB_ADM_CODE : FieldRow := ⟨0x300044, [], 0, 8, .ro, 0, []⟩
def FAB_ADM_DONE : FieldRow := ⟨0x300044, [], 8, 1, .ro, 0, []⟩
-- FAB_ADM_DETAIL at 0x300048
def FAB_ADM_INFO : FieldRow := ⟨0x300048, [], 0, 32, .ro, 0, []⟩
-- FAB_CATCH_POLICY at 0x300050
def FAB_POL_SEAL : FieldRow := ⟨0x300050, [], 2, 2, .ro, 0, []⟩
def FAB_POL_IMEM : FieldRow := ⟨0x300050, [], 4, 2, .rwl, 0, [(0, 2)]⟩
def FAB_POL_DMEM : FieldRow := ⟨0x300050, [], 6, 2, .rwl, 0, [(0, 2)]⟩
def FAB_POL_TABLE : FieldRow := ⟨0x300050, [], 8, 2, .rwl, 0, [(0, 2)]⟩
def FAB_POL_SLOT : FieldRow := ⟨0x300050, [], 10, 2, .rwl, 0, [(0, 2)]⟩
def FAB_POL_THERMAL : FieldRow := ⟨0x300050, [], 12, 2, .ro, 0, []⟩
def FAB_POL_PIN : FieldRow := ⟨0x300050, [], 14, 2, .rwl, 0, [(0, 1)]⟩
def FAB_POL_SW : FieldRow := ⟨0x300050, [], 16, 2, .rwl, 0, [(0, 1)]⟩
def FAB_POL_VERSION : FieldRow := ⟨0x300050, [], 18, 2, .rwl, 0, [(0, 1)]⟩
-- FAB_PWR_CONST0 at 0x300060
def FAB_PWR_LEAK : FieldRow := ⟨0x300060, [], 0, 10, .ro, 480, []⟩
def FAB_PWR_IOD : FieldRow := ⟨0x300060, [], 10, 10, .ro, 300, []⟩
def FAB_PWR_HBM : FieldRow := ⟨0x300060, [], 20, 10, .ro, 300, []⟩
-- FAB_PWR_CONST1 at 0x300064
def FAB_PWR_L50 : FieldRow := ⟨0x300064, [], 0, 8, .ro, 25, []⟩
def FAB_PWR_L25 : FieldRow := ⟨0x300064, [], 8, 8, .ro, 16, []⟩
def FAB_PWR_L12 : FieldRow := ⟨0x300064, [], 16, 8, .ro, 10, []⟩
def FAB_PWR_L6 : FieldRow := ⟨0x300064, [], 24, 8, .ro, 7, []⟩
-- FAB_PWR_EST at 0x300068
def FAB_PWR_ESTIMATE : FieldRow := ⟨0x300068, [], 0, 16, .ro, 0, []⟩
-- FAB_START_TICK_LO at 0x300070
def FAB_START_TICK_L : FieldRow := ⟨0x300070, [], 0, 32, .ro, 0, []⟩
-- FAB_START_TICK_HI at 0x300074
def FAB_START_TICK_H : FieldRow := ⟨0x300074, [], 0, 32, .ro, 0, []⟩
-- FAB_STOP_TICK_LO at 0x300078
def FAB_STOP_TICK_L : FieldRow := ⟨0x300078, [], 0, 32, .ro, 0, []⟩
-- FAB_STOP_TICK_HI at 0x30007c
def FAB_STOP_TICK_H : FieldRow := ⟨0x30007c, [], 0, 32, .ro, 0, []⟩
-- FAB_STAT_OUTj_LO at 0x300080 (array)
def FAB_STAT_OUT_L : FieldRow := ⟨0x300080, [(8, 8)], 0, 32, .ro, 0, []⟩
-- FAB_STAT_OUTj_HI at 0x300084 (array)
def FAB_STAT_OUT_H : FieldRow := ⟨0x300084, [(8, 8)], 0, 32, .ro, 0, []⟩
-- FAB_DBG_PAGE at 0x300100
def FAB_DBG_PAGE_SEL : FieldRow := ⟨0x300100, [], 0, 4, .rw, 0, []⟩
-- FAB_DBG_STATUS at 0x300104
def FAB_DBG_READ_ERR : FieldRow := ⟨0x300104, [], 0, 1, .rw1c, 0, []⟩
def FAB_DBG_STATE_ERR : FieldRow := ⟨0x300104, [], 1, 1, .rw1c, 0, []⟩
def FAB_DBG_RANGE_ERR : FieldRow := ⟨0x300104, [], 2, 1, .rw1c, 0, []⟩
def FAB_DBG_ERR_WORD : FieldRow := ⟨0x300104, [], 8, 22, .ro, 0, []⟩

/-- The fields of block FAB. -/
def fabRows : List FieldRow :=
  [FAB_STATE_CODE, FAB_HALT_KIND, FAB_LOCKED, FAB_START_PENDING, FAB_EPOCH_REACHED, FAB_VETO_STAT_EN, FAB_BUSY_STAT_EN, FAB_N, FAB_T_FRAC, FAB_T_NS, FAB_EPOCH_NSEC, FAB_EPOCH_SEC_L] ++
  [FAB_EPOCH_SEC_H, FAB_LEAD, FAB_TICK_L, FAB_TICK_H, FAB_PHASE_LAST, FAB_PHASE_MAX, FAB_SLIPS, FAB_ADM_GUARD, FAB_LANE_REQUIRE, FAB_ADM_CODE, FAB_ADM_DONE, FAB_ADM_INFO] ++
  [FAB_POL_SEAL, FAB_POL_IMEM, FAB_POL_DMEM, FAB_POL_TABLE, FAB_POL_SLOT, FAB_POL_THERMAL, FAB_POL_PIN, FAB_POL_SW, FAB_POL_VERSION, FAB_PWR_LEAK, FAB_PWR_IOD, FAB_PWR_HBM] ++
  [FAB_PWR_L50, FAB_PWR_L25, FAB_PWR_L12, FAB_PWR_L6, FAB_PWR_ESTIMATE, FAB_START_TICK_L, FAB_START_TICK_H, FAB_STOP_TICK_L, FAB_STOP_TICK_H, FAB_STAT_OUT_L, FAB_STAT_OUT_H, FAB_DBG_PAGE_SEL] ++
  [FAB_DBG_READ_ERR, FAB_DBG_STATE_ERR, FAB_DBG_RANGE_ERR, FAB_DBG_ERR_WORD]

/-! ### GRN: grain network (chapter 04) -/

-- GRN_CONST at 0x400000
def GRN_L1_DELAY : FieldRow := ⟨0x400000, [], 0, 4, .ro, 1, []⟩
def GRN_L4_DELAY : FieldRow := ⟨0x400000, [], 4, 4, .ro, 2, []⟩
def GRN_L16_DELAY : FieldRow := ⟨0x400000, [], 8, 4, .ro, 5, []⟩
def GRN_TURN : FieldRow := ⟨0x400000, [], 12, 4, .ro, 1, []⟩
def GRN_SEAM : FieldRow := ⟨0x400000, [], 16, 4, .ro, 3, []⟩
def GRN_INJECT : FieldRow := ⟨0x400000, [], 20, 4, .ro, 1, []⟩
def GRN_EJECT : FieldRow := ⟨0x400000, [], 24, 4, .ro, 1, []⟩
-- GRN_GRID at 0x400004
def GRN_COLS_PER_DIE : FieldRow := ⟨0x400004, [], 0, 4, .ro, 0, []⟩
def GRN_ROWS : FieldRow := ⟨0x400004, [], 4, 6, .ro, 0, []⟩
def GRN_VCOLS : FieldRow := ⟨0x400004, [], 16, 8, .ro, 0, []⟩
-- GRN_SEAMS at 0x400008
def GRN_SEAM0 : FieldRow := ⟨0x400008, [], 0, 8, .ro, 0, []⟩
def GRN_SEAM1 : FieldRow := ⟨0x400008, [], 8, 8, .ro, 0, []⟩
def GRN_SEAM2 : FieldRow := ⟨0x400008, [], 16, 8, .ro, 0, []⟩
-- GRN_TBL_CTRL at 0x400010
def GRN_TBL_PATROL_EN : FieldRow := ⟨0x400010, [], 0, 1, .rwl, 1, []⟩
def GRN_TBL_WRITE_LEAD : FieldRow := ⟨0x400010, [], 8, 8, .rwl, 2, [(1, 255)]⟩
-- GRN_TBL_PENDING at 0x400014
def GRN_TBL_WAITING : FieldRow := ⟨0x400014, [], 0, 5, .ro, 0, []⟩
-- GRN_TBL_APPLIED_LO at 0x400018
def GRN_TBL_APPLIED_L : FieldRow := ⟨0x400018, [], 0, 32, .ro, 0, []⟩
-- GRN_TBL_APPLIED_HI at 0x40001c
def GRN_TBL_APPLIED_H : FieldRow := ⟨0x40001c, [], 0, 32, .ro, 0, []⟩
-- GRN_TBL_LAST_TICK_LO at 0x400020
def GRN_TBL_LAST_TICK_L : FieldRow := ⟨0x400020, [], 0, 32, .ro, 0, []⟩
-- GRN_TBL_LAST_TICK_HI at 0x400024
def GRN_TBL_LAST_TICK_H : FieldRow := ⟨0x400024, [], 0, 32, .ro, 0, []⟩
-- GRN_TBL_CE at 0x400028
def GRN_TBL_CE_COUNT : FieldRow := ⟨0x400028, [], 0, 32, .ro, 0, []⟩
-- GRN_SLOT_CATCH at 0x40002c
def GRN_SLOT_CATCH_COUNT : FieldRow := ⟨0x40002c, [], 0, 32, .rc, 0, []⟩
-- GRN_SLOT_PARITY at 0x400030
def GRN_SLOT_PARITY_COUNT : FieldRow := ⟨0x400030, [], 0, 32, .rc, 0, []⟩

/-- The fields of block GRN. -/
def grnRows : List FieldRow :=
  [GRN_L1_DELAY, GRN_L4_DELAY, GRN_L16_DELAY, GRN_TURN, GRN_SEAM, GRN_INJECT, GRN_EJECT, GRN_COLS_PER_DIE, GRN_ROWS, GRN_VCOLS, GRN_SEAM0, GRN_SEAM1] ++
  [GRN_SEAM2, GRN_TBL_PATROL_EN, GRN_TBL_WRITE_LEAD, GRN_TBL_WAITING, GRN_TBL_APPLIED_L, GRN_TBL_APPLIED_H, GRN_TBL_LAST_TICK_L, GRN_TBL_LAST_TICK_H, GRN_TBL_CE_COUNT, GRN_SLOT_CATCH_COUNT, GRN_SLOT_PARITY_COUNT]

/-! ### LNK: lanes (chapter 08) -/

-- LNK_RX_CTRLg at 0x500000 (array)
def LNK_RX_EN : FieldRow := ⟨0x500000, [(4, 16)], 0, 1, .rwl, 0, []⟩
def LNK_RX_RATE : FieldRow := ⟨0x500000, [(4, 16)], 1, 2, .rwl, 0, []⟩
def LNK_RX_LANE_EN : FieldRow := ⟨0x500000, [(4, 16)], 8, 8, .rwl, 0, []⟩
def LNK_RX_TM_EN : FieldRow := ⟨0x500000, [(4, 16)], 16, 1, .rwl, 0, []⟩
-- LNK_TX_CTRLg at 0x500040 (array)
def LNK_TX_EN : FieldRow := ⟨0x500040, [(4, 16)], 0, 1, .rwl, 0, []⟩
def LNK_TX_RATE : FieldRow := ⟨0x500040, [(4, 16)], 1, 2, .rwl, 0, []⟩
def LNK_TX_LANE_EN : FieldRow := ⟨0x500040, [(4, 16)], 8, 8, .rwl, 0, []⟩
def LNK_TX_TM_EN : FieldRow := ⟨0x500040, [(4, 16)], 16, 1, .rwl, 0, []⟩
-- LNK_TX_RDOm at 0x500080 (array)
def LNK_RDO_ASSIGN : FieldRow := ⟨0x500080, [(4, 4)], 0, 32, .rwl, 0, []⟩
-- LNK_PRE at 0x500090
def LNK_TP1_TIME : FieldRow := ⟨0x500090, [], 0, 16, .rwl, 20, [(1, 65535)]⟩
def LNK_TP2_TIME : FieldRow := ⟨0x500090, [], 16, 16, .rwl, 100, [(1, 65535)]⟩
-- LNK_TRAIN_CTRL at 0x500094
def LNK_RETRY_MAX : FieldRow := ⟨0x500094, [], 0, 8, .rwl, 0, []⟩
def LNK_LOSS_FRAMES : FieldRow := ⟨0x500094, [], 8, 8, .rwl, 64, [(4, 255)]⟩
-- LNK_EVT_HOLDOFF at 0x500098
def LNK_HOLDOFF : FieldRow := ⟨0x500098, [], 0, 16, .rw, 1000, []⟩
-- LNK_RX_STATEn at 0x500100 (array)
def LNK_RX_STATE : FieldRow := ⟨0x500100, [(4, 128)], 0, 3, .ro, 0, []⟩
def LNK_PAYLOAD_EN : FieldRow := ⟨0x500100, [(4, 128)], 3, 1, .ro, 0, []⟩
def LNK_RX_CAUSE : FieldRow := ⟨0x500100, [(4, 128)], 4, 4, .ro, 0, []⟩
def LNK_ATTEMPTS : FieldRow := ⟨0x500100, [(4, 128)], 8, 8, .ro, 0, []⟩
def LNK_HALT_SEEN : FieldRow := ⟨0x500100, [(4, 128)], 16, 1, .ro, 0, []⟩
def LNK_PEER_LANE : FieldRow := ⟨0x500100, [(4, 128)], 24, 7, .ro, 0, []⟩
def LNK_PEER_VALID : FieldRow := ⟨0x500100, [(4, 128)], 31, 1, .ro, 0, []⟩
-- LNK_RX_SMINn at 0x500300 (array)
def LNK_SMIN : FieldRow := ⟨0x500300, [(4, 128)], 0, 32, .ro, 0, []⟩
-- LNK_RX_SMAXn at 0x500500 (array)
def LNK_SMAX : FieldRow := ⟨0x500500, [(4, 128)], 0, 32, .ro, 0, []⟩
-- LNK_RX_ERRn at 0x500700 (array)
def LNK_ERR_CRC : FieldRow := ⟨0x500700, [(4, 128)], 0, 8, .rc, 0, []⟩
def LNK_ERR_SYNC : FieldRow := ⟨0x500700, [(4, 128)], 8, 8, .rc, 0, []⟩
def LNK_ERR_ORDER : FieldRow := ⟨0x500700, [(4, 128)], 16, 8, .rc, 0, []⟩
def LNK_ERR_STUFF : FieldRow := ⟨0x500700, [(4, 128)], 24, 8, .rc, 0, []⟩
-- LNK_RX_PEERn at 0x500900 (array)
def LNK_PEER_IDENT : FieldRow := ⟨0x500900, [(4, 128)], 0, 32, .ro, 0, []⟩
-- LNK_TX_STATEn at 0x500b00 (array)
def LNK_TX_STATE : FieldRow := ⟨0x500b00, [(4, 128)], 0, 3, .ro, 0, []⟩
def LNK_TX_RDO : FieldRow := ⟨0x500b00, [(4, 128)], 3, 1, .ro, 0, []⟩
def LNK_TX_HALT : FieldRow := ⟨0x500b00, [(4, 128)], 4, 1, .ro, 0, []⟩
def LNK_TX_CAUSE : FieldRow := ⟨0x500b00, [(4, 128)], 8, 4, .ro, 0, []⟩

/-- The fields of block LNK. -/
def lnkRows : List FieldRow :=
  [LNK_RX_EN, LNK_RX_RATE, LNK_RX_LANE_EN, LNK_RX_TM_EN, LNK_TX_EN, LNK_TX_RATE, LNK_TX_LANE_EN, LNK_TX_TM_EN, LNK_RDO_ASSIGN, LNK_TP1_TIME, LNK_TP2_TIME, LNK_RETRY_MAX] ++
  [LNK_LOSS_FRAMES, LNK_HOLDOFF, LNK_RX_STATE, LNK_PAYLOAD_EN, LNK_RX_CAUSE, LNK_ATTEMPTS, LNK_HALT_SEEN, LNK_PEER_LANE, LNK_PEER_VALID, LNK_SMIN, LNK_SMAX, LNK_ERR_CRC] ++
  [LNK_ERR_SYNC, LNK_ERR_ORDER, LNK_ERR_STUFF, LNK_PEER_IDENT, LNK_TX_STATE, LNK_TX_RDO, LNK_TX_HALT, LNK_TX_CAUSE]

/-! ### HIS: history (chapter 09) -/

-- HIS_CTRL at 0x600000
def HIS_CAP_RESERVE : FieldRow := ⟨0x600000, [], 0, 1, .rwl, 0, []⟩
def HIS_ACCEPT_IN_EN : FieldRow := ⟨0x600000, [], 1, 1, .rwl, 0, []⟩
-- HIS_LAYOUT at 0x600004
def HIS_K : FieldRow := ⟨0x600004, [], 0, 14, .ro, 0, []⟩
def HIS_H : FieldRow := ⟨0x600004, [], 14, 12, .ro, 0, []⟩
-- HIS_HW_BASE at 0x600008
def HIS_HW_FIRST : FieldRow := ⟨0x600008, [], 0, 20, .rwl, 0, []⟩
-- HIS_HW_PAGES at 0x60000c
def HIS_HW_COUNT : FieldRow := ⟨0x60000c, [], 0, 20, .rwl, 0, []⟩
-- HIS_PIN_PAGES at 0x600010
def HIS_PIN_COUNT : FieldRow := ⟨0x600010, [], 0, 20, .rwl, 4096, []⟩
-- HIS_RET_TICKS at 0x600014
def HIS_RET : FieldRow := ⟨0x600014, [], 0, 32, .rwl, 250000, [(1, 4294967295)]⟩
-- HIS_SPILL_SHARE at 0x600018
def HIS_SPILL : FieldRow := ⟨0x600018, [], 0, 10, .rwl, 250, [(1, 1000)]⟩
-- HIS_EXT_LIMIT at 0x60001c
def HIS_EXT_MAX : FieldRow := ⟨0x60001c, [], 0, 11, .rwl, 0, [(0, 1024)]⟩
-- HIS_EXT_ACC at 0x600020
def HIS_EXT_DELTA : FieldRow := ⟨0x600020, [], 0, 16, .rwl, 0, []⟩
def HIS_EXT_PRIO : FieldRow := ⟨0x600020, [], 16, 3, .rwl, 0, []⟩
def HIS_EXT_TAG : FieldRow := ⟨0x600020, [], 24, 8, .rwl, 0, []⟩
-- HIS_EXT_WIN at 0x600024
def HIS_EXT_BEFORE : FieldRow := ⟨0x600024, [], 0, 12, .rwl, 0, []⟩
def HIS_EXT_AFTER : FieldRow := ⟨0x600024, [], 16, 12, .rwl, 0, []⟩
-- HIS_PG_FREE at 0x600030
def HIS_PG_FREE_COUNT : FieldRow := ⟨0x600030, [], 0, 20, .ro, 0, []⟩
-- HIS_PG_RETAINED at 0x600034
def HIS_PG_RETAINED_COUNT : FieldRow := ⟨0x600034, [], 0, 20, .ro, 0, []⟩
-- HIS_PG_PINNED at 0x600038
def HIS_PG_PINNED_COUNT : FieldRow := ⟨0x600038, [], 0, 20, .ro, 0, []⟩
-- HIS_PG_TRANSIT at 0x60003c
def HIS_PG_FILLING : FieldRow := ⟨0x60003c, [], 0, 11, .ro, 0, []⟩
def HIS_PG_INFLIGHT : FieldRow := ⟨0x60003c, [], 16, 11, .ro, 0, []⟩
-- HIS_ACC_QUEUE at 0x600040
def HIS_ACC_USED : FieldRow := ⟨0x600040, [], 0, 11, .ro, 0, []⟩
def HIS_ACC_MAX : FieldRow := ⟨0x600040, [], 11, 11, .ro, 0, []⟩
def HIS_ACC_FULL : FieldRow := ⟨0x600040, [], 22, 1, .ro, 0, []⟩
-- HIS_ACC_REFUSED at 0x600044
def HIS_REF_EXT : FieldRow := ⟨0x600044, [], 0, 16, .rc, 0, []⟩
def HIS_REF_BLANK : FieldRow := ⟨0x600044, [], 16, 16, .rc, 0, []⟩
-- HIS_ACC_TAKEN_LO at 0x600048
def HIS_ACC_TAKEN_L : FieldRow := ⟨0x600048, [], 0, 32, .ro, 0, []⟩
-- HIS_ACC_TAKEN_HI at 0x60004c
def HIS_ACC_TAKEN_H : FieldRow := ⟨0x60004c, [], 0, 32, .ro, 0, []⟩
-- HIS_LOSS at 0x600050
def HIS_LATE : FieldRow := ⟨0x600050, [], 0, 16, .rc, 0, []⟩
def HIS_EARLY : FieldRow := ⟨0x600050, [], 16, 16, .rc, 0, []⟩
-- HIS_ABSENT at 0x600054
def HIS_ABSENT_TICKS : FieldRow := ⟨0x600054, [], 0, 32, .rc, 0, []⟩

/-- The fields of block HIS. -/
def hisRows : List FieldRow :=
  [HIS_CAP_RESERVE, HIS_ACCEPT_IN_EN, HIS_K, HIS_H, HIS_HW_FIRST, HIS_HW_COUNT, HIS_PIN_COUNT, HIS_RET, HIS_SPILL, HIS_EXT_MAX, HIS_EXT_DELTA, HIS_EXT_PRIO] ++
  [HIS_EXT_TAG, HIS_EXT_BEFORE, HIS_EXT_AFTER, HIS_PG_FREE_COUNT, HIS_PG_RETAINED_COUNT, HIS_PG_PINNED_COUNT, HIS_PG_FILLING, HIS_PG_INFLIGHT, HIS_ACC_USED, HIS_ACC_MAX, HIS_ACC_FULL, HIS_REF_EXT] ++
  [HIS_REF_BLANK, HIS_ACC_TAKEN_L, HIS_ACC_TAKEN_H, HIS_LATE, HIS_EARLY, HIS_ABSENT_TICKS]

/-! ### RDO: readout (chapter 09) -/

-- RDO_CTRL at 0x700000
def RDO_RHO : FieldRow := ⟨0x700000, [], 0, 8, .rwl, 90, [(1, 100)]⟩
def RDO_TRACE_STALL : FieldRow := ⟨0x700000, [], 8, 1, .rwl, 0, []⟩
-- RDO_AGE at 0x700004
def RDO_AGE_US : FieldRow := ⟨0x700004, [], 0, 16, .rwl, 100, []⟩
-- RDO_TASK_TIMEOUT at 0x700008
def RDO_TIMEOUT_US : FieldRow := ⟨0x700008, [], 0, 16, .rwl, 1000, [(1, 65535)]⟩
-- RDO_GRAPH at 0x70000c
def RDO_NODES : FieldRow := ⟨0x70000c, [], 0, 9, .ro, 0, []⟩
def RDO_GRAPH_VALID : FieldRow := ⟨0x70000c, [], 9, 1, .ro, 0, []⟩
-- RDO_GRAPH_COST at 0x700010
def RDO_COST : FieldRow := ⟨0x700010, [], 0, 32, .ro, 0, []⟩
-- RDO_INST at 0x700014
def RDO_INST_NOW : FieldRow := ⟨0x700014, [], 0, 9, .ro, 0, []⟩
def RDO_INST_MAX : FieldRow := ⟨0x700014, [], 16, 9, .ro, 0, []⟩
-- RDO_PARKED at 0x700018
def RDO_PARK_NOW : FieldRow := ⟨0x700018, [], 0, 17, .ro, 0, []⟩
-- RDO_CORE_IDLE at 0x70001c
def RDO_IDLE : FieldRow := ⟨0x70001c, [], 0, 32, .ro, 0, []⟩
-- RDO_TASK_ERR at 0x700020
def RDO_TIMEOUTS : FieldRow := ⟨0x700020, [], 0, 16, .rc, 0, []⟩
def RDO_ERRORS : FieldRow := ⟨0x700020, [], 16, 16, .rc, 0, []⟩
-- RDO_LVLk_DEPTH at 0x700100 (array)
def RDO_DEPTH_NOW : FieldRow := ⟨0x700100, [(16, 8)], 0, 13, .ro, 0, []⟩
def RDO_DEPTH_MAX : FieldRow := ⟨0x700100, [(16, 8)], 16, 13, .ro, 0, []⟩
-- RDO_LVLk_WAIT_MAX at 0x700104 (array)
def RDO_WAIT_MAX : FieldRow := ⟨0x700104, [(16, 8)], 0, 32, .rc, 0, []⟩
-- RDO_LVLk_WAIT_SUM at 0x700108 (array)
def RDO_WAIT_SUM : FieldRow := ⟨0x700108, [(16, 8)], 0, 32, .rc, 0, []⟩
-- RDO_LVLk_DISPATCHED at 0x70010c (array)
def RDO_DISPATCHED : FieldRow := ⟨0x70010c, [(16, 8)], 0, 32, .rc, 0, []⟩
-- RDO_COREj_BUSY at 0x700200 (array)
def RDO_BUSY_NS : FieldRow := ⟨0x700200, [(8, 32)], 0, 32, .rc, 0, []⟩
-- RDO_COREj_TASKS at 0x700204 (array)
def RDO_TASKS : FieldRow := ⟨0x700204, [(8, 32)], 0, 32, .rc, 0, []⟩

/-- The fields of block RDO. -/
def rdoRows : List FieldRow :=
  [RDO_RHO, RDO_TRACE_STALL, RDO_AGE_US, RDO_TIMEOUT_US, RDO_NODES, RDO_GRAPH_VALID, RDO_COST, RDO_INST_NOW, RDO_INST_MAX, RDO_PARK_NOW, RDO_IDLE, RDO_TIMEOUTS] ++
  [RDO_ERRORS, RDO_DEPTH_NOW, RDO_DEPTH_MAX, RDO_WAIT_MAX, RDO_WAIT_SUM, RDO_DISPATCHED, RDO_BUSY_NS, RDO_TASKS]

/-! ### CAP: capture (chapter 10) -/

-- CAP_TB_CTRL at 0x800000
def CAP_TB_DRV_EN : FieldRow := ⟨0x800000, [], 0, 8, .rwl, 0, []⟩
-- CAP_TB_DLY at 0x800004
def CAP_TB_DRV : FieldRow := ⟨0x800004, [], 0, 8, .rw, 0, []⟩
def CAP_TB_SMP : FieldRow := ⟨0x800004, [], 8, 8, .rw, 0, []⟩
-- CAP_TB_LAST at 0x800008
def CAP_TB_LINES : FieldRow := ⟨0x800008, [], 0, 8, .ro, 0, []⟩
-- CAP_TB_COUNT at 0x80000c
def CAP_TB_TRIGGERS : FieldRow := ⟨0x80000c, [], 0, 32, .rc, 0, []⟩
-- CAP_AREA at 0x800010
def CAP_AREA_BLOCKS : FieldRow := ⟨0x800010, [], 0, 18, .ro, 0, []⟩
def CAP_AREA_SLOTS : FieldRow := ⟨0x800010, [], 18, 13, .ro, 0, []⟩
-- CAP_Un_STATE at 0x800100 (array)
def CAP_STATE : FieldRow := ⟨0x800100, [(16, 16)], 0, 3, .ro, 0, []⟩
def CAP_SLOTS_HELD : FieldRow := ⟨0x800100, [(16, 16)], 3, 13, .ro, 0, []⟩
-- CAP_Un_SEGS at 0x800104 (array)
def CAP_SEG_COUNT : FieldRow := ⟨0x800104, [(16, 16)], 0, 32, .ro, 0, []⟩
-- CAP_Un_LOST at 0x800108 (array)
def CAP_LOST_COUNT : FieldRow := ⟨0x800108, [(16, 16)], 0, 32, .rc, 0, []⟩
-- CAP_Un_DEAD at 0x80010c (array)
def CAP_DEAD_MAX : FieldRow := ⟨0x80010c, [(16, 16)], 0, 32, .rc, 0, []⟩

/-- The fields of block CAP. -/
def capRows : List FieldRow :=
  [CAP_TB_DRV_EN, CAP_TB_DRV, CAP_TB_SMP, CAP_TB_LINES, CAP_TB_TRIGGERS, CAP_AREA_BLOCKS, CAP_AREA_SLOTS, CAP_STATE, CAP_SLOTS_HELD, CAP_SEG_COUNT, CAP_LOST_COUNT, CAP_DEAD_MAX]

/-! ### TRC: trace (chapter 10) -/

-- TRC_CTRL at 0x900000
def TRC_SINK : FieldRow := ⟨0x900000, [], 0, 1, .rwl, 0, []⟩
def TRC_RING : FieldRow := ⟨0x900000, [], 1, 5, .rwl, 0, []⟩
def TRC_STOP_DELAY : FieldRow := ⟨0x900000, [], 16, 16, .rwl, 0, []⟩
-- TRC_BUF_BASE at 0x900004
def TRC_BASE_MIB : FieldRow := ⟨0x900004, [], 0, 16, .rwl, 0, []⟩
-- TRC_BUF_SIZE at 0x900008
def TRC_SIZE_MIB : FieldRow := ⟨0x900008, [], 0, 13, .rwl, 16, [(16, 4096)]⟩
-- TRC_TRIG_SRC at 0x90000c
def TRC_TRIG_CAP : FieldRow := ⟨0x90000c, [], 0, 16, .rwl, 0, []⟩
def TRC_TRIG_TBUS : FieldRow := ⟨0x90000c, [], 16, 8, .rwl, 0, []⟩
def TRC_TRIG_CATCH : FieldRow := ⟨0x90000c, [], 24, 1, .rwl, 0, []⟩
-- TRC_STATUS at 0x900010
def TRC_STATE : FieldRow := ⟨0x900010, [], 0, 2, .ro, 0, []⟩
def TRC_AUTH : FieldRow := ⟨0x900010, [], 2, 1, .ro, 0, []⟩
def TRC_DRAINING : FieldRow := ⟨0x900010, [], 3, 1, .ro, 0, []⟩
-- TRC_MON_PERIOD at 0x900014
def TRC_MON_US : FieldRow := ⟨0x900014, [], 0, 16, .rwl, 1000, [(1, 65535)]⟩
-- TRC_WPTR_LO at 0x900018
def TRC_WPTR_L : FieldRow := ⟨0x900018, [], 0, 32, .ro, 0, []⟩
-- TRC_WPTR_HI at 0x90001c
def TRC_WPTR_H : FieldRow := ⟨0x90001c, [], 0, 32, .ro, 0, []⟩
-- TRC_TRIG_OFS_LO at 0x900020
def TRC_TRIG_OFS_L : FieldRow := ⟨0x900020, [], 0, 32, .ro, 0, []⟩
-- TRC_TRIG_OFS_HI at 0x900024
def TRC_TRIG_OFS_H : FieldRow := ⟨0x900024, [], 0, 32, .ro, 0, []⟩
-- TRC_LOSS at 0x900028
def TRC_DROPPED : FieldRow := ⟨0x900028, [], 0, 32, .rc, 0, []⟩
-- TRC_CHALk at 0x900040 (array)
def TRC_CHAL : FieldRow := ⟨0x900040, [(4, 8)], 0, 32, .ro, 0, []⟩
-- TRC_SRC_ENk at 0x900080 (array)
def TRC_SRC_EN : FieldRow := ⟨0x900080, [(4, 4)], 0, 32, .ro, 0, []⟩
-- TRC_FAB_MASKg_w at 0x900100 (array)
def TRC_FAB_MASK : FieldRow := ⟨0x900100, [(4, 256)], 0, 32, .rwl, 0, []⟩

/-- The fields of block TRC. -/
def trcRows : List FieldRow :=
  [TRC_SINK, TRC_RING, TRC_STOP_DELAY, TRC_BASE_MIB, TRC_SIZE_MIB, TRC_TRIG_CAP, TRC_TRIG_TBUS, TRC_TRIG_CATCH, TRC_STATE, TRC_AUTH, TRC_DRAINING, TRC_MON_US] ++
  [TRC_WPTR_L, TRC_WPTR_H, TRC_TRIG_OFS_L, TRC_TRIG_OFS_H, TRC_DROPPED, TRC_CHAL, TRC_SRC_EN, TRC_FAB_MASK]

/-! ### SEAL: sealed memory (chapter 11) -/

-- SEAL_CTRL at 0xa00000
def SEAL_ENC_EN : FieldRow := ⟨0xa00000, [], 0, 1, .rwl, 0, []⟩
def SEAL_ENC_FORCED : FieldRow := ⟨0xa00000, [], 1, 1, .ro, 0, []⟩
-- SEAL_STATUS at 0xa00004
def SEAL_STATE : FieldRow := ⟨0xa00004, [], 0, 2, .ro, 0, []⟩
def SEAL_KID_CUR : FieldRow := ⟨0xa00004, [], 2, 2, .ro, 0, []⟩
def SEAL_KID_LIVE : FieldRow := ⟨0xa00004, [], 4, 4, .ro, 0, []⟩
def SEAL_REKEY_BUSY : FieldRow := ⟨0xa00004, [], 8, 1, .ro, 0, []⟩
def SEAL_REKEY_RGN : FieldRow := ⟨0xa00004, [], 9, 4, .ro, 0, []⟩
def SEAL_SWEEP_BUSY : FieldRow := ⟨0xa00004, [], 13, 1, .ro, 0, []⟩
def SEAL_REKEY_WAIT : FieldRow := ⟨0xa00004, [], 14, 1, .ro, 0, []⟩
def SEAL_RGN_ERR : FieldRow := ⟨0xa00004, [], 15, 1, .ro, 0, []⟩
-- SEAL_CAUSE at 0xa00008
def SEAL_FAIL_CAUSE : FieldRow := ⟨0xa00008, [], 0, 3, .ro, 0, []⟩
def SEAL_FAIL_STACK : FieldRow := ⟨0xa00008, [], 3, 1, .ro, 0, []⟩
def SEAL_FAIL_LEVEL : FieldRow := ⟨0xa00008, [], 4, 3, .ro, 0, []⟩
def SEAL_FAIL_LINE : FieldRow := ⟨0xa00008, [], 7, 1, .ro, 0, []⟩
-- SEAL_FAIL_ADDR at 0xa0000c
def SEAL_FAIL_INDEX : FieldRow := ⟨0xa0000c, [], 0, 32, .ro, 0, []⟩
-- SEAL_SWEEP_RATE at 0xa00010
def SEAL_SWEEP_GBS : FieldRow := ⟨0xa00010, [], 0, 10, .rwl, 10, [(1, 1000)]⟩
-- SEAL_MAINT_SHARE at 0xa00014
def SEAL_MAINT_GBS : FieldRow := ⟨0xa00014, [], 0, 10, .rwl, 50, [(1, 1000)]⟩
-- SEAL_IDk_LINES at 0xa00020 (array)
def SEAL_ID_LINES : FieldRow := ⟨0xa00020, [(4, 4)], 0, 30, .ro, 0, []⟩
-- SEAL_MINOR_OVF at 0xa00030
def SEAL_OVF_COUNT : FieldRow := ⟨0xa00030, [], 0, 32, .rc, 0, []⟩
-- SEAL_REJECT at 0xa00034
def SEAL_REJ_COUNT : FieldRow := ⟨0xa00034, [], 0, 32, .rc, 0, []⟩
-- SEAL_REKEYS at 0xa00038
def SEAL_REKEY_COUNT : FieldRow := ⟨0xa00038, [], 0, 16, .ro, 0, []⟩
-- SEAL_RGN0_BASE at 0xa00100
def SEAL_BASE_MIB0 : FieldRow := ⟨0xa00100, [], 0, 16, .ro, 0, []⟩
-- SEAL_RGN0_SIZE at 0xa00104
def SEAL_SIZE_MIB0 : FieldRow := ⟨0xa00104, [], 0, 16, .ro, 1024, []⟩
def SEAL_INIT0 : FieldRow := ⟨0xa00104, [], 16, 5, .ro, 1, []⟩
-- SEAL_RGN1_BASE at 0xa00110
def SEAL_BASE_MIB1 : FieldRow := ⟨0xa00110, [], 0, 16, .ro, 1024, []⟩
-- SEAL_RGN1_SIZE at 0xa00114
def SEAL_SIZE_MIB1 : FieldRow := ⟨0xa00114, [], 0, 16, .ro, 256, []⟩
def SEAL_INIT1 : FieldRow := ⟨0xa00114, [], 16, 5, .ro, 4, []⟩
-- SEAL_RGNk_BASE at 0xa00120 (array)
def SEAL_BASE_MIB : FieldRow := ⟨0xa00120, [(16, 14)], 0, 16, .rwl, 0, []⟩
-- SEAL_RGNk_SIZE at 0xa00124 (array)
def SEAL_SIZE_MIB : FieldRow := ⟨0xa00124, [(16, 14)], 0, 16, .rwl, 0, []⟩
def SEAL_INIT : FieldRow := ⟨0xa00124, [(16, 14)], 16, 5, .rwl, 0, []⟩
-- SEAL_RGNk_USE_LO at 0xa00108 (array)
def SEAL_USE_L : FieldRow := ⟨0xa00108, [(16, 16)], 0, 32, .ro, 0, []⟩
-- SEAL_RGNk_USE_HI at 0xa0010c (array)
def SEAL_USE_H : FieldRow := ⟨0xa0010c, [(16, 16)], 0, 16, .ro, 0, []⟩

/-- The fields of block SEAL. -/
def sealRows : List FieldRow :=
  [SEAL_ENC_EN, SEAL_ENC_FORCED, SEAL_STATE, SEAL_KID_CUR, SEAL_KID_LIVE, SEAL_REKEY_BUSY, SEAL_REKEY_RGN, SEAL_SWEEP_BUSY, SEAL_REKEY_WAIT, SEAL_RGN_ERR, SEAL_FAIL_CAUSE, SEAL_FAIL_STACK] ++
  [SEAL_FAIL_LEVEL, SEAL_FAIL_LINE, SEAL_FAIL_INDEX, SEAL_SWEEP_GBS, SEAL_MAINT_GBS, SEAL_ID_LINES, SEAL_OVF_COUNT, SEAL_REJ_COUNT, SEAL_REKEY_COUNT, SEAL_BASE_MIB0, SEAL_SIZE_MIB0, SEAL_INIT0] ++
  [SEAL_BASE_MIB1, SEAL_SIZE_MIB1, SEAL_INIT1, SEAL_BASE_MIB, SEAL_SIZE_MIB, SEAL_INIT, SEAL_USE_L, SEAL_USE_H]

/-! ### TIM: time (chapter 12) -/

-- TIM_CTRL at 0xb00000
def TIM_MODE : FieldRow := ⟨0xb00000, [], 0, 2, .rwl, 0, [(0, 2)]⟩
def TIM_SRC : FieldRow := ⟨0xb00000, [], 2, 2, .rwl, 0, [(0, 2)]⟩
def TIM_STEP_EN : FieldRow := ⟨0xb00000, [], 4, 1, .rwl, 0, []⟩
def TIM_SRC_LANE : FieldRow := ⟨0xb00000, [], 6, 7, .rwl, 0, []⟩
-- TIM_STATUS at 0xb00004
def TIM_SRV_STATE : FieldRow := ⟨0xb00004, [], 0, 3, .ro, 0, []⟩
def TIM_AT_LIMIT : FieldRow := ⟨0xb00004, [], 3, 1, .ro, 0, []⟩
def TIM_SLEWING : FieldRow := ⟨0xb00004, [], 4, 1, .ro, 0, []⟩
-- TIM_NOW_FRAC at 0xb00008
def TIM_NOW_F : FieldRow := ⟨0xb00008, [], 0, 32, .ro, 0, []⟩
-- TIM_NOW_NS at 0xb0000c
def TIM_NOW_N : FieldRow := ⟨0xb0000c, [], 0, 30, .ro, 0, []⟩
-- TIM_NOW_SEC_LO at 0xb00010
def TIM_NOW_S_L : FieldRow := ⟨0xb00010, [], 0, 32, .ro, 0, []⟩
-- TIM_NOW_SEC_HI at 0xb00014
def TIM_NOW_S_H : FieldRow := ⟨0xb00014, [], 0, 16, .ro, 0, []⟩
-- TIM_INC_LO at 0xb00018
def TIM_INC_F : FieldRow := ⟨0xb00018, [], 0, 32, .ro, 0, []⟩
-- TIM_INC_HI at 0xb0001c
def TIM_INC_N : FieldRow := ⟨0xb0001c, [], 0, 4, .ro, 4, []⟩
-- TIM_INC_BASE_LO at 0xb00020
def TIM_BASE_F : FieldRow := ⟨0xb00020, [], 0, 32, .rwl, 0, []⟩
-- TIM_INC_BASE_HI at 0xb00024
def TIM_BASE_N : FieldRow := ⟨0xb00024, [], 0, 4, .rwl, 4, [(3, 4)]⟩
-- TIM_KP at 0xb00028
def TIM_KP_VAL : FieldRow := ⟨0xb00028, [], 0, 32, .rwl, 32768, []⟩
-- TIM_KI at 0xb0002c
def TIM_KI_VAL : FieldRow := ⟨0xb0002c, [], 0, 32, .rwl, 4096, []⟩
-- TIM_YMAX at 0xb00030
def TIM_YMAX_PPB : FieldRow := ⟨0xb00030, [], 0, 18, .rwl, 200000, [(1, 200000)]⟩
-- TIM_LOCK at 0xb00034
def TIM_LOCK_PS : FieldRow := ⟨0xb00034, [], 0, 16, .rwl, 2000, []⟩
-- TIM_STEP at 0xb00038
def TIM_STEP_NS : FieldRow := ⟨0xb00038, [], 0, 32, .rwl, 1000, []⟩
-- TIM_HOLD at 0xb0003c
def TIM_HOLD_MS : FieldRow := ⟨0xb0003c, [], 0, 16, .rwl, 3000, [(1, 65535)]⟩
-- TIM_SLEW at 0xb00040
def TIM_SLEW_PPB : FieldRow := ⟨0xb00040, [], 0, 18, .rw, 100000, [(1, 200000)]⟩
-- TIM_SW_DIV at 0xb00044
def TIM_SW_AVG : FieldRow := ⟨0xb00044, [], 0, 16, .rwl, 1, [(1, 65535)]⟩
-- TIM_OFFSET at 0xb00048
def TIM_THETA_PS : FieldRow := ⟨0xb00048, [], 0, 32, .ro, 0, []⟩
-- TIM_FREQ at 0xb0004c
def TIM_Y_PPB : FieldRow := ⟨0xb0004c, [], 0, 32, .ro, 0, []⟩
-- TIM_INTEG at 0xb00050
def TIM_I_PPB : FieldRow := ⟨0xb00050, [], 0, 32, .ro, 0, []⟩
-- TIM_ADJ_LEFT at 0xb00054
def TIM_LEFT_NS : FieldRow := ⟨0xb00054, [], 0, 32, .ro, 0, []⟩
-- TIM_TICK_OUT at 0xb00060
def TIM_TICK_EN : FieldRow := ⟨0xb00060, [], 0, 1, .rw, 0, []⟩
def TIM_TICK_WIDTH : FieldRow := ⟨0xb00060, [], 8, 8, .rw, 2, [(1, 255)]⟩
def TIM_TICK_DIV : FieldRow := ⟨0xb00060, [], 16, 16, .rw, 1, [(1, 65535)]⟩
-- TIM_PPS_OUT at 0xb00064
def TIM_PPSO_EN : FieldRow := ⟨0xb00064, [], 0, 1, .rw, 0, []⟩
def TIM_PPSO_WIDTH : FieldRow := ⟨0xb00064, [], 2, 10, .rw, 100, [(1, 999)]⟩
-- TIM_PPS_IN at 0xb00068
def TIM_PPSI_EN : FieldRow := ⟨0xb00068, [], 0, 1, .rw, 0, []⟩
def TIM_PPSI_WIN_US : FieldRow := ⟨0xb00068, [], 8, 24, .rw, 0, []⟩
-- TIM_PPS_IN_ING at 0xb0006c
def TIM_PPSI_ING_PS : FieldRow := ⟨0xb0006c, [], 0, 32, .rw, 0, []⟩
-- TIM_PPS_STAMP_NS at 0xb00070
def TIM_PPSI_N : FieldRow := ⟨0xb00070, [], 0, 30, .ro, 0, []⟩
-- TIM_PPS_STAMP_SEC at 0xb00074
def TIM_PPSI_S : FieldRow := ⟨0xb00074, [], 0, 32, .ro, 0, []⟩
-- TIM_ALARM_NS at 0xb00080
def TIM_ALARM_N : FieldRow := ⟨0xb00080, [], 0, 30, .rw, 0, []⟩
def TIM_ALARM_EN : FieldRow := ⟨0xb00080, [], 31, 1, .rw, 0, []⟩
-- TIM_ALARM_SEC_LO at 0xb00084
def TIM_ALARM_S_L : FieldRow := ⟨0xb00084, [], 0, 32, .rw, 0, []⟩
-- TIM_ALARM_SEC_HI at 0xb00088
def TIM_ALARM_S_H : FieldRow := ⟨0xb00088, [], 0, 16, .rw, 0, []⟩
-- TIM_LRX_INGg at 0xb00100 (array)
def TIM_LRX_ING_PS : FieldRow := ⟨0xb00100, [(4, 16)], 0, 32, .rw, 0, []⟩
-- TIM_LTX_TRIMg at 0xb00140 (array)
def TIM_LTX_TRIM_PS : FieldRow := ⟨0xb00140, [(4, 16)], 0, 16, .rw, 0, [(0, 2000), (63536, 65535)]⟩
-- TIM_LASYMg at 0xb00180 (array)
def TIM_LASYM_PS : FieldRow := ⟨0xb00180, [(4, 16)], 0, 32, .rw, 0, []⟩

/-- The fields of block TIM. -/
def timRows : List FieldRow :=
  [TIM_MODE, TIM_SRC, TIM_STEP_EN, TIM_SRC_LANE, TIM_SRV_STATE, TIM_AT_LIMIT, TIM_SLEWING, TIM_NOW_F, TIM_NOW_N, TIM_NOW_S_L, TIM_NOW_S_H, TIM_INC_F] ++
  [TIM_INC_N, TIM_BASE_F, TIM_BASE_N, TIM_KP_VAL, TIM_KI_VAL, TIM_YMAX_PPB, TIM_LOCK_PS, TIM_STEP_NS, TIM_HOLD_MS, TIM_SLEW_PPB, TIM_SW_AVG, TIM_THETA_PS] ++
  [TIM_Y_PPB, TIM_I_PPB, TIM_LEFT_NS, TIM_TICK_EN, TIM_TICK_WIDTH, TIM_TICK_DIV, TIM_PPSO_EN, TIM_PPSO_WIDTH, TIM_PPSI_EN, TIM_PPSI_WIN_US, TIM_PPSI_ING_PS, TIM_PPSI_N] ++
  [TIM_PPSI_S, TIM_ALARM_N, TIM_ALARM_EN, TIM_ALARM_S_L, TIM_ALARM_S_H, TIM_LRX_ING_PS, TIM_LTX_TRIM_PS, TIM_LASYM_PS]

/-! ### PTP: PTP ports (chapter 12) -/

-- PTP_CTRL at 0xc00000
def PTP_TC_EN : FieldRow := ⟨0xc00000, [], 0, 1, .rwl, 0, []⟩
def PTP_OC_EN : FieldRow := ⟨0xc00000, [], 1, 1, .rwl, 0, []⟩
def PTP_OC_PORT : FieldRow := ⟨0xc00000, [], 2, 1, .rwl, 0, []⟩
def PTP_TRANSPORT : FieldRow := ⟨0xc00000, [], 3, 1, .rwl, 0, []⟩
def PTP_RSFEC : FieldRow := ⟨0xc00000, [], 4, 2, .rwl, 0, []⟩
def PTP_DOMAIN : FieldRow := ⟨0xc00000, [], 8, 8, .rwl, 0, [(0, 127)]⟩
def PTP_ANN_TIMEOUT : FieldRow := ⟨0xc00000, [], 16, 4, .rwl, 3, [(2, 10)]⟩
def PTP_DELAY_AVG : FieldRow := ⟨0xc00000, [], 20, 8, .rwl, 0, []⟩
-- PTP_STATUS at 0xc00004
def PTP_OC_STATE : FieldRow := ⟨0xc00004, [], 0, 3, .ro, 0, []⟩
def PTP_LINK_UP : FieldRow := ⟨0xc00004, [], 3, 2, .ro, 0, []⟩
-- PTP_MAC_LO at 0xc00008
def PTP_MAC_A : FieldRow := ⟨0xc00008, [], 0, 32, .rwl, 0, []⟩
-- PTP_MAC_HI at 0xc0000c
def PTP_MAC_B : FieldRow := ⟨0xc0000c, [], 0, 16, .rwl, 0, []⟩
-- PTP_IPV4 at 0xc00010
def PTP_IP : FieldRow := ⟨0xc00010, [], 0, 32, .rwl, 0, []⟩
-- PTP_DELAY at 0xc00014
def PTP_DELAY_PS : FieldRow := ⟨0xc00014, [], 0, 32, .ro, 0, []⟩
-- PTP_UTC at 0xc00018
def PTP_UTC_OFS : FieldRow := ⟨0xc00018, [], 0, 16, .ro, 0, []⟩
def PTP_UTC_VALID : FieldRow := ⟨0xc00018, [], 16, 1, .ro, 0, []⟩
-- PTP_MASTER_LO at 0xc00020
def PTP_MASTER_ID_L : FieldRow := ⟨0xc00020, [], 0, 32, .ro, 0, []⟩
-- PTP_MASTER_HI at 0xc00024
def PTP_MASTER_ID_H : FieldRow := ⟨0xc00024, [], 0, 32, .ro, 0, []⟩
-- PTP_Pp_ING at 0xc00100 (array)
def PTP_ING_PS : FieldRow := ⟨0xc00100, [(32, 2)], 0, 32, .rw, 0, []⟩
-- PTP_Pp_EGR at 0xc00104 (array)
def PTP_EGR_PS : FieldRow := ⟨0xc00104, [(32, 2)], 0, 32, .rw, 0, []⟩
-- PTP_Pp_ASYM at 0xc00108 (array)
def PTP_ASYM_PS : FieldRow := ⟨0xc00108, [(32, 2)], 0, 32, .rw, 0, []⟩
-- PTP_Pp_CORR at 0xc0010c (array)
def PTP_CORR_COUNT : FieldRow := ⟨0xc0010c, [(32, 2)], 0, 32, .rc, 0, []⟩
-- PTP_Pp_TWOSTEP at 0xc00110 (array)
def PTP_TWOSTEP_COUNT : FieldRow := ⟨0xc00110, [(32, 2)], 0, 32, .rc, 0, []⟩
-- PTP_Pp_PASS at 0xc00114 (array)
def PTP_PASS_COUNT : FieldRow := ⟨0xc00114, [(32, 2)], 0, 32, .rc, 0, []⟩

/-- The fields of block PTP. -/
def ptpRows : List FieldRow :=
  [PTP_TC_EN, PTP_OC_EN, PTP_OC_PORT, PTP_TRANSPORT, PTP_RSFEC, PTP_DOMAIN, PTP_ANN_TIMEOUT, PTP_DELAY_AVG, PTP_OC_STATE, PTP_LINK_UP, PTP_MAC_A, PTP_MAC_B] ++
  [PTP_IP, PTP_DELAY_PS, PTP_UTC_OFS, PTP_UTC_VALID, PTP_MASTER_ID_L, PTP_MASTER_ID_H, PTP_ING_PS, PTP_EGR_PS, PTP_ASYM_PS, PTP_CORR_COUNT, PTP_TWOSTEP_COUNT, PTP_PASS_COUNT]

/-! ### SVN: service network (chapter 14) -/

-- SVN_CTRL at 0xd00000
def SVN_MODE : FieldRow := ⟨0xd00000, [], 0, 1, .rwl, 0, []⟩
-- SVN_STATUS at 0xd00004
def SVN_MODE_NOW : FieldRow := ⟨0xd00004, [], 0, 1, .ro, 0, []⟩
def SVN_SWITCHING : FieldRow := ⟨0xd00004, [], 1, 1, .ro, 0, []⟩
def SVN_ROUTE_ERR : FieldRow := ⟨0xd00004, [], 2, 1, .ro, 0, []⟩
-- SVN_TMO_CTRL at 0xd00008
def SVN_TMO_CTRL_US : FieldRow := ⟨0xd00008, [], 0, 20, .rwl, 1000, [(1, 1000000)]⟩
-- SVN_TMO_DATA at 0xd0000c
def SVN_TMO_DATA_US : FieldRow := ⟨0xd0000c, [], 0, 20, .rwl, 10000, [(1, 1000000)]⟩
-- SVN_TMO_COUNT at 0xd00010
def SVN_TMO_N : FieldRow := ⟨0xd00010, [], 0, 32, .rc, 0, []⟩
-- SVN_LATE_COUNT at 0xd00014
def SVN_LATE_N : FieldRow := ⟨0xd00014, [], 0, 32, .rc, 0, []⟩
-- SVN_PERR_LO at 0xd00018
def SVN_PERR_L : FieldRow := ⟨0xd00018, [], 0, 32, .rw1c, 0, []⟩
-- SVN_PERR_HI at 0xd0001c
def SVN_PERR_H : FieldRow := ⟨0xd0001c, [], 0, 32, .rw1c, 0, []⟩
-- SVN_EREC_STATUS at 0xd00020
def SVN_EREC_HELD : FieldRow := ⟨0xd00020, [], 0, 7, .ro, 0, []⟩
def SVN_EREC_OVF : FieldRow := ⟨0xd00020, [], 16, 16, .ro, 0, []⟩
-- SVN_EREC_CLEAR at 0xd00024
def SVN_EREC_CLR : FieldRow := ⟨0xd00024, [], 0, 1, .wo, 0, []⟩
-- SVN_CATCH_LOG at 0xd00028
def SVN_CATCH_HELD : FieldRow := ⟨0xd00028, [], 0, 9, .ro, 0, []⟩
def SVN_CATCH_OVF : FieldRow := ⟨0xd00028, [], 16, 16, .ro, 0, []⟩
-- SVN_FLIT_CE at 0xd0002c
def SVN_CE_N : FieldRow := ⟨0xd0002c, [], 0, 32, .rc, 0, []⟩
-- SVN_HALT at 0xd00030
def SVN_HALT_KIND : FieldRow := ⟨0xd00030, [], 0, 2, .ro, 0, []⟩
def SVN_HALT_CLASS : FieldRow := ⟨0xd00030, [], 2, 4, .ro, 0, []⟩
def SVN_HALT_PRE_EPOCH : FieldRow := ⟨0xd00030, [], 6, 1, .ro, 0, []⟩
-- SVN_HALT_TICK_LO at 0xd00038
def SVN_HALT_TICK_L : FieldRow := ⟨0xd00038, [], 0, 32, .ro, 0, []⟩
-- SVN_HALT_TICK_HI at 0xd0003c
def SVN_HALT_TICK_H : FieldRow := ⟨0xd0003c, [], 0, 32, .ro, 0, []⟩
-- SVN_ERECe_INFO at 0xd00200 (array)
def SVN_EREC_INIT : FieldRow := ⟨0xd00200, [(16, 64)], 0, 6, .ro, 0, []⟩
def SVN_EREC_TGT : FieldRow := ⟨0xd00200, [(16, 64)], 8, 6, .ro, 0, []⟩
def SVN_EREC_CAUSE : FieldRow := ⟨0xd00200, [(16, 64)], 16, 3, .ro, 0, []⟩
-- SVN_ERECe_ADDR_LO at 0xd00204 (array)
def SVN_EREC_ADDR_L : FieldRow := ⟨0xd00204, [(16, 64)], 0, 32, .ro, 0, []⟩
-- SVN_ERECe_ADDR_HI at 0xd00208 (array)
def SVN_EREC_ADDR_H : FieldRow := ⟨0xd00208, [(16, 64)], 0, 32, .ro, 0, []⟩
-- SVN_ERECe_TIME at 0xd0020c (array)
def SVN_EREC_NS : FieldRow := ⟨0xd0020c, [(16, 64)], 0, 30, .ro, 0, []⟩
-- SVN_NIn_ROUTEd at 0xd01000 (array)
def SVN_HOPS : FieldRow := ⟨0xd01000, [(32, 64), (4, 8)], 0, 16, .rwl, 0, []⟩
def SVN_HOP_COUNT : FieldRow := ⟨0xd01000, [(32, 64), (4, 8)], 16, 4, .rwl, 0, [(0, 8)]⟩

/-- The fields of block SVN. -/
def svnRows : List FieldRow :=
  [SVN_MODE, SVN_MODE_NOW, SVN_SWITCHING, SVN_ROUTE_ERR, SVN_TMO_CTRL_US, SVN_TMO_DATA_US, SVN_TMO_N, SVN_LATE_N, SVN_PERR_L, SVN_PERR_H, SVN_EREC_HELD, SVN_EREC_OVF] ++
  [SVN_EREC_CLR, SVN_CATCH_HELD, SVN_CATCH_OVF, SVN_CE_N, SVN_HALT_KIND, SVN_HALT_CLASS, SVN_HALT_PRE_EPOCH, SVN_HALT_TICK_L, SVN_HALT_TICK_H, SVN_EREC_INIT, SVN_EREC_TGT, SVN_EREC_CAUSE] ++
  [SVN_EREC_ADDR_L, SVN_EREC_ADDR_H, SVN_EREC_NS, SVN_HOPS, SVN_HOP_COUNT]

/-! ### MON: monitor ADC (chapter 15) -/

-- MON_CTRL at 0xe00000
def MON_SCAN_EN : FieldRow := ⟨0xe00000, [], 0, 1, .rw, 1, []⟩
def MON_PERIOD_US : FieldRow := ⟨0xe00000, [], 16, 16, .rw, 1000, []⟩
-- MON_SCAN_LO at 0xe00004
def MON_SCAN_MASK_L : FieldRow := ⟨0xe00004, [], 0, 32, .rw, 0, []⟩
-- MON_SCAN_HI at 0xe00008
def MON_SCAN_MASK_H : FieldRow := ⟨0xe00008, [], 0, 24, .rw, 16777215, []⟩
-- MON_CAL at 0xe0000c
def MON_CAL_MS : FieldRow := ⟨0xe0000c, [], 0, 16, .rw, 1000, []⟩
-- MON_OW_CTRL at 0xe00010
def MON_OW_THRESH : FieldRow := ⟨0xe00010, [], 0, 12, .rw, 256, []⟩
def MON_OW_SETTLE_US : FieldRow := ⟨0xe00010, [], 16, 8, .rw, 50, [(1, 255)]⟩
def MON_OW_SCANS : FieldRow := ⟨0xe00010, [], 24, 8, .rw, 10, [(1, 255)]⟩
-- MON_PULL_LO at 0xe00014
def MON_PULL_MODE_L : FieldRow := ⟨0xe00014, [], 0, 32, .rw, 0, []⟩
-- MON_PULL_HI at 0xe00018
def MON_PULL_MODE_H : FieldRow := ⟨0xe00018, [], 0, 32, .rw, 0, []⟩
-- MON_OW_STATUS at 0xe0001c
def MON_OW_OPEN : FieldRow := ⟨0xe0001c, [], 0, 32, .ro, 0, []⟩
-- MON_TWARN at 0xe00020
def MON_TWARN_CODE : FieldRow := ⟨0xe00020, [], 0, 12, .rw, 2240, []⟩
-- MON_STATUS at 0xe00024
def MON_CUR_CH : FieldRow := ⟨0xe00024, [], 0, 6, .ro, 0, []⟩
def MON_CALIBRATING : FieldRow := ⟨0xe00024, [], 6, 1, .ro, 0, []⟩
def MON_URGENT : FieldRow := ⟨0xe00024, [], 7, 1, .ro, 0, []⟩
def MON_CAL_VALID : FieldRow := ⟨0xe00024, [], 8, 1, .ro, 0, []⟩
-- MON_ALARM_LO at 0xe00028
def MON_ALARM_L : FieldRow := ⟨0xe00028, [], 0, 32, .rw1c, 0, []⟩
-- MON_ALARM_HI at 0xe0002c
def MON_ALARM_H : FieldRow := ⟨0xe0002c, [], 0, 24, .rw1c, 0, []⟩
-- MON_DATAn at 0xe00100 (array)
def MON_CODE : FieldRow := ⟨0xe00100, [(4, 56)], 0, 12, .ro, 0, []⟩
def MON_VALID : FieldRow := ⟨0xe00100, [(4, 56)], 12, 1, .ro, 0, []⟩
def MON_SEQ : FieldRow := ⟨0xe00100, [(4, 56)], 16, 16, .ro, 0, []⟩
-- MON_LIMITn at 0xe00200 (array)
def MON_LO : FieldRow := ⟨0xe00200, [(4, 56)], 0, 12, .rw, 0, []⟩
def MON_HI : FieldRow := ⟨0xe00200, [(4, 56)], 16, 12, .rw, 4095, []⟩
def MON_LIM_EN : FieldRow := ⟨0xe00200, [(4, 56)], 31, 1, .rw, 0, []⟩

/-- The fields of block MON. -/
def monRows : List FieldRow :=
  [MON_SCAN_EN, MON_PERIOD_US, MON_SCAN_MASK_L, MON_SCAN_MASK_H, MON_CAL_MS, MON_OW_THRESH, MON_OW_SETTLE_US, MON_OW_SCANS, MON_PULL_MODE_L, MON_PULL_MODE_H, MON_OW_OPEN, MON_TWARN_CODE] ++
  [MON_CUR_CH, MON_CALIBRATING, MON_URGENT, MON_CAL_VALID, MON_ALARM_L, MON_ALARM_H, MON_CODE, MON_VALID, MON_SEQ, MON_LO, MON_HI, MON_LIM_EN]

/-! ### OTP: persistent settings (chapter 15) -/

-- OTP_PRESENT at 0xf00000
def OTP_PRES : FieldRow := ⟨0xf00000, [], 0, 9, .ro, 0, []⟩
-- OTP_FROZEN at 0xf00004
def OTP_FRZ : FieldRow := ⟨0xf00004, [], 0, 9, .ro, 0, []⟩
-- OTP_GENk at 0xf00010 (array)
def OTP_GEN_IN_FORCE : FieldRow := ⟨0xf00010, [(4, 9)], 0, 2, .ro, 0, []⟩
def OTP_GEN_USED : FieldRow := ⟨0xf00010, [(4, 9)], 2, 3, .ro, 0, []⟩
def OTP_GEN_VALID : FieldRow := ⟨0xf00010, [(4, 9)], 5, 1, .ro, 0, []⟩
-- OTP_DATA at 0xf01000 (array)
def OTP_BYTES : FieldRow := ⟨0xf01000, [(4, 1024)], 0, 32, .ro, 0, []⟩

/-- The fields of block OTP. -/
def otpRows : List FieldRow :=
  [OTP_PRES, OTP_FRZ, OTP_GEN_IN_FORCE, OTP_GEN_USED, OTP_GEN_VALID, OTP_BYTES]

/-! ### HST: headstock (chapter 15) -/

-- HST_STATUS at 0x1000000
def HST_SOURCE : FieldRow := ⟨0x1000000, [], 0, 2, .ro, 0, []⟩
def HST_WAIT_HOST : FieldRow := ⟨0x1000000, [], 2, 1, .ro, 0, []⟩
def HST_BOOT_ERR : FieldRow := ⟨0x1000000, [], 3, 1, .ro, 0, []⟩
def HST_FLASH : FieldRow := ⟨0x1000000, [], 4, 1, .ro, 0, []⟩
def HST_FW_RUN : FieldRow := ⟨0x1000000, [], 5, 1, .ro, 0, []⟩
-- HST_FW_VER at 0x1000004
def HST_FW : FieldRow := ⟨0x1000004, [], 0, 32, .ro, 0, []⟩
-- HST_RT_VER at 0x1000008
def HST_RT : FieldRow := ⟨0x1000008, [], 0, 32, .ro, 0, []⟩
-- HST_IFACE at 0x100000c
def HST_HIV : FieldRow := ⟨0x100000c, [], 0, 16, .ro, 0, []⟩
def HST_HIV_REQ : FieldRow := ⟨0x100000c, [], 16, 16, .ro, 0, []⟩
-- HST_BOOT_ADDR_LO at 0x1000010
def HST_BOOT_ADDR_L : FieldRow := ⟨0x1000010, [], 0, 32, .rw, 0, []⟩
-- HST_BOOT_ADDR_HI at 0x1000014
def HST_BOOT_ADDR_H : FieldRow := ⟨0x1000014, [], 0, 32, .rw, 0, []⟩
-- HST_BOOT_LEN at 0x1000018
def HST_BOOT_BYTES : FieldRow := ⟨0x1000018, [], 0, 27, .rw, 0, [(0, 67108864)]⟩
-- HST_BOOT_CTRL at 0x100001c
def HST_BOOT_GO_F : FieldRow := ⟨0x100001c, [], 0, 1, .wo, 0, []⟩
-- HST_SELFTEST at 0x1000020
def HST_ST_RESULT : FieldRow := ⟨0x1000020, [], 0, 20, .ro, 0, []⟩

/-- The fields of block HST. -/
def hstRows : List FieldRow :=
  [HST_SOURCE, HST_WAIT_HOST, HST_BOOT_ERR, HST_FLASH, HST_FW_RUN, HST_FW, HST_RT, HST_HIV, HST_HIV_REQ, HST_BOOT_ADDR_L, HST_BOOT_ADDR_H, HST_BOOT_BYTES] ++
  [HST_BOOT_GO_F, HST_ST_RESULT]

/-! ### GIO: edge I/O cells (chapter 04) -/

-- GIO_CTRL at 0x1100000
def GIO_CORNER_EN : FieldRow := ⟨0x1100000, [], 0, 4, .rwl, 0, []⟩
-- GIO_LEVEL_LO at 0x1100008
def GIO_LEVEL_L : FieldRow := ⟨0x1100008, [], 0, 32, .ro, 0, []⟩
-- GIO_LEVEL_HI at 0x110000c
def GIO_LEVEL_H : FieldRow := ⟨0x110000c, [], 0, 32, .ro, 0, []⟩
-- GIO_CELL_CFGn at 0x1100100 (array)
def GIO_OE : FieldRow := ⟨0x1100100, [(4, 64)], 0, 1, .rwl, 0, []⟩
def GIO_MODE : FieldRow := ⟨0x1100100, [(4, 64)], 1, 1, .rwl, 0, []⟩
def GIO_SAFE : FieldRow := ⟨0x1100100, [(4, 64)], 2, 2, .rwl, 0, []⟩
def GIO_OFS : FieldRow := ⟨0x1100100, [(4, 64)], 4, 8, .rwl, 0, []⟩
def GIO_IDLY : FieldRow := ⟨0x1100100, [(4, 64)], 12, 7, .rw, 0, []⟩
def GIO_ODLY : FieldRow := ⟨0x1100100, [(4, 64)], 19, 7, .rw, 0, []⟩

/-- The fields of block GIO. -/
def gioRows : List FieldRow :=
  [GIO_CORNER_EN, GIO_LEVEL_L, GIO_LEVEL_H, GIO_OE, GIO_MODE, GIO_SAFE, GIO_OFS, GIO_IDLY, GIO_ODLY]

/-- The rows of the block that holds a BAR0 offset: each block occupies 1 MiB (R15). -/
def rowsOfBlock (blk : Nat) : List FieldRow :=
  match blk with
  | 0 => sysRows
  | 1 => hifRows
  | 2 => cfgRows
  | 3 => fabRows
  | 4 => grnRows
  | 5 => lnkRows
  | 6 => hisRows
  | 7 => rdoRows
  | 8 => capRows
  | 9 => trcRows
  | 10 => sealRows
  | 11 => timRows
  | 12 => ptpRows
  | 13 => svnRows
  | 14 => monRows
  | 15 => otpRows
  | 16 => hstRows
  | 17 => gioRows
  | _ => []

/-- The fields of the register at a BAR0 offset; none where no register table lists the offset (R11). -/
def rowsAt (off : Nat) : List FieldRow := (rowsOfBlock (off / 0x100000)).filter (fun f => f.hits off)

/-- The low word of each 64-bit quantity (R12, R13): its offset and its array. PTP_MAC_LO and PTP_MAC_HI, whose table does not
name R12, are two single registers (DESIGN CHOICE, log 19). -/
def pairLows : List (Nat × List (Nat × Nat)) :=
  [(0x300010, []), (0x300020, []), (0x300030, []), (0x300070, []), (0x300078, []), (0x300080, [(8, 8)]), (0x400018, []), (0x400020, [])] ++
  [(0x1100008, []), (0x200100, [(8, 8)]), (0x600048, []), (0x900018, []), (0x900020, []), (0xa00108, [(16, 16)]), (0xb00018, []), (0xb00020, [])] ++
  [(0xb00084, []), (0x100010, []), (0x100018, []), (0x100100, [(16, 16)]), (0x100200, [(16, 16)]), (0x100300, []), (0x100400, [(16, 32)]), (0x100600, [(16, 16)])] ++
  [(0xd00038, []), (0xd00204, [(16, 64)]), (0x20, []), (0x1000010, []), (0xc00020, [])]

/-- Is this the offset of the low word of a 64-bit quantity? -/
def isPairLow (off : Nat) : Bool := pairLows.any (fun p => decide (p.1 ≤ off) && dimsHit p.2 (off - p.1))

/-- Is this the offset of the high word of a 64-bit quantity? -/
def isPairHigh (off : Nat) : Bool := decide (4 ≤ off) && isPairLow (off - 4)

/-- The value of a register made of its fields' reset values. -/
def rowsReset : List FieldRow → Nat
  | [] => 0
  | f :: l => f.rst * 2 ^ f.lo + rowsReset l

end Sys2Proof.Machine
end

