-- ==== Sys2Proof/Machine/Digest.lean ====
section
/-!
DEFINITION. The SHA-2 hash functions the part uses: SHA-256 for blank digests and the debug key (R146, R318), SHA-512
inside Ed25519 (R318, R438).
-/
namespace Sys2Proof.Machine

/-- What distinguishes SHA-256 from SHA-512: the rotations of the two functions on a schedule word and of the two on
the state (a third entry of a schedule triple is a shift), the number of rounds, and the constants, several to a
number. -/
structure HashKind (w : Nat) where
  near : Nat × Nat × Nat
  far : Nat × Nat × Nat
  high : Nat × Nat × Nat
  low : Nat × Nat × Nat
  rounds : Nat
  table : List Nat
  start : Nat

/-- Word `i` of a table that packs 256 bits to a number, first word highest. -/
def packedWord (w : Nat) (t : List Nat) (i : Nat) : BitVec w :=
  let per := 256 / w
  BitVec.ofNat w (t.getD (i / per) 0 / 2 ^ (w * (per - 1 - i % per)))

/-- SHA-256: the constants are the first 32 fraction bits of the cube roots of the first 64 primes. -/
def kind256 : HashKind 32 where
  near := (7, 18, 3)
  far := (17, 19, 10)
  high := (6, 11, 25)
  low := (2, 13, 22)
  rounds := 64
  table :=
    [0x428a2f9871374491b5c0fbcfe9b5dba53956c25b59f111f1923f82a4ab1c5ed5,
     0xd807aa9812835b01243185be550c7dc372be5d7480deb1fe9bdc06a7c19bf174,
     0xe49b69c1efbe47860fc19dc6240ca1cc2de92c6f4a7484aa5cb0a9dc76f988da,
     0x983e5152a831c66db00327c8bf597fc7c6e00bf3d5a7914706ca635114292967,
     0x27b70a852e1b21384d2c6dfc53380d13650a7354766a0abb81c2c92e92722c85,
     0xa2bfe8a1a81a664bc24b8b70c76c51a3d192e819d6990624f40e3585106aa070,
     0x19a4c1161e376c082748774c34b0bcb5391c0cb34ed8aa4a5b9cca4f682e6ff3,
     0x748f82ee78a5636f84c878148cc7020890befffaa4506cebbef9a3f7c67178f2]
  start := 0x6a09e667bb67ae853c6ef372a54ff53a510e527f9b05688c1f83d9ab5be0cd19

/-- SHA-512: the first 64 fraction bits of the cube roots of the first 80 primes. -/
def kind512 : HashKind 64 where
  near := (1, 8, 7)
  far := (19, 61, 6)
  high := (14, 18, 41)
  low := (28, 34, 39)
  rounds := 80
  table :=
    [0x428a2f98d728ae227137449123ef65cdb5c0fbcfec4d3b2fe9b5dba58189dbbc,
     0x3956c25bf348b53859f111f1b605d019923f82a4af194f9bab1c5ed5da6d8118,
     0xd807aa98a303024212835b0145706fbe243185be4ee4b28c550c7dc3d5ffb4e2,
     0x72be5d74f27b896f80deb1fe3b1696b19bdc06a725c71235c19bf174cf692694,
     0xe49b69c19ef14ad2efbe4786384f25e30fc19dc68b8cd5b5240ca1cc77ac9c65,
     0x2de92c6f592b02754a7484aa6ea6e4835cb0a9dcbd41fbd476f988da831153b5,
     0x983e5152ee66dfaba831c66d2db43210b00327c898fb213fbf597fc7beef0ee4,
     0xc6e00bf33da88fc2d5a79147930aa72506ca6351e003826f142929670a0e6e70,
     0x27b70a8546d22ffc2e1b21385c26c9264d2c6dfc5ac42aed53380d139d95b3df,
     0x650a73548baf63de766a0abb3c77b2a881c2c92e47edaee692722c851482353b,
     0xa2bfe8a14cf10364a81a664bbc423001c24b8b70d0f89791c76c51a30654be30,
     0xd192e819d6ef5218d69906245565a910f40e35855771202a106aa07032bbd1b8,
     0x19a4c116b8d2d0c81e376c085141ab532748774cdf8eeb9934b0bcb5e19b48a8,
     0x391c0cb3c5c95a634ed8aa4ae3418acb5b9cca4f7763e373682e6ff3d6b2b8a3,
     0x748f82ee5defb2fc78a5636f43172f6084c87814a1f0ab728cc702081a6439ec,
     0x90befffa23631e28a4506cebde82bde9bef9a3f7b2c67915c67178f2e372532b,
     0xca273eceea26619cd186b8c721c0c207eada7dd6cde0eb1ef57d4f7fee6ed178,
     0x06f067aa72176fba0a637dc5a2c898a6113f9804bef90dae1b710b35131c471b,
     0x28db77f523047d8432caab7b40c724933c9ebe0a15c9bebc431d67c49c100d4c,
     0x4cc5d4becb3e42b6597f299cfc657e2a5fcb6fab3ad6faec6c44198c4a475817]
  start := 0x6a09e667f3bcc908bb67ae8584caa73b3c6ef372fe94f82ba54ff53a5f1d36f1510e527fade682d19b05688c2b3e6c1f1f83d9abfb41bd6b5be0cd19137e2179

/-- The schedule word that follows 16 others, newest first. -/
def nextWord {w : Nat} (k : HashKind w) (ws : List (BitVec w)) : BitVec w :=
  let mix (t : Nat × Nat × Nat) (x : BitVec w) := x.rotateRight t.1 ^^^ x.rotateRight t.2.1 ^^^ x >>> t.2.2
  ws.getD 15 0 + mix k.near (ws.getD 14 0) + ws.getD 6 0 + mix k.far (ws.getD 1 0)

/-- One round: the state as a list of eight words, first `a`. -/
def hashRound {w : Nat} (k : HashKind w) (i : Nat) (m : BitVec w) : List (BitVec w) → List (BitVec w)
  | [a, b, c, d, e, f, g, h] =>
    let turn (t : Nat × Nat × Nat) (x : BitVec w) := x.rotateRight t.1 ^^^ x.rotateRight t.2.1 ^^^ x.rotateRight t.2.2
    let choose := (f ^^^ g) &&& e ^^^ g
    let most := (a ||| b) &&& c ||| a &&& b
    let x := packedWord w k.table i + m + h + choose + turn k.high e
    [x + most + turn k.low a, a, b, c, x + d, e, f, g]
  | s => s

/-- The rounds left, over the last 16 schedule words, newest first. -/
def hashRounds {w : Nat} (k : HashKind w) : Nat → List (BitVec w) → List (BitVec w) → List (BitVec w)
  | 0, _, s => s
  | n + 1, ws, s =>
    hashRounds k n ((nextWord k ws :: ws).take 16) (hashRound k (k.rounds - (n + 1)) (ws.getD 15 0) s)

/-- The big-endian number of a byte string. -/
def beNat (l : List Byte) : Nat := leNat l.reverse

/-- The `n` big-endian bytes of a number. -/
def beBytes (n v : Nat) : List Byte := (List.range n).map (fun i => BitVec.ofNat 8 (v / 256 ^ (n - 1 - i)))

/-- `n` words of `c` bytes each, big-endian, the last of them first. -/
def blockWords (w c : Nat) : Nat → List Byte → List (BitVec w) → List (BitVec w)
  | 0, _, acc => acc
  | n + 1, l, acc => blockWords w c n (l.drop c) (BitVec.ofNat w (beNat (l.take c)) :: acc)

/-- Fold the blocks of a padded message into the state. -/
def hashBlocks {w : Nat} (k : HashKind w) : Nat → List Byte → List (BitVec w) → List (BitVec w)
  | 0, _, s => s
  | n + 1, l, s =>
    hashBlocks k n (l.drop (2 * w)) (List.zipWith (· + ·) s (hashRounds k k.rounds (blockWords w (w / 8) 16 l []) s))

/-- The digest of a byte string: one set bit, zeros, and the bit length in the last `w / 4` bytes make whole blocks of
`2 * w` bytes. -/
def hashOf {w : Nat} (k : HashKind w) (l : List Byte) : List Byte :=
  let block := 2 * w
  let tail := w / 4
  let zeros := (2 * block - 1 - tail - l.length % block) % block
  let m := l ++ 0x80 :: List.replicate zeros 0 ++ beBytes tail (l.length * 8)
  let first := (List.range 8).map (fun i => BitVec.ofNat w (k.start / 2 ^ (w * (7 - i))))
  (hashBlocks k (m.length / block) m first).flatMap (fun x => beBytes (w / 8) x.toNat)

/-- SHA-256: 32 bytes. -/
def sha256 (l : List Byte) : List Byte := hashOf kind256 l

/-- SHA-512: 64 bytes. -/
def sha512 (l : List Byte) : List Byte := hashOf kind512 l

end Sys2Proof.Machine
end

