-- ==== Sys2Proof/Machine/Aes.lean ====
section
/-!
DEFINITION. The block cipher of sealed memory (chapter 11): AES-256 (FIPS 197), and on it CMAC (SP 800-38B), GCM with
96-bit IVs (SP 800-38D), the counter-mode KDF (SP 800-108) and the CTR_DRBG without derivation function
(SP 800-90A). A block is a number of 128 bits, first byte highest.
-/
namespace Sys2Proof.Machine

/-! ### AES-256 -/

/-- Times x in GF(2^8) modulo x^8 + x^4 + x^3 + x + 1. -/
def gfDouble (a : Nat) : Nat := if a < 128 then 2 * a else (2 * a) ^^^ 0x11B

/-- The product in GF(2^8); the first argument counts the bits of `b` still to take. -/
def gfMulBits : Nat → Nat → Nat → Nat
  | 0, _, _ => 0
  | n + 1, a, b => (if b % 2 = 1 then a else 0) ^^^ gfMulBits n (gfDouble a) (b / 2)

/-- The product in GF(2^8). -/
def gfMul (a b : Nat) : Nat := gfMulBits 8 a b

/-- The inverse in GF(2^8), as a^254; 0 goes to 0. -/
def gfInverse (a : Nat) : Nat :=
  let a3 := gfMul (gfMul a a) a
  let a12 := gfMul (gfMul a3 a3) (gfMul a3 a3)
  let a14 := gfMul a12 (gfMul a a)
  let a15 := gfMul a12 a3
  let a240 := [0, 1, 2, 3].foldl (fun x _ => gfMul x x) a15
  gfMul a240 a14

/-- The S-box: the inverse, then the affine map. -/
def subByte (a : Nat) : Nat :=
  let b := gfInverse a
  let turn (k : Nat) : Nat := (b * 2 ^ k % 256) ||| (b / 2 ^ (8 - k))
  b ^^^ turn 1 ^^^ turn 2 ^^^ turn 3 ^^^ turn 4 ^^^ 0x63

/-- Byte `i` of a block. -/
def blockByte (x i : Nat) : Nat := x / 256 ^ (15 - i) % 256

/-- The block of 16 bytes given by position. -/
def blockOf (f : Nat → Nat) : Nat := (List.range 16).foldl (fun x i => x * 256 + f i) 0

/-- The S-box on each byte, then row `r` of the state turned left by `r`. -/
def subAndShift (x : Nat) : Nat :=
  blockOf (fun i => subByte (blockByte x ((i + 4 * (i % 4)) % 16)))

/-- The column mix. -/
def mixColumns (x : Nat) : Nat :=
  blockOf (fun i =>
    let at' (k : Nat) : Nat := blockByte x (i / 4 * 4 + (i + k) % 4)
    gfDouble (at' 0) ^^^ gfDouble (at' 1) ^^^ at' 1 ^^^ at' 2 ^^^ at' 3)

/-- The S-box on each byte of a 32-bit word. -/
def subWord (w : Nat) : Nat :=
  [0, 1, 2, 3].foldl (fun x i => x * 256 + subByte (w / 256 ^ (3 - i) % 256)) 0

/-- The key schedule: `n` further words after those given, newest first; `i` is the index of the next word. -/
def keyWords : Nat → Nat → Nat → List Nat → List Nat
  | 0, _, _, ws => ws
  | n + 1, i, rcon, ws =>
    let last := ws.getD 0 0
    let t := if i % 8 = 0 then subWord (last * 256 % 2 ^ 32 + last / 2 ^ 24) ^^^ (rcon * 2 ^ 24)
             else if i % 8 = 4 then subWord last else last
    keyWords n (i + 1) (if i % 8 = 0 then gfDouble rcon else rcon) ((ws.getD 7 0 ^^^ t) :: ws)

/-- The 15 round keys of a 256-bit key. -/
def roundKeys (key : BitVec 256) : List Nat :=
  let first := (List.range 8).map (fun i => key.toNat / 2 ^ (32 * i) % 2 ^ 32)
  let ws := (keyWords 52 8 1 first).reverse
  (List.range 15).map (fun r =>
    [0, 1, 2, 3].foldl (fun x i => x * 2 ^ 32 + ws.getD (4 * r + i) 0) 0)

/-- The rounds after the first key addition. -/
def aesRounds : List Nat → Nat → Nat
  | [], x => x
  | [k], x => subAndShift x ^^^ k
  | k :: ks, x => aesRounds ks (mixColumns (subAndShift x) ^^^ k)

/-- AES-256 of a block under a key schedule. -/
def aesWith (ks : List Nat) (x : Nat) : Nat := aesRounds (ks.drop 1) (x ^^^ ks.headD 0)

/-- AES-256 of a block. -/
def aes256 (key : BitVec 256) (x : Nat) : Nat := aesWith (roundKeys key) x

/-! ### CMAC and the KDF -/

/-- Times x in GF(2^128) with the polynomial of SP 800-38B. -/
def cmacDouble (x : Nat) : Nat := if x < 2 ^ 127 then 2 * x else (2 * x - 2 ^ 128) ^^^ 0x87

/-- The chain of CMAC over what is left of a message; `k1` and `k2` are the subkeys. -/
def cmacChain (ks : List Nat) (k1 k2 : Nat) : Nat → List Byte → Nat → Nat
  | 0, _, c => c
  | n + 1, m, c =>
    if m.length < 16 then aesWith ks (c ^^^ beNat (m ++ 0x80 :: List.replicate (15 - m.length) 0) ^^^ k2)
    else if m.length = 16 then aesWith ks (c ^^^ beNat m ^^^ k1)
    else cmacChain ks k1 k2 n (m.drop 16) (aesWith ks (c ^^^ beNat (m.take 16)))

/-- AES-256-CMAC of a message (SP 800-38B): 128 bits. -/
def cmac (key : BitVec 256) (m : List Byte) : Nat :=
  let ks := roundKeys key
  let k1 := cmacDouble (aesWith ks 0)
  cmacChain ks k1 (cmacDouble k1) (m.length + 1) m 0

/-- The counter-mode KDF of SP 800-108 with AES-256-CMAC: 256 bits under a key derivation key and the fixed input
that stands between the 32-bit counter and the 32-bit length. -/
def kdf256 (key : BitVec 256) (fixed : List Byte) : BitVec 256 :=
  let part (i : Nat) : Nat := cmac key (beBytes 4 i ++ fixed ++ beBytes 4 256)
  BitVec.ofNat 256 (part 1 * 2 ^ 128 + part 2)

/-! ### GCM -/

/-- Times x in the field of GHASH, whose bits stand in reverse. -/
def ghashShift (v : Nat) : Nat := if v % 2 = 1 then (v / 2) ^^^ (0xE1 * 2 ^ 120) else v / 2

/-- The product in the field of GHASH; the first argument counts the bits of `x` still to take, highest first. -/
def ghashMul : Nat → Nat → Nat → Nat
  | 0, _, _ => 0
  | n + 1, x, v => (if x.testBit n then v else 0) ^^^ ghashMul n x (ghashShift v)

/-- GHASH of a list of blocks under the hash subkey `h`. -/
def ghash (h : Nat) (blocks : List Nat) : Nat := blocks.foldl (fun y b => ghashMul 128 (y ^^^ b) h) 0

/-- The four blocks of a line's 64 bytes, in the order of its bytes. -/
def lineBlocks (x : BitVec 512) : List Nat :=
  (List.range 4).map (fun i =>
    blockOf (fun j => x.toNat / 256 ^ (16 * i + j) % 256))

/-- The line whose four blocks these are. -/
def blocksLine (bs : List Nat) : BitVec 512 :=
  BitVec.ofNat 512 ((List.range 64).foldr (fun i x => blockByte (bs.getD (i / 16) 0) (i % 16) + 256 * x) 0)

/-- The key stream of GCM over a line: the blocks of the counters 2 to 5 under a 96-bit IV. -/
def gcmStream (ks : List Nat) (iv : Nat) : BitVec 512 :=
  blocksLine ((List.range 4).map (fun i => aesWith ks (iv * 2 ^ 32 + i + 2)))

/-- The tag of GCM where a line is the ciphertext (`enc`) or the additional authenticated data: 128 bits. -/
def gcmTag (ks : List Nat) (iv : Nat) (enc : Bool) (x : BitVec 512) : Nat :=
  let lengths := if enc then 512 else 512 * 2 ^ 64
  ghash (aesWith ks 0) (lineBlocks x ++ [lengths]) ^^^ aesWith ks (iv * 2 ^ 32 + 1)

/-! ### The random bit generator -/

/-- The state of a CTR_DRBG with AES-256: its key and V. -/
structure Drbg where
  key : BitVec 256
  v : BitVec 128
  deriving DecidableEq, Repr

/-- The generator before it is seeded. -/
def Drbg.zero : Drbg := ⟨0, 0⟩

/-- Block `i` of the output that follows a state, from 1. -/
def Drbg.block (d : Drbg) (i : Nat) : Nat := aes256 d.key ((d.v.toNat + i) % 2 ^ 128)

/-- CTR_DRBG_Update with 384 bits. -/
def Drbg.update (d : Drbg) (seed : BitVec 384) : Drbg :=
  let t := (d.block 1 * 2 ^ 256 + d.block 2 * 2 ^ 128 + d.block 3) ^^^ seed.toNat
  ⟨BitVec.ofNat 256 (t / 2 ^ 128), BitVec.ofNat 128 t⟩

/-- Reseed with 384 bits of entropy, and draw 256 bits. -/
def Drbg.draw (d : Drbg) (entropy : BitVec 384) : BitVec 256 × Drbg :=
  let d := d.update entropy
  (BitVec.ofNat 256 (d.block 1 * 2 ^ 128 + d.block 2), { d with v := d.v + 2 }.update 0)

end Sys2Proof.Machine
end

