-- ==== Sys2Proof/Machine/UnitState.lean ====
section
/-!
DEFINITION. The state of start-up, persistent settings and monitoring (chapter 15), of sealed memory (chapter 11), of
device time and network time (chapter 12) and of the lanes (chapter 08), beside their registers.
-/
namespace Sys2Proof.Machine

/-! ### Start-up and persistent settings -/

/-- The part states of R425. -/
inductive PartState where
  | powerup | boot | standby | ready | operating | halted
  deriving DecidableEq, Repr

/-- What the headstock keeps of a firmware image (R438): FW_VER, HIV, the signed lists, the runtime image's RT_VER and
required HIV, LENGTH, and whether its signature checks. -/
structure FwImage where
  ver : Nat
  hiv : Nat
  len : Nat
  steppings : List Nat
  rtVers : List Nat
  rt : Option (Nat × Nat)
  rtImage : List Byte
  sigOk : Bool
  deriving DecidableEq, Repr

/-- The QSPI flash: the size of a slot and the image of each of the two slots (R427). -/
structure Flash where
  slotBytes : Nat
  slot0 : Option FwImage
  slot1 : Option FwImage
  deriving DecidableEq, Repr

/-- The state of an HBM stack's stage 6 (R426, R432). -/
inductive StackState where
  | off | training | initialising | ready | failed
  deriving DecidableEq, Repr

/-- Start-up: the part state and the one STANDBY returns to, the reset pins, the sampled CFG_ADDR balls, the boot
stage, the absent rails of R430 and the fabric dies that answer, the flash, the firmware, the self-test results of
R432 and the stacks. `d3Wanted` is a D3hot request that waits for stage 7; `d3Stopping` one that waits for a STOP.
`otp` is what the OTP holds; `otpRead` what it held at the last reset. -/
structure BootState where
  ps : PartState
  left : PartState
  rstLow : Bool
  perstLow : Bool
  pins : Nat
  stage : Nat
  noFab : Bool
  noHbm : Bool
  noSrd : Bool
  dies : Nat
  flash : Option Flash
  bootSlot : Option Nat
  hostFetch : Bool
  fw : Option FwImage
  tests : SMap Nat
  stack0 : StackState
  stack1 : StackState
  d3Wanted : Bool
  d3Stopping : Bool
  update : Option (Hdr × FwImage)
  otp : SMap Byte
  otpRead : SMap Byte
  deriving DecidableEq, Repr

/-! ### Monitor ADC -/

/-- A conversion (R445, R446, R448): its channel, the MON_CONVERT it serves, whether that is urgent, and whether it is
one of an open-wire check. -/
structure Conv where
  ch : Nat
  hdr : Option Hdr
  urgent : Bool
  check : Bool
  deriving DecidableEq, Repr

/-- An open-wire check of a channel (R448): the codes taken with the pull-up and with the pull-down, and the device time
at which the pull that is on was turned on. -/
structure OpenWire where
  up : Option Nat
  down : Option Nat
  since : Int
  deriving DecidableEq, Repr

/-- The converter: the conversion in progress; MON_CONVERTs that wait, urgent ones apart; the conversion to repeat
after an urgent one; those held while a calibration runs; the rest of the scan; a calibration to start; channels out
of their limits and sensors over the warning; the scans begun since the open-wire checks last began, and the checks
under way. -/
structure MonState where
  cur : Option Conv
  urgent : List Conv
  waiting : List Conv
  again : Option Conv
  held : List Conv
  scan : List Nat
  calNext : Bool
  alarmed : SMap Bool
  warned : SMap Bool
  scans : Nat
  checks : SMap (Option OpenWire)
  deriving DecidableEq, Repr

/-- An idle converter. -/
def MonState.init : MonState := ⟨none, [], [], none, [], [], false, [], [], 0, []⟩

/-! ### Sealed memory -/

/-- A sealed data line (R329 to R331): the 64 bytes that the engine sealed last, its key identity when that differs
from the one of its MiB, its MINOR counter, and the stored bits upset since (DESIGN CHOICE, log 48). What stands in the
stack is `storedLine`. -/
structure SealLine where
  data : BitVec 512
  kid : Option Nat
  minor : Nat
  flips : BitVec 512
  deriving DecidableEq, Repr

/-- A counter block or tree node in a cache (R333, R334): its key, whether it is dirty, and, if so, what the stack
still holds of it. -/
structure CacheLine where
  key : Nat
  dirty : Bool
  old : BitVec 512
  deriving DecidableEq, Repr

/-- The subkeys of a key identity (R326). -/
structure SealKey where
  enc : BitVec 256
  mac : BitVec 256
  deriving DecidableEq, Repr

/-- The sealing engine and the two stacks behind it.

Contents of the stacks: `lines` by sealed address div 64, MAJOR counters by sealed address div 4,096; `chunkKid` and
`blkChunk` are the identities that the lines, and the counter blocks and nodes of levels 0 to 2, of a MiB carry unless
they name another (`SealLine.kid`, `blkKid`); `tagFlips` (by line div 8) and `blkFlips` (by `nodeKey`) are stored bits
upset since they were written.

On die: the caches, latest use first, of counter blocks, of nodes of levels 1 and 2 and of tag lines (with the upset
bits their copies took); `topOld`, what the stacks hold of those nodes of levels 3 to 6 that have changed; the subkeys
of the live identities and the random bit generator; whether this initialisation has drawn its key.

`stopped` is set from the detection of a failure (R342); `walk` is the region of a running rekey walk with its REKEY
command; `waiting` the automatic rekeys that wait (R341); `use` the key-use counts of the regions (R338). `lastStatus`
and `lastRead` are what the last access answered. -/
structure SealState where
  lines : SMap SealLine
  major : SMap Nat
  chunkKid : SMap Nat
  blkChunk : SMap Nat
  blkKid : SMap (Option Nat)
  tagFlips : SMap (BitVec 512)
  blkFlips : SMap (BitVec 512)
  ctrCache : List CacheLine
  treeCache : List CacheLine
  tagCache : List (Nat × BitVec 512)
  topOld : SMap (Option (BitVec 512))
  keys : SMap (Option SealKey)
  drbg : Drbg
  drawn : Option Bool
  stopped : Bool
  walk : Option (Nat × Option Hdr)
  waiting : List Nat
  use : SMap Nat
  lastStatus : Status
  lastRead : List Byte
  deriving DecidableEq, Repr

/-- Sealed memory as a reset leaves it: empty, without a key. -/
def SealState.init : SealState where
  lines := []
  major := []
  chunkKid := []
  blkChunk := []
  blkKid := []
  tagFlips := []
  blkFlips := []
  ctrCache := []
  treeCache := []
  tagCache := []
  topOld := []
  keys := []
  drbg := .zero
  drawn := none
  stopped := false
  walk := none
  waiting := []
  use := []
  lastStatus := .ok
  lastRead := []

/-! ### Time -/

/-- The servo states of R351. -/
inductive SrvState where
  | free | acquire | locked | holdover | software
  deriving DecidableEq, Repr

/-- A TIME_INCREMENT that waits for its instant (R352): its command, u0 and INC in units of 2^−32 ns. -/
structure IncWait where
  hdr : Hdr
  u0 : Nat
  inc : Nat
  deriving DecidableEq, Repr

/-- The data set of an Announce (R361): `gm` is the grandmaster's clockIdentity, `source` and `port` the sender's
identity (clockIdentities as numbers, first octet most significant), `steps` stepsRemoved, and the UTC offset. -/
structure Announce where
  priority1 : Nat
  clockClass : Nat
  accuracy : Nat
  variance : Nat
  priority2 : Nat
  gm : Nat
  steps : Nat
  source : Nat
  port : Nat
  utc : Int
  utcValid : Bool
  deriving DecidableEq, Repr

/-- A frame on its way out of a management port (R360): the port, the device time of its launch, and its bytes from the
destination address to the FCS. -/
structure MgmtOut where
  port : Nat
  launch : Nat
  frame : List Byte
  deriving DecidableEq, Repr

/-- The management ports and the ordinary clock of R361: its master and the other masters heard, a Sync that waits for
its Follow_Up (its sequence number, t2 and correction), the last t2 − t1 in units of 2^−32 ns, the Delay_Req that is out
(sequence number and t3), the path delays averaged, and logMinDelayReqInterval; the frames that leave, and the device
time at which each port is idle again (R360). -/
structure PtpState where
  master : Option Announce
  heard : List Announce
  sync : Option (Nat × Int × Int)
  last21 : Option Int
  req : Option (Nat × Int)
  reqSeq : Nat
  delays : List Int
  logReq : Int
  egress : List MgmtOut
  egressFree : SMap Nat
  deriving DecidableEq, Repr

/-- The management ports and the ordinary clock right after reset. -/
def PtpState.init : PtpState := ⟨none, [], none, none, none, 0, [], 0, [], []⟩

/-- The time unit: whether the counter runs; the servo state; y as the servo sets it (R350), y as it
stood before the clamp of R350, and the integrator, in units of 2^−48 ppb; the INC that software set, with the INC_BASE of
that time; the slew still to absorb and its total, in units of 2^−32 ns; the consecutive measurements inside and outside the lock threshold; the sum and count of
the running average of R353; whether the rate is at its limit (R346); the TIME_INCREMENTs that wait; the pulses put out
on TICK_OUT and PPS_OUT, with the instants of the last rises and the instant at which TICK_OUT falls, on the scale of the
present device time; the lane, delay and offset
of the last figures from a lane time message (R254); and the ordinary clock. -/
structure TimeState where
  run : Bool
  srv : SrvState
  y : Int
  yAsked : Int
  integ : Int
  softInc : Option (Nat × Nat)
  slewLeft : Int
  slewing : Bool
  slewTotal : Int
  theta : Int
  inRun : Nat
  outRun : Nat
  swSum : Int
  swCount : Nat
  atLimit : Bool
  incWaits : List IncWait
  tickPulses : Nat
  ppsPulses : Nat
  tickRise : Option Int
  tickFall : Int
  ppsRise : Option Int
  laneFigures : Option (Nat × Int × Int)
  ptp : PtpState
  deriving DecidableEq, Repr

/-- The time unit right after reset. -/
def TimeState.init : TimeState :=
  ⟨false, .free, 0, 0, 0, none, 0, false, 0, 0, 0, 0, 0, 0, false, [], 0, 0, none, 0, none, none, .init⟩

/-! ### Lanes -/

/-- The lane states of R244 and R245, as R255 encodes them. -/
inductive LaneSt where
  | down | detect | train | lock | exchange | active | fail
  deriving DecidableEq, Repr

/-- A received frame as its checks left it (R237): its words, its control bits, whether it is good, and its slack in
ps. -/
structure RxFrame where
  words : List Word
  pv : Bool
  halt : Bool
  good : Bool
  slack : Nat
  deriving DecidableEq, Repr

/-- A receive lane. `frame` and `frames` are the latest frame whose path end lies in the present interval and how
many there were (R227); `run` is the count of consecutive good frames, `syncFails` of SYNC failures, `lost` of ticks
without a good frame; `seq` is the SEQ of the previous frame; `frags` the fragments taken of a message and `inMsg`
whether a frame with TMF = 1 continues a run of them; `bitLock` and `lockRun` serve LOCK; `slacks` are those of the last 256 frames, latest first;
`rxs` the stamp of fragment 0 of the message under way, `capWait` and `tmWait` messages taken
and not yet acted on; `tmNum` and `tmStamp` the number and RXS of the last time
message taken, and `tmHeld` those of the last one received complete before the latest boundary. -/
structure RxLane where
  st : LaneSt
  cause : Nat
  attempts : Nat
  frame : Option RxFrame
  frames : Nat
  run : Nat
  syncFails : Nat
  lost : Nat
  seq : Option Nat
  frags : List Nat
  inMsg : Bool
  bitLock : Bool
  lockRun : Nat
  slacks : List Nat
  slipRun : Option Nat
  halt : Bool
  valid : Bool
  rxs : Nat
  capWait : Option Nat
  tmWait : Option Nat
  tmNum : Nat
  tmStamp : Option Nat
  tmHeld : Nat × Option Nat
  peerLane : Nat
  peerIdent : Nat
  peerValid : Bool
  deriving DecidableEq, Repr

/-- A receive lane right after reset: DOWN. -/
def RxLane.init : RxLane :=
  ⟨.down, 0, 0, none, 0, 0, 0, 0, none, [], true, false, 0, [], none, false, false, 0, none, none, 0, none, (0, none), 0, 0, false⟩

/-- What a transmit lane sends in TRAIN (R243). -/
inductive TrainPat where
  | tp1 | tp2 | tp2Done
  deriving DecidableEq, Repr

/-- A transmit lane: its state and cause, its training pattern, the line bits of the last frame it formed with the
tick of that frame, whether that frame carries HALT, TXS of the time messages it sent, by NUM, and the instant of the
frame's launch inside the part (R358). -/
structure TxLane where
  st : LaneSt
  cause : Nat
  pat : TrainPat
  bits : List Bool
  sentTick : Option Nat
  halt : Bool
  msg : Nat
  txs : List (Nat × Nat)
  launch : Int
  deriving DecidableEq, Repr

/-- A transmit lane right after reset: DOWN. -/
def TxLane.init : TxLane := ⟨.down, 0, .tp1, [], none, false, 0, [], 0⟩

/-- The lanes, and for each receive group the error kinds met since the last event of source 32 + g with the device
time of that event (R256). -/
structure LaneState where
  rx : SMap RxLane
  tx : SMap TxLane
  errs : SMap Nat
  errAt : SMap (Option Nat)
  deriving DecidableEq, Repr

/-- The lanes right after reset. -/
def LaneState.init : LaneState := ⟨[], [], [], []⟩

end Sys2Proof.Machine
end

