-- ==== Sys2Proof/Machine/State.lean ====
section
/-!
DEFINITION. The state of the part, and the machine's state: the part and the queue of waiting commands.
-/
namespace Sys2Proof.Machine

/-- The part. `regs` are the bits of every register (the part's read-only mirrors of other state are formed when they
are read); `readData` is what the last register read returned, and `readPec` the PEC byte that followed it on the I²C
interface (R431); `hiLatch` holds high words latched by a read of the low
word (R12) and `loHeld` low words written and waiting for the high word (R13); `free` counts the free values drawn;
`now` is device time in units of 2^−32 ns (DESIGN CHOICE, log 10). -/
structure Part where
  regs : SMap Reg32
  readData : Nat
  readPec : Nat
  hiLatch : SMap (Option Nat)
  loHeld : SMap (Option Nat)
  free : Nat
  now : Nat
  tk : TickState
  host : HostState
  svn : SvnState
  sp : SpindleState
  gr : GrainState
  blank : Option BlankInfo
  cols : List Nat
  regions : List Region
  loader : LoaderState
  boot : BootState
  mon : MonState
  sm : SealState
  tim : TimeState
  lanes : LaneState
  his : HisState
  rdo : RdoState
  cap : CapState
  trc : TrcState
  deriving DecidableEq, Repr

/-- The machine: the part, and the commands that wait, first in, first out. -/
structure State where
  part : Part
  pending : List Instr
  deriving DecidableEq, Repr

/-- Faults. No command of this block ends in one: every row has an effect in every state. -/
inductive Fault where
  /-- Raised by no meaning (safe). -/
  | neverRaised
  deriving DecidableEq, Repr

/-- Refusals. -/
inductive Refusal where
  /-- Answered by the dispatch arm of a row that has no meaning yet, with its mnemonic (safe). -/
  | notModelled (mnemonic : String)
  deriving DecidableEq, Repr

/-- The OTP as the part leaves Wyerha in this model: a factory record of a TN2-A64-20E with serial number 0, and a
column map with every physical column good (DESIGN CHOICE, log 4). -/
def factoryOtp : SMap Byte :=
  [(0x2, 0x20), (0x10, 0x01), (0x28, 0x0d), (0x29, 0xb8), (0x2a, 0xdd), (0x2b, 0xd8), (0x30, 0x01), (0x32, 0x08), (0x38, 0xff), (0x39, 0xff), (0x3a, 0xff), (0x3b, 0xff), (0x3c, 0x0f), (0x40, 0x32), (0x41, 0xf4), (0x42, 0x34), (0x43, 0xb3)]

/-- Start-up right after power-on, with SYS_RST_N and PERST_N low. -/
def BootState.init : BootState where
  ps := .powerup
  left := .ready
  rstLow := true
  perstLow := true
  pins := 0
  stage := 0
  noFab := false
  noHbm := false
  noSrd := false
  dies := 0
  flash := none
  bootSlot := none
  hostFetch := false
  fw := none
  tests := []
  stack0 := .off
  stack1 := .off
  d3Wanted := false
  d3Stopping := false
  update := none
  otp := factoryOtp
  otpRead := factoryOtp

/-- The part right after power-on: every register at its reset value, the fabric OFF, the time counter at 0, every
lane DOWN, part state POWERUP (R423), and SYS_RESET_CAUSE naming power-on. -/
def Part.init : Part where
  regs := [(0x8, 1)]
  readData := 0
  readPec := 0
  hiLatch := []
  loHeld := []
  free := 1
  now := 0
  tk := .init
  host := .init
  svn := .init
  sp := .init
  gr := .init
  blank := none
  cols := []
  regions := []
  loader := .init
  boot := .init
  mon := .init
  sm := .init
  tim := .init
  lanes := .init
  his := .init
  rdo := .init
  cap := .init
  trc := .init

/-- The machine right after reset: no command waits. -/
def State.reset : State := ⟨Part.init, []⟩

end Sys2Proof.Machine
end

