-- ==== Sys2Proof/Machine/Regs.lean ====
section
/-!
DEFINITION. The register file: reading a field, writing one from inside the part, counting with saturation (R14),
and the host's read and write of a register under the access codes of R9 to R13 and R469.
-/
namespace Sys2Proof.Machine

/-- The central router that a network interface joins (R397); none for a reserved identity. -/
def niRouter (n : Nat) : Option Nat :=
  if n = 0 then some 4 else if n = 1 then some 5 else if n = 2 then some 0 else if n = 3 then some 1
  else if n < 8 then some (n - 4) else if n < 24 then some 1 else if n < 40 then some 2
  else if n = 40 then some 1 else if n = 41 then some 2 else if n = 42 then some 3
  else if n = 43 then some 0 else if n = 44 then some 3 else if n = 45 then some 6 else if n = 46 then some 6
  else if n = 47 then some 7 else if n = 48 then some 5 else if n = 49 then some 5 else if n = 50 then some 4
  else if n = 51 then some 7 else none

/-- The X-then-Y route between central routers as hop codes: 0 north, 1 east, 2 south, 3 west (R401, R403). -/
def xyHops (src dst : Nat) : List Nat :=
  (if src % 4 < dst % 4 then List.replicate (dst % 4 - src % 4) 1 else List.replicate (src % 4 - dst % 4) 3) ++
  (if src / 4 < dst / 4 then List.replicate (dst / 4 - src / 4) 2 else List.replicate (src / 4 - dst / 4) 0)

/-- A route as SVN_HOPS holds it: hop k in bits [2k + 1 : 2k]. -/
def packHops : List Nat → Nat
  | [] => 0
  | h :: l => h + 4 * packHops l

/-- The reset value of SVN_NIn_ROUTEd: the X-then-Y route from NI n's central router to router d (R402). -/
def routeReset (n d : Nat) : Nat :=
  match niRouter n with
  | some r => packHops (xyHops r d) + (xyHops r d).length * 2 ^ 16
  | none => 0

/-- The reset value of the register at a BAR0 offset (DESIGN CHOICE, log 8). -/
def regReset (off : Nat) : Reg32 :=
  if SVN_HOPS.hits off then
    BitVec.ofNat 32 (routeReset ((off - SVN_HOPS.off) / 0x20) ((off - SVN_HOPS.off) % 0x20 / 4))
  else BitVec.ofNat 32 (rowsReset (rowsAt off))

/-- The raw bits of a register at a BAR0 offset. -/
def regAt (p : Part) (off : Nat) : Reg32 := smapGet regReset p.regs off

/-- Put a whole register value at a BAR0 offset. -/
def setRegAt (p : Part) (off : Nat) (v : Reg32) : Part := { p with regs := smapSet regReset p.regs off v }

/-- Bits [lo + w − 1 : lo] of a natural number. -/
def natBits (x lo w : Nat) : Nat := x / 2 ^ lo % 2 ^ w

/-- `x` with bits [lo + w − 1 : lo] replaced by the low bits of `v`. -/
def natPut (x lo w v : Nat) : Nat := x - natBits x lo w * 2 ^ lo + v % 2 ^ w * 2 ^ lo

/-- The value of a field, of register number `i` of its array. -/
def fldI (p : Part) (f : FieldRow) (i : Nat) : Nat := natBits (regAt p (f.at i)).toNat f.lo f.width

/-- The value of a field of a single register. -/
def fld (p : Part) (f : FieldRow) : Nat := fldI p f 0

/-- Is a one-bit field set? -/
def fldOn (p : Part) (f : FieldRow) : Bool := fld p f == 1

/-- The part itself sets a field (a status or a counter), whatever its access code. -/
def setFldI (p : Part) (f : FieldRow) (i v : Nat) : Part :=
  setRegAt p (f.at i) (BitVec.ofNat 32 (natPut (regAt p (f.at i)).toNat f.lo f.width v))

/-- The part itself sets a field of a single register. -/
def setFld (p : Part) (f : FieldRow) (v : Nat) : Part := setFldI p f 0 v

/-- Add to a counter field, saturating at its maximum (R14). -/
def bumpFldI (p : Part) (f : FieldRow) (i n : Nat) : Part :=
  setFldI p f i (min (fldI p f i + n) (2 ^ f.width - 1))

/-- Add to a counter field of a single register. -/
def bumpFld (p : Part) (f : FieldRow) (n : Nat) : Part := bumpFldI p f 0 n

/-- Raise a maximum field to at least `n`, saturating. -/
def maxFldI (p : Part) (f : FieldRow) (i n : Nat) : Part :=
  setFldI p f i (max (fldI p f i) (min n (2 ^ f.width - 1)))

/-- A 64-bit quantity held in a low and a high field. -/
def fld64I (p : Part) (l h : FieldRow) (i : Nat) : Nat := fldI p l i + fldI p h i * 2 ^ 32

/-- A 64-bit quantity held in a low and a high field of single registers. -/
def fld64 (p : Part) (l h : FieldRow) : Nat := fld64I p l h 0

/-- Set a 64-bit quantity held in a low and a high field. -/
def setFld64I (p : Part) (l h : FieldRow) (i v : Nat) : Part :=
  setFldI (setFldI p l i (v % 2 ^ 32)) h i (v / 2 ^ 32)

/-- Set a 64-bit quantity of single registers. -/
def setFld64 (p : Part) (l h : FieldRow) (v : Nat) : Part := setFld64I p l h 0 v

/-- Two's complement reading of a field value of width `w`. -/
def signedOf (w v : Nat) : Int := if v < 2 ^ (w - 1) then (v : Int) else (v : Int) - 2 ^ w

/-- Two's complement code of an integer in `w` bits, saturating at the ends of the range. -/
def satCode (w : Nat) (x : Int) : Nat :=
  let lo : Int := -(2 ^ (w - 1))
  let hi : Int := 2 ^ (w - 1) - 1
  let y := if x < lo then lo else if hi < x then hi else x
  (y % 2 ^ w).toNat

/-- Two's complement code of an integer in `w` bits, wrapping. -/
def wrapCode (w : Nat) (x : Int) : Nat := (x % 2 ^ w).toNat

/-- `RWL` fields are locked once START's admission has passed (R9, R182). -/
def locked (p : Part) : Bool := fldOn p FAB_LOCKED

end Sys2Proof.Machine
end

