-- ==== Sys2Proof/Machine/Events.lean ====
section
/-!
DEFINITION. Device time as the units read it, the layout of multi-byte fields in host memory (R8, R385), and the
on-die event queue (R385 to R388).
-/
namespace Sys2Proof.Machine

/-- One nanosecond of device time in units of 2^−32 ns. -/
def nsUnit : Nat := 2 ^ 32

/-- Whole nanoseconds of device time. -/
def timeNs (t : Nat) : Nat := t / nsUnit

/-- NS of device time: nanoseconds within the second. -/
def nsOf (t : Nat) : Nat := timeNs t % 10 ^ 9

/-- SEC of device time: whole seconds, 48 bits. -/
def secOf (t : Nat) : Nat := timeNs t / 10 ^ 9 % 2 ^ 48

/-- The 8-byte time-stamp format: [29:0] nanoseconds, [63:30] bits [33:0] of the seconds (R385). -/
def timeStamp (t : Nat) : Nat := nsOf t + secOf t % 2 ^ 34 * 2 ^ 30

/-- The `n` little-endian bytes of a value (R8). -/
def leBytes : Nat → Nat → List Byte
  | 0, _ => []
  | n + 1, v => BitVec.ofNat 8 v :: leBytes n (v / 256)

/-- Fields packed in order from offset `pos`, each at the next multiple of its size (R385). -/
def packFields : Nat → List (Nat × Nat) → List Byte
  | _, [] => []
  | pos, (size, v) :: l =>
    let pad := (size - pos % size) % size
    List.replicate pad 0 ++ leBytes size v ++ packFields (pos + pad + size) l

/-- Bytes cut or filled with zeros to a length. -/
def fitBytes (n : Nat) (l : List Byte) : List Byte := (l ++ List.replicate n 0).take n

/-- Is a source masked (R387)? -/
def eventMasked (p : Part) (src : Nat) : Bool := (fldI p HIF_EVT_MASK (src / 32)).testBit (src % 32)

/-- Put an event into the on-die queue of 256 entries (R387). -/
def queueEvent (p : Part) (e : Event) : Part :=
  if eventMasked p e.src then p
  else if 256 ≤ p.host.events.length then
    bumpFld { p with host := { p.host with lostNext := true } } HIF_LOST_COUNT 1
  else { p with host := { p.host with events := p.host.events ++ [{ e with lost := p.host.lostNext }],
                                      lostNext := false } }

/-- Raise an event source with its payload fields, at the present device time (R385, R388). -/
def raise (p : Part) (src : Nat) (payload : List (Nat × Nat)) : Part :=
  queueEvent p ⟨src, false, false, nsOf p.now, payload⟩

/-- The 32 bytes of an event entry (R385). -/
def eventBytes (e : Event) (phase : Bool) (seq : Nat) : List Byte :=
  leBytes 1 e.src ++
  leBytes 1 ((if phase then 1 else 0) + (if e.superseded then 2 else 0) + (if e.lost then 4 else 0)) ++
  leBytes 2 seq ++ leBytes 4 e.ns ++ fitBytes 24 (packFields 8 e.payload)

end Sys2Proof.Machine
end

