-- ==== Sys2Proof/Machine/TraceCore.lean ====
section
/-!
DEFINITION. Shavings and the inputs of the chute (R308 to R314), and trace triggers (R316).
-/
namespace Sys2Proof.Machine

/-- The input of a trace source. -/
def trcSource (p : Part) (src : Nat) : TrcSource := smapGet (fun _ => TrcSource.init) p.trc.sources src

/-- Replace the input of a trace source. -/
def setTrcSource (p : Part) (src : Nat) (t : TrcSource) : Part :=
  { p with trc := { p.trc with sources := smapSet (fun _ => TrcSource.init) p.trc.sources src t } }

/-- Device time in units of 4 ns, as shavings count it (R309). -/
def trcTime (p : Part) : Nat := timeNs p.now / 4

/-- Does trace take shavings now: running, or triggered and not past the stop instant (R316)? -/
def trcTaking (p : Part) : Bool :=
  match p.trc.st with
  | .running => true
  | .triggered => decide (timeNs p.now ≤ p.trc.stopAt)
  | _ => false

/-- Is a source enabled by SET_SOURCES (R317)? The chute's own shavings need no enable. -/
def trcEnabled (p : Part) (src : Nat) : Bool :=
  src == 33 || (fldI p TRC_SRC_EN (src / 32)).testBit (src % 32)

/-- The bytes of a shaving (R309, R310): `delta` is the time since the source's previous shaving in units of 4 ns. -/
def shavingBytes (src kind delta : Nat) (payload : List Byte) : List Byte :=
  let xt := decide (256 ≤ delta)
  leBytes 4 (src + (if xt then 128 else 0) + kind * 2 ^ 8 + payload.length / 4 * 2 ^ 12 +
             (if xt then 0 else delta * 2 ^ 24)) ++
  (if xt then leBytes 4 (min delta (2 ^ 32 - 1)) else []) ++ payload

/-- The payload of a SYNC (R311). -/
def syncPayload (p : Part) (t : TrcSource) : List Byte :=
  leBytes 4 0x434E5953 ++ leBytes 4 (nsOf p.now) ++ leBytes 8 (secOf p.now) ++ leBytes 8 p.tk.tick ++
  leBytes 4 t.emitted ++ leBytes 4 0

/-- A source appends a shaving to its output. -/
def emitRaw (t : TrcSource) (bytes : List Byte) (now : Nat) (sync : Bool) : TrcSource :=
  { t with queue := t.queue ++ [bytes], last := now, emitted := (t.emitted + bytes.length) % 2 ^ 32,
           sinceSync := if sync then 0 else t.sinceSync + bytes.length, needSync := if sync then false else t.needSync }

/-- Bytes that wait in an input. -/
def inputBytes (t : TrcSource) : Nat := (t.queue.map List.length).sum

/-- The shavings that precede a shaving: LOSS after a drop, then SYNC where R313 asks for one. -/
def emitLead (p : Part) (src : Nat) (t : TrcSource) : TrcSource :=
  let now := trcTime p
  let t := if t.dropN = 0 then t else
    { emitRaw t (shavingBytes src 1 (now - t.last)
        (leBytes 4 (min t.dropN (2 ^ 32 - 1)) ++ leBytes 4 (min t.dropBytes (2 ^ 32 - 1)))) now false with
        dropN := 0, dropBytes := 0, needSync := true }
  if t.needSync || decide (4096 ≤ t.sinceSync) then
    emitRaw t (shavingBytes src 0 0 (syncPayload p t)) now true
  else t

/-- Does a source stall rather than drop (R286, R308)? A core does as RDO_TRACE_STALL stood when its latest task was
dispatched. -/
def stalls (p : Part) (src : Nat) : Bool := decide (src < 32) && smapGet (fun _ => false) p.rdo.stallMode src

/-- A dropped shaving is counted, and event source 113 is raised at most once per source in 1 ms (R314, R319). -/
def dropShaving (p : Part) (src bytes : Nat) : Part :=
  let t := trcSource p src
  let now := timeNs p.now
  let p := bumpFld (setTrcSource p src { t with dropN := t.dropN + 1, dropBytes := t.dropBytes + bytes }) TRC_DROPPED 1
  let quiet := match smapGet (fun _ => none) p.trc.lossAt src with
    | some e => decide ((now : Int) < e + 10 ^ 6)
    | none => false
  if quiet then p
  else raise { p with trc := { p.trc with lossAt := smapSet (fun _ => none) p.trc.lossAt src (some (now : Int)) } } 113
    [(1, src), (4, min (t.dropN + 1) (2 ^ 32 - 1))]

/-- The output of a source with one more shaving, and a SYNC before it where R313 asks for one; none when the 4 KiB input
has no room (R314). The chute's own input is never full. -/
def withShaving (p : Part) (src : Nat) (t : TrcSource) (kind : Nat) (payload : List Byte) : Option TrcSource :=
  let led := emitLead p src t
  let next := emitRaw led (shavingBytes src kind (trcTime p - led.last) payload) (trcTime p) false
  if src = 33 ∨ inputBytes next ≤ 4096 then some next else none

/-- A source that has dropped shavings emits LOSS and then SYNC once its input has room for them (R314). -/
def reportLoss (p : Part) (src : Nat) : Part :=
  let t := trcSource p src
  if t.dropN ≠ 0 ∧ trcTaking p = true ∧ trcEnabled p src = true then
    let led := emitLead p src t
    if src = 33 ∨ inputBytes led ≤ 4096 then setTrcSource p src { led with afterLoss := true } else p
  else p

/-- The shavings with which a stalled core waits enter its input, oldest first, as far as there is room. -/
def resumeStalled : Nat → Part → Nat → Part
  | 0, p, _ => p
  | n + 1, p, src =>
    let t := trcSource p src
    match t.stalled with
    | [] => p
    | (kind, payload) :: rest => match withShaving p src t kind payload with
      | some t => resumeStalled n (setTrcSource p src { t with stalled := rest }) src
      | none => p

/-- Does a core stall on trace (R286, R308)? -/
def coreStalled (p : Part) (j : Nat) : Bool := trcTaking p && !(trcSource p j).stalled.isEmpty

/-- A source emits a shaving (R310, R313, R314). One that does not fit the input makes a source that stalls wait, and is
dropped and counted otherwise. -/
def shave (p : Part) (src kind : Nat) (payload : List Byte) : Part :=
  if !(trcTaking p && trcEnabled p src) then p
  else
    let p := reportLoss p src
    let t := trcSource p src
    let wait (p : Part) : Part := setTrcSource p src { t with stalled := t.stalled ++ [(kind, payload)] }
    let size := (shavingBytes src kind (trcTime p - t.last) payload).length
    if !t.stalled.isEmpty then wait p
    else match withShaving p src t kind payload with
      | some t => setTrcSource p src t
      | none => if stalls p src then wait p else dropShaving p src size

/-- A trace trigger (R316): the first after START, from a source that the caller has found enabled, makes the chute
emit TRIGGER and fixes the stop instant. `cause` is 0 capture unit, 1 trigger bus, 2 catch, 3 command; `unit` the unit
or line. -/
def traceTrigger (p : Part) (cause unit tick : Nat) : Part :=
  if p.trc.st = .running then
    let p := shave p 33 2 (leBytes 4 (cause + unit * 16) ++ leBytes 4 tick ++ leBytes 4 (tick / 2 ^ 32))
    { p with trc := { p.trc with st := .triggered, stopAt := timeNs p.now + fld p TRC_STOP_DELAY * 64 } }
  else p

end Sys2Proof.Machine
end

