-- ==== Sys2Proof/Machine/Catch.lean ====
section
/-!
DEFINITION. The tick settings, catches and halt requests (chapters 05, 06 and 14): what raising a catch records,
reports and asks for.
-/
namespace Sys2Proof.Machine

/-- T in units of 2^−32 ns (R171). -/
def tickT (p : Part) : Nat := fld p FAB_T_FRAC + fld p FAB_T_NS * 2 ^ 32

/-- N, the steps per tick (R171). -/
def tickN (p : Part) : Nat := fld p FAB_N

/-- E in units of 2^−32 ns (R171). -/
def epochE (p : Part) : Nat :=
  ((fld p FAB_EPOCH_SEC_L + fld p FAB_EPOCH_SEC_H * 2 ^ 32) * 10 ^ 9 + fld p FAB_EPOCH_NSEC) * nsUnit

/-- B(n) = E + n × T (R171). -/
def boundaryAt (p : Part) (n : Nat) : Nat := epochE p + n * tickT p

/-- The sequencer produces boundaries only while T is at least 12 ns (R471). -/
def ticksOn (p : Part) : Bool := decide (12 * nsUnit ≤ tickT p)

/-- The tick whose interval from B(n) to B(n + 1) holds an instant; 0 before E and while there are no boundaries (R172,
R471). -/
def tickAt (p : Part) (x : Nat) : Nat := if ticksOn p && decide (epochE p ≤ x) then (x - epochE p) / tickT p else 0

/-- L of the loaded blank (R146); 0 when none. -/
def blankL (p : Part) : Nat := match p.blank with | some b => b.len | none => 0

/-- Cv of the loaded blank; 0 when none. -/
def blankCv (p : Part) : Nat := match p.blank with | some b => 4 * b.colsPerDie | none => 0

/-- Is the fabric RUNNING? -/
def running (p : Part) : Bool := p.tk.fab == .running

/-- Does the fabric execute the present tick: RUNNING, no halt taking effect at its boundary, and not past the last
tick of a STOP (R51, R52, R183)? -/
def executing (p : Part) : Bool :=
  running p && p.tk.haltDue.isNone && (match p.tk.stopAt with | some u => decide (p.tk.tick ≤ u) | none => true)

/-- The region of a virtual column (R155); none for a column that only a full blank reloads. -/
def regionOfCol (p : Part) (col : Nat) : Option Nat :=
  match p.blank with
  | none => none
  | some b => b.regions.findIdx? (fun r => decide (r.1 ≤ col) && decide (col ≤ r.2))

/-- State of region `k` of the loaded blank. -/
def regionAt (p : Part) (k : Nat) : Region := p.regions.getD k Region.empty

/-- Is a column in a held region: one that is EMPTY, LOADING or HELD (R54)? -/
def colHeld (p : Part) (col : Nat) : Bool :=
  match regionOfCol p col with
  | some k => (regionAt p k).state != .live
  | none => false

/-- Does the present step belong to the blank: 8 to 7 + L of a tick that executes (R23, R29)? -/
def blankStep (p : Part) (s : Nat) : Bool := executing p && decide (8 ≤ s) && decide (s ≤ 7 + blankL p)

/-- Is a part halt in effect (R414, R416)? -/
def partHalted (p : Part) : Bool :=
  match p.tk.halt with
  | some h => h.part
  | none => false

/-- The step in progress at the present device time, for a block catch (R165). -/
def stepNow (p : Part) : Nat :=
  let t := tickT p
  if t = 0 then 0 else min ((p.now - boundaryAt p p.tk.tick) * tickN p / t) (tickN p - 1)

/-- The class codes of R164. -/
def catchCode : CatchClass → Nat
  | .seal => 1 | .imem => 2 | .dmem => 3 | .table => 4 | .slot => 5 | .thermal => 6 | .pin => 7 | .sw => 8 | .version => 9

/-- The policy field of a class (R167, R168). -/
def policyField : CatchClass → FieldRow
  | .seal => FAB_POL_SEAL | .imem => FAB_POL_IMEM | .dmem => FAB_POL_DMEM | .table => FAB_POL_TABLE
  | .slot => FAB_POL_SLOT | .thermal => FAB_POL_THERMAL | .pin => FAB_POL_PIN | .sw => FAB_POL_SW
  | .version => FAB_POL_VERSION

/-- The halt that a class asks for under its policy: none for log and continue (R167). -/
def policyHalt (p : Part) (c : CatchClass) : Option HaltReq :=
  match fld p (policyField c) with
  | 0 => some ⟨true, c⟩
  | 1 => some ⟨false, c⟩
  | _ => none

/-- The more severe of two requests: a part halt before a fabric halt; of equals, the one recognised first (R169). -/
def moreSevere (old : Option HaltReq) (new : HaltReq) : Option HaltReq :=
  match old with
  | none => some new
  | some o => if new.part && !o.part then some new else some o

/-- A halt request is recognised (R412, R413, R417): it waits for the next boundary, unless it changes nothing:
in a part halt, or a fabric-halt request while a fabric halt is in effect or the fabric is OFF (DEDUCED, log 38). -/
def requestHalt (p : Part) (r : HaltReq) : Part :=
  let idle : Bool := match p.tk.halt with
    | some h => h.part || !r.part
    | none => p.tk.fab == .off && !r.part
  if idle then p else { p with tk := { p.tk with haltReq := moreSevere p.tk.haltReq r } }

/-- PLACE_KIND, COL, ROW, IDX and BLOCK of a place (R165). -/
def placeFields : CatchPlace → Nat × Nat × Nat × Nat × Nat
  | .spindle c r i => (0, c, r, i, 0)
  | .router c r => (1, c, r, 0, 0)
  | .table c r => (2, c, r, 0, 0)
  | .block b => (3, 0, 0, 0, b)

/-- The payload of event source 56, and the 24-byte layout of set 2 of COUNTERS_READ (R386). -/
def catchPayload (r : CatchRec) : List (Nat × Nat) :=
  let (kind, col, row, idx, blk) := placeFields r.place
  [(8, r.tick), (4, r.detail), (4, r.step % 2 ^ 20 + catchCode r.cls * 2 ^ 20 + r.flags * 2 ^ 24),
   (1, col), (1, row), (1, idx + kind * 64), (1, blk), (2, r.rep)]

/-- Do two records name the same place, class and tick (R105, R166)? -/
def sameCatch (a b : CatchRec) : Bool := a.cls == b.cls && a.place == b.place && a.tick == b.tick

/-- One further occurrence in the record that names the same place, class and tick (R105). -/
def repeatCatch (r : CatchRec) : List CatchRec → List CatchRec
  | [] => []
  | e :: l => if sameCatch e r then { e with rep := min (e.rep + 1) 65535 } :: l else e :: repeatCatch r l

/-- The step of its tick at which a catch arose: a fetch is checked two steps before the execute step, and an entry
decoded and an operand read one step before; patrol checks at its own step (R32, R58, R62). -/
def checkStep (r : CatchRec) : Nat :=
  if r.flags.testBit 1 then r.step
  else match r.cls with
    | .imem => if r.flags.testBit 0 then r.step - 1 else r.step - 2
    | .dmem => r.step - 1
    | _ => r.step

/-- Does a record of the same tick come after `r` in the order of their checks? -/
def comesAfter (r e : CatchRec) : Bool := e.tick == r.tick && decide (checkStep r < checkStep e)

/-- Put a record in the log, before those of its tick whose checks come later (DEDUCED, log 39). -/
def putCatch (r : CatchRec) : List CatchRec → List CatchRec
  | [] => [r]
  | e :: l => if (e :: l).all (comesAfter r) then r :: e :: l else e :: putCatch r l

/-- Keep, fold or count a catch record (R105, R165, R166, R422). -/
def logCatch (p : Part) (r : CatchRec) : Part :=
  if p.tk.catchLog.any (sameCatch r) then
    { p with tk := { p.tk with catchLog := repeatCatch r p.tk.catchLog } }
  else if 256 ≤ p.tk.catchLog.length then
    if p.tk.catchOvf.any (sameCatch r) then p
    else bumpFld { p with tk := { p.tk with catchOvf := r :: (p.tk.catchOvf.filter (fun e => e.tick == r.tick)) } }
           SVN_CATCH_OVF 1
  else
    let first := !p.tk.classSeen.contains r.cls
    let r := { r with flags := r.flags + (if first then 32 else 0) }
    let p := { p with tk := { p.tk with catchLog := putCatch r p.tk.catchLog,
                                        classSeen := if first then r.cls :: p.tk.classSeen else p.tk.classSeen } }
    let p := raise p 56 (catchPayload r)
    if p.tk.catchLog.length = 256 ∧ p.tk.log154 = false then
      raise { p with tk := { p.tk with log154 := true } } 154 [(4, fld p SVN_CATCH_OVF)]
    else p

/-- Raise a catch: it is recorded, may trigger trace, and its policy applies whether or not the record is kept
(R166, R167). -/
def raiseCatch (p : Part) (c : CatchClass) (place : CatchPlace) (step flags detail : Nat) : Part :=
  let p := logCatch p ⟨c, flags, place, p.tk.tick, step, detail, 0⟩
  let p := if fldOn p TRC_TRIG_CATCH then traceTrigger p 2 0 p.tk.tick else p
  match policyHalt p c with
  | some h => requestHalt p h
  | none => p

/-- A catch of a block class (R421): BLOCK and DETAIL, with the step in progress, or all ones when the fabric is not
RUNNING (R165). -/
def blockCatch (p : Part) (c : CatchClass) (blk detail : Nat) : Part :=
  raiseCatch p c (.block blk) (if running p then stepNow p else 2 ^ 20 - 1) 0 detail

end Sys2Proof.Machine
end

