-- ==== Sys2Proof/Machine/Host.lean ====
section
/-!
DEFINITION. The host interface (chapter 13): DMA windows, rings, pickup of commands, completions, interrupt messages,
readout-ring records, power management, and the meanings of the rows that drive them.
-/
namespace Sys2Proof.Machine

/-- The code of a completion status (R17). -/
def Status.code : Status → Nat
  | .ok => 0x00 | .errOpcode => 0x01 | .errParam => 0x02 | .errWindow => 0x03 | .errState => 0x04
  | .errAdmit => 0x05 | .errVersion => 0x06 | .errTimeout => 0x07 | .errHalted => 0x08
  | .errIntegrity => 0x09 | .errAuth => 0x0A | .errOtpFull => 0x0B | .errAborted => 0x0C

/-- The key under which the counts of a ring are kept. -/
def ringKey : RingId → Nat
  | .cmd i => i.val
  | .cpl i => 16 + i.val
  | .evt => 32
  | .rdo k => 64 + k.val

/-- The kind of a ring as event source 168 reports it (R388). -/
def ringKind : RingId → Nat
  | .cmd _ => 0 | .cpl _ => 1 | .evt => 2 | .rdo _ => 3

/-- The number of a ring among those of its kind. -/
def ringNum : RingId → Nat
  | .cmd i => i.val | .cpl i => i.val | .evt => 0 | .rdo k => k.val

/-- Is the ring enabled? -/
def ringEn (p : Part) : RingId → Bool
  | .cmd i => fldI p HIF_CMD_EN i == 1
  | .cpl i => fldI p HIF_CPL_EN i == 1
  | .evt => fld p HIF_EVT_EN == 1
  | .rdo k => fldI p HIF_RDO_EN k == 1

/-- The size S of a ring: entries, or bytes for a readout ring (R372). -/
def ringSize (p : Part) : RingId → Nat
  | .cmd i => 2 ^ fldI p HIF_CMD_LOG2 i
  | .cpl i => 2 ^ fldI p HIF_CPL_LOG2 i
  | .evt => 2 ^ fld p HIF_EVT_LOG2
  | .rdo k => 2 ^ fldI p HIF_RDO_LOG2 k

/-- A 4 KiB-aligned base from its two fields. -/
def baseOf (p : Part) (l h : FieldRow) (i : Nat) : Nat := fldI p l i * 4096 + fldI p h i * 2 ^ 32

/-- The base address of a ring. -/
def ringBase (p : Part) : RingId → Nat
  | .cmd i => baseOf p HIF_CMD_ADDR_LO HIF_CMD_ADDR_HI i
  | .cpl i => baseOf p HIF_CPL_ADDR_LO HIF_CPL_ADDR_HI i
  | .evt => baseOf p HIF_EVT_ADDR_LO HIF_EVT_ADDR_HI 0
  | .rdo k => baseOf p HIF_RDO_ADDR_LO HIF_RDO_ADDR_HI k

/-- Bytes of an entry of a ring (R372). -/
def entrySize : RingId → Nat
  | .cmd _ => 64 | .cpl _ => 16 | .evt => 32 | .rdo _ => 1

/-- The part's own count of a ring: descriptors picked up, or entries or bytes produced. -/
def partCount (p : Part) (r : RingId) : Nat := smapGet (fun _ => 0) p.host.partCount (ringKey r)

/-- The host's count of a ring as last read: descriptors posted, or entries or bytes consumed. -/
def hostCount (p : Part) (r : RingId) : Nat := smapGet (fun _ => 0) p.host.hostCount (ringKey r)

/-- Completion slots of a ring reserved by commands picked up and not yet completed (R375). -/
def reservedSlots (p : Part) (c : Nat) : Nat := smapGet (fun _ => 0) p.host.reserved c

/-- Has the ring stopped on a fault (R388, source 168)? -/
def ringStopped (p : Part) (r : RingId) : Bool := smapGet (fun _ => false) p.host.stopped (ringKey r)

/-- Set the part's count of a ring. -/
def setPartCount (p : Part) (r : RingId) (n : Nat) : Part :=
  { p with host := { p.host with partCount := smapSet (fun _ => 0) p.host.partCount (ringKey r) n } }

/-- Record the host's count of a ring as a poll batch read it. -/
def setHostCount (p : Part) (r : RingId) (n : Nat) : Part :=
  { p with host := { p.host with hostCount := smapSet (fun _ => 0) p.host.hostCount (ringKey r) n } }

/-- Set the reserved slots of a completion ring. -/
def setReserved (p : Part) (c n : Nat) : Part :=
  { p with host := { p.host with reserved := smapSet (fun _ => 0) p.host.reserved c n } }

/-- Is the part in D3hot (R393)? -/
def inD3 (p : Part) : Bool := fld p HIF_DSTATE == 3

/-- May the part issue DMA: the endpoint out of reset, the link up, Bus Master Enable set, in D0 (R370, R393)? -/
def dmaOk (p : Part) : Bool := p.host.endpointUp && p.host.linkUp && p.host.pci.busMaster && !inD3 p

/-- The direction of a DMA: the part reads host memory, or writes it. -/
inductive DmaDir where
  | read | write
  deriving DecidableEq, Repr

/-- Does window `w` hold the whole of an access for its direction (R390)? -/
def windowHolds (p : Part) (dir : DmaDir) (addr len w : Nat) : Bool :=
  let base := baseOf p HIF_WIN_ADDR_LO HIF_WIN_ADDR_HI w
  let bytes := fldI p HIF_WIN_PAGES w * 4096
  (match dir with | .read => fldI p HIF_WIN_RD w == 1 | .write => fldI p HIF_WIN_WR w == 1) &&
  decide (bytes ≠ 0) && decide (base ≤ addr) && decide (addr + len ≤ base + bytes)

/-- Does an access lie entirely inside one window that allows its direction (R390)? -/
def inWindow (p : Part) (dir : DmaDir) (addr len : Nat) : Bool :=
  (List.range 16).any (fun w => windowHolds p dir addr len w)

/-- Write bytes into host memory (DESIGN CHOICE, log 6). -/
def hostWrite (p : Part) (addr : Nat) (bytes : List Byte) : Part :=
  { p with host := { p.host with
      mem := smapSetMany (fun _ => 0) p.host.mem (bytes.zipIdx.map (fun (b, i) => (addr + i, b))) } }

/-- The entry of an MSI-X vector (R371). -/
def msixEntry (p : Part) (v : Nat) : MsixEntry := smapGet (fun _ => MsixEntry.init) p.host.msix v

/-- Send the message of an MSI-X vector (R391); a masked vector sets its bit of the Pending Bit Array, and while the part
may send none the message waits (R392, R393). -/
def sendVector (p : Part) (v : Nat) : Part :=
  if (msixEntry p v).masked then
    { p with host := { p.host with vecPending := smapSet (fun _ => false) p.host.vecPending v true } }
  else if dmaOk p then
    { p with host := { p.host with
        vecSent := smapSet (fun _ => 0) p.host.vecSent v (smapGet (fun _ => 0) p.host.vecSent v + 1),
        vecPending := smapSet (fun _ => false) p.host.vecPending v false } }
  else { p with host := { p.host with vecDue := smapSet (fun _ => false) p.host.vecDue v true } }

/-- The messages that waited for the link and D0 are sent. -/
def sendDue (p : Part) : Part :=
  p.host.vecDue.foldl (fun p e => sendVector p e.1) { p with host := { p.host with vecDue := [] } }

/-- What a read of BAR2 returns (R371): the MSI-X table of 16-byte entries, the Pending Bit Array, 0 elsewhere; no row of
the table reads it. -/
def bar2View (p : Part) (off : Nat) : Nat :=
  if off < 0x400 then
    let e := msixEntry p (off / 16)
    match off % 16 / 4 with
    | 0 => e.addr.toNat % 2 ^ 32
    | 1 => e.addr.toNat / 2 ^ 32
    | 2 => e.data.toNat
    | _ => if e.masked then 1 else 0
  else if off / 8 = 0x200 then
    ((List.range 32).map (fun i => if smapGet (fun _ => false) p.host.vecPending (off % 8 / 4 * 32 + i) then 2 ^ i else 0)).sum
  else 0

/-- VECTOR, IRQ_EN, MOD_COUNT and MOD_NS of a ring that signals (R391, R392); none for a command ring. -/
def ringIrq (p : Part) : RingId → Option (Nat × Bool × Nat × Nat)
  | .cmd _ => none
  | .cpl i => some (fldI p HIF_CPL_VECTOR i, fldI p HIF_CPL_IRQ_EN i == 1, fldI p HIF_CPL_MOD_COUNT i, fldI p HIF_CPL_MOD_NS i)
  | .evt => some (fld p HIF_EVT_VECTOR, fld p HIF_EVT_IRQ_EN == 1, fld p HIF_EVT_MOD_COUNT, fld p HIF_EVT_MOD_NS)
  | .rdo k => some (fldI p HIF_RDO_VECTOR k, fldI p HIF_RDO_IRQ_EN k == 1, fldI p HIF_RDO_MOD_COUNT k, fldI p HIF_RDO_MOD_NS k)

/-- Entries or records written to a ring since its last message. -/
def unsignalled (p : Part) (r : RingId) : Nat := smapGet (fun _ => 0) p.host.unsignalled (ringKey r)

/-- Set the entries written since the last message. -/
def setUnsignalled (p : Part) (r : RingId) (n : Nat) : Part :=
  { p with host := { p.host with unsignalled := smapSet (fun _ => 0) p.host.unsignalled (ringKey r) n } }

/-- An entry or record has been written to a ring: the count rule of R392. -/
def signalRing (p : Part) (r : RingId) : Part :=
  match ringIrq p r with
  | none => p
  | some (v, en, cnt, _) =>
    let p := setUnsignalled p r (unsignalled p r + 1)
    if en && decide (cnt ≤ unsignalled p r) then setUnsignalled (sendVector p v) r 0 else p

/-- The phase bit of entry `n` of a ring of `size` entries (R374). -/
def phaseOf (n size : Nat) : Bool := n / size % 2 == 0

/-- The 16 bytes of a completion entry (R383). -/
def cplBytes (e : CplEntry) (phase : Bool) : List Byte :=
  leBytes 2 e.tag.toNat ++ leBytes 1 e.status.code ++
  leBytes 1 ((if phase then 1 else 0) + e.ring.val * 2) ++ leBytes 4 e.aux ++ leBytes 8 e.result

/-- Write a completion entry into its ring and signal it (R378, R383): the slot its command reserved is filled. -/
def writeCpl (p : Part) (e : CplEntry) : Part :=
  let r := RingId.cpl e.cpl
  let n := partCount p r
  let p := hostWrite p (ringBase p r + n % ringSize p r * 16) (cplBytes e (phaseOf n (ringSize p r)))
  let p := setPartCount p r (n + 1)
  let p := setReserved p e.cpl.val (reservedSlots p e.cpl.val - 1)
  signalRing p r

/-- Deliver a completion entry, or hold it on die while the part may issue no DMA or its ring has stopped
(R370, R393), or is not enabled, since only an enabled ring is known to lie in a window (R390) (DESIGN CHOICE, log 23). -/
def deliverCpl (p : Part) (e : CplEntry) : Part :=
  if dmaOk p && ringEn p (.cpl e.cpl) && !ringStopped p (.cpl e.cpl) then writeCpl p e
  else { p with host := { p.host with heldCpl := p.host.heldCpl ++ [e] } }

/-- Take the first entry that passes a test out of a list. -/
def eraseFirst (t : Inflight → Bool) : List Inflight → List Inflight
  | [] => []
  | e :: l => if t e then l else e :: eraseFirst t l

/-- Take a command out of the list of commands in flight: one begun with this descriptor, before one that waits. -/
def dropInflight (h : Hdr) (l : List Inflight) : List Inflight :=
  if l.any (fun e => e.hdr == h && e.begun && !e.waits) then eraseFirst (fun e => e.hdr == h && e.begun && !e.waits) l
  else eraseFirst (fun e => e.hdr == h && e.begun) l

/-- Complete a command with a status and the AUX and RESULT of its entry (R383, R384). -/
def complete (p : Part) (h : Hdr) (st : Status) (aux result : Nat) : Part :=
  deliverCpl { p with host := { p.host with inflight := dropInflight h p.host.inflight } }
    ⟨h.cpl, h.tag, st, h.ring, aux % 2 ^ 32, result % 2 ^ 64⟩

/-- Complete with a status alone. -/
def completeSt (p : Part) (h : Hdr) (st : Status) : Part := complete p h st 0 0

/-- Complete several commands alike. -/
def completeAll (p : Part) (hs : List Hdr) (st : Status) (result : Nat) : Part :=
  hs.foldl (fun p h => complete p h st 0 result) p

/-- The opcodes of R380. -/
def opcodeKnown (op : Nat) : Bool :=
  [0x00, 0x01, 0x02, 0x03, 0x04, 0x05, 0x06, 0x07, 0x10, 0x18, 0x19, 0x1A, 0x20, 0x21, 0x28, 0x30, 0x31, 0x32,
   0x38, 0x40, 0x48, 0x50, 0x51, 0x58].contains op

/-- Has the time come for a command to begin, after those picked up before it, `seen` (R130, R377)? Each of its ring has
begun, and with FENCE has completed; for a TABLE_WRITE each earlier TABLE_WRITE has begun. -/
def turnOf (seen : List Inflight) (e : Inflight) : Bool :=
  seen.all (fun x => (x.hdr.ring != e.hdr.ring || (x.begun && !e.hdr.fence)) &&
    (e.op != 0x51 || x.op != 0x51 || x.begun))

/-- May a command begin or go on, given those picked up before the rest of the list? -/
def mayBeginAfter (h : Hdr) (op : Nat) : List Inflight → List Inflight → Bool
  | _, [] => false
  | seen, e :: l =>
    if e.hdr == h && e.op == op && e.waits then true
    else if e.hdr == h && e.op == op && !e.begun then turnOf seen e
    else (e.begun || !turnOf seen e) && mayBeginAfter h op (seen ++ [e]) l

/-- May a command begin (R377)? It has been picked up and has not begun, its turn has come, and every command picked up
before it has begun, but for those that FENCE holds back (DESIGN CHOICE, log 27). One that has begun and waits goes on. -/
def mayBegin (h : Hdr) (op : Nat) (l : List Inflight) : Bool := mayBeginAfter h op [] l

/-- Mark the first matching command as begun, or as going on. -/
def markBegun (h : Hdr) (op : Nat) : List Inflight → List Inflight
  | [] => []
  | e :: l =>
    if e.hdr == h && e.op == op && (!e.begun || e.waits) then { e with begun := true, waits := false } :: l
    else e :: markBegun h op l

/-- Mark a command that has begun as waiting. -/
def markWaits (h : Hdr) : List Inflight → List Inflight
  | [] => []
  | e :: l => if e.hdr == h && e.begun && !e.waits then { e with waits := true } :: l else e :: markWaits h l

/-- A command that has begun waits, with its row, for a self-test to end or for DMA (R370, R433). -/
def holdCmd (p : Part) (i : Instr) (h : Hdr) : Part :=
  { p with host := { p.host with inflight := markWaits h p.host.inflight }
           svn := { p.svn with waiting := p.svn.waiting ++ [.command i h] } }

/-- Is a waiter a command of those that `t` names? -/
def Waiter.held (t : Hdr → Bool) : Waiter → Bool
  | .command _ h => t h
  | .packet _ => false

/-- The waiting commands that `t` names wait no more. -/
def unholdCmds (p : Part) (t : Hdr → Bool) : Part :=
  { p with host := { p.host with inflight := p.host.inflight.map (fun e => { e with waits := e.waits && !t e.hdr }) }
           svn := { p.svn with waiting := p.svn.waiting.filter (fun w => !w.held t) } }

/-- The commands that have begun and wait. -/
def heldCmds (p : Part) (t : Hdr → Bool) : List Hdr := (p.host.inflight.filter (fun e => e.waits && t e.hdr)).map (·.hdr)

/-- The entry of a command that has begun. -/
def entryOf (p : Part) (h : Hdr) : Option Inflight := p.host.inflight.find? (fun e => e.hdr == h && e.begun && !e.waits)

/-- What the part found as it picked up a command that has begun. -/
def foundOf (p : Part) (h : Hdr) : Found :=
  match entryOf p h with | some e => e.found | none => ⟨p.tk.tick, false, false, [], false⟩

/-- The tick in which a command was picked up (R210, R375). -/
def pickupTick (p : Part) (h : Hdr) : Nat := (foundOf p h).tick

/-- Does a command need DMA or the fabric (R393) (DESIGN CHOICE, log 27)? Of TRACE_CTRL, DRAIN and AUTH do. -/
def needsDmaOrFabric (h : Hdr) : Bool :=
  [0x01, 0x02, 0x03, 0x04, 0x05, 0x06, 0x19, 0x48, 0x50, 0x51, 0x58].contains h.op ||
  (h.op == 0x28 && (h.traceAction == 4 || h.traceAction == 5))

/-- The part with a command marked as begun. -/
def begun (p : Part) (h : Hdr) (op : Nat) : Part :=
  { p with host := { p.host with inflight := markBegun h op p.host.inflight } }

/-- A command of a ring begins (R377): nothing happens while it may not; in a part halt it completes with
ERR_HALTED (R180, R378) unless it is one of the two that still run; in D3hot one that needs DMA or the fabric ends with
ERR_ABORTED (R393); otherwise `act` decides. -/
def beginRaw (p : Part) (h : Hdr) (op : Nat) (inHalt : Bool) (act : Part → Part) : Part :=
  if mayBegin h op p.host.inflight then
    let p := begun p h op
    if partHalted p && !inHalt then completeSt p h .errHalted
    else if inD3 p && needsDmaOrFabric h then completeSt p h .errAborted
    else act p
  else p

/-- A command begins; with a reserved bit nonzero it completes with ERR_PARAM (R16), otherwise it does what its
opcode says. -/
def beginCmd (p : Part) (h : Hdr) (op : Nat) (inHalt : Bool) (act : Part → Part) : Part :=
  beginRaw p h op inHalt (fun p => if h.rsv then completeSt p h .errParam else act p)

/-- Refuse a descriptor whose buffer lies outside the windows (R390, R384): counted, reported by event source 170,
completed with ERR_WINDOW. -/
def refuseWindow (p : Part) (h : Hdr) (op addr len : Nat) : Part :=
  let p := bumpFld p HIF_WIN_COUNT 1
  let p := raise p 170 [(1, 0), (1, h.ring.val), (1, op), (2, h.tag.toNat), (8, addr)]
  complete p h .errWindow len addr

/-- A command with a buffer: refused with ERR_WINDOW unless the buffer lies in a window for its direction (R390); it
waits while the part may issue no DMA (R370) (DESIGN CHOICE, log 27). -/
def withBuffer (p : Part) (i : Instr) (h : Hdr) (dir : DmaDir) (addr len : Nat) (act : Part → Part) : Part :=
  if !inWindow p dir addr len then refuseWindow p h h.op addr len
  else if dmaOk p then act p else holdCmd p i h

/-- Count and report a refusal of R390 that no descriptor caused. -/
def refuseOther (p : Part) (kase addr : Nat) : Part :=
  raise (bumpFld p HIF_WIN_COUNT 1) 170
    [(1, Config.refusalField (4 * kase)), (1, Config.refusalField (4 * kase + 1)), (1, Config.refusalField (4 * kase + 2)),
     (2, Config.refusalField (4 * kase + 3)), (8, addr)]

/-! ### Polling and pickup -/

/-- The base of the writeback page. -/
def wbBase (p : Part) : Nat := baseOf p HIF_WB_ADDR_LO HIF_WB_ADDR_HI 0

/-- Is a byte of the writeback page part of a word that R372 does not name? -/
def wbReserved (o : Nat) : Bool := decide (o < 4096) && !(decide (o < 0x80) || (decide (0x180 ≤ o) && decide (o < 0x280)))

/-- Write a word of the writeback page; the reserved words of the page are 0 (R372). A page that lies in no window, as it may
while polling is off, is not written: the refusal counts and is reported (R390). -/
def writeWb (p : Part) (off v : Nat) : Part :=
  let b := wbBase p
  if !inWindow p .write b 4096 then refuseOther p 1 b else
  let mem := smapFilter (fun a => !(decide (b ≤ a) && wbReserved (a - b))) p.host.mem
  hostWrite { p with host := { p.host with mem := mem } } (b + off) (leBytes 8 v)

/-- Write the new head of a command ring into its writeback word (R378). -/
def writeHead (p : Part) (i : Fin 16) : Part :=
  if dmaOk p then writeWb p (8 * i.val) (partCount p (.cmd i)) else p

/-- Free slots of a completion ring as R375 counts them. -/
def cplFree (p : Part) (c : Fin 16) : Nat :=
  hostCount p (.cpl c) + ringSize p (.cpl c) - partCount p (.cpl c) - reservedSlots p c.val

/-- The TABLE_WRITE commands held (R131): from their pickup until they are applied, refused or aborted. -/
def tablesHeld (p : Part) : Nat :=
  p.gr.held.length + (p.host.inflight.filter (fun e => e.op == 0x51 && (!e.begun || e.waits))).length

/-- The TABLE_WRITE hold of R131: 16 are held. -/
def tableHold (p : Part) : Bool :=
  decide (16 ≤ tablesHeld p)

/-- R380: the NOP command completes with OK. -/
def nopCommand (h : Hdr) (p : Part) : Part := beginCmd p h 0x00 false (fun p => completeSt p h .ok)

/-- R387: the front of the event queue goes into the event ring while the ring has a free slot. -/
def eventRingWrite (p : Part) : Part :=
  match p.host.events with
  | [] => p
  | e :: rest =>
    let n := partCount p .evt
    let size := ringSize p .evt
    if dmaOk p && ringEn p .evt && !ringStopped p .evt && decide (n < hostCount p .evt + size) then
      let p := hostWrite p (ringBase p .evt + n % size * 32) (eventBytes e (phaseOf n size) (p.host.evtSeq % 65536))
      let p := setPartCount p .evt (n + 1)
      signalRing { p with host := { p.host with events := rest, evtSeq := p.host.evtSeq + 1, evtHeld := p.host.evtHeld - 1 } } .evt
    else p

/-- R392: an entry has waited MOD_NS without a message. -/
def moderationTimeout (r : RingId) (p : Part) : Part :=
  match ringIrq p r with
  | some (v, true, _, ns) =>
    if ns ≠ 0 ∧ 0 < unsignalled p r then setUnsignalled (sendVector p v) r 0 else p
  | _ => p

/-- R371, R392: the host writes an entry of the MSI-X table with its mask clear; a pending message is sent. -/
def msixUnmask (v : Fin 64) (addr : BitVec 64) (data : BitVec 32) (p : Part) : Part :=
  let p := { p with host := { p.host with
    msix := smapSet (fun _ => MsixEntry.init) p.host.msix v.val ⟨addr, data, false⟩ } }
  if smapGet (fun _ => false) p.host.vecPending v.val then sendVector p v.val else p

/-- R388: a completion ring has blocked pickup for 1 ms. -/
def completionBlockTimeout (c : Fin 16) (p : Part) : Part :=
  if ringEn p (.cpl c) && decide (cplFree p c = 0) &&
     (List.range 16).any (fun i => fldI p HIF_CMD_WAIT_CPL i == 1) then raise p 171 [(1, c.val)] else p

/-- R388: a DMA fault stops a ring; cause 1 is a completer abort, 2 an unsupported request or poisoned data. -/
def ringFault (r : RingId) (poisoned : Bool) (p : Part) : Part :=
  if ringEn p r && !ringStopped p r then
    raise { p with host := { p.host with stopped := smapSet (fun _ => false) p.host.stopped (ringKey r) true } }
      168 [(1, ringKind r), (1, ringNum r), (1, if poisoned then 2 else 1)]
  else p

/-! ### Readout rings -/

/-- What a write of a record into a readout ring did (R389). -/
inductive RingPut where
  | written (p : Part)
  | waits
  | tooLong (p : Part)

/-- The bytes of a pad record up to the end of the ring: TYPE 0x0000, FLAGS 0, LENGTH (R389); the rest is not
written. -/
def padBytes (len : Nat) : List Byte := leBytes 2 0 ++ leBytes 2 0 ++ leBytes 4 len

/-- Write a record, a multiple of 8 bytes, whole into readout ring `k`, then the produced count that covers it
(R378, R389). `typ` is its TYPE for event source 175. A record for a ring that is not enabled waits (DESIGN CHOICE, log 44). -/
def rdoPut (p : Part) (k : Fin 32) (typ : Nat) (bytes : List Byte) : RingPut :=
  let r := RingId.rdo k
  let size := ringSize p r
  let len := bytes.length
  if size / 2 < len ∧ ringEn p r = true ∧ partHalted p = false then .tooLong (raise p 175 [(1, k.val), (2, typ), (4, len)])
  else
    let n := partCount p r
    let at0 := n % size
    let pad := if at0 + len ≤ size then 0 else size - at0
    if !(dmaOk p && ringEn p r && !ringStopped p r && !partHalted p) ||
       decide (hostCount p r + size < n + pad + len) then .waits
    else
      let p := if pad = 0 then p else hostWrite p (ringBase p r + at0) (padBytes pad)
      let p := hostWrite p (ringBase p r + (n + pad) % size) bytes
      let p := setPartCount p r (n + pad + len)
      let p := writeWb p (0x180 + 8 * k.val) (n + pad + len)
      .written (signalRing p r)

/-! ### Link, power states and wakes -/

/-- Write the completions held on die whose ring can take them, oldest first (R394). -/
def flushHeld (p : Part) : Part :=
  let held := p.host.heldCpl
  held.foldl deliverCpl { p with host := { p.host with heldCpl := [] } }

/-- The values of configuration space that never change (R369); no row of the table reads them. -/
def pciFixed : PciFixed where
  vendorId := Config.vendorId
  deviceId := 0x7E02
  classCode := 0x118000
  payloadMax := 512
  readRequestMax := 4096
  tags := 768
  vectors := 64
  ecrc := true
  noSoftReset := true
  pmeFromD3hot := true
  d1d2 := false
  aspmL1 := true

/-- R370: a link-down or hot reset without PERST_N resets PCI configuration space and the MSI-X table, and stops DMA
and polling until Bus Master Enable is set again. -/
def resetConfig (p : Part) : Part :=
  { p with host := { p.host with pci := .init, batches := [], msix := [], vecPending := [], vecDue := [] } }

/-- R370: Bus Master Enable is set: DMA and polling resume, and what was held is written. -/
def busMasterEnable (p : Part) : Part :=
  if p.host.endpointUp && p.host.linkUp then
    sendDue (flushHeld { p with host := { p.host with pci := { p.host.pci with busMaster := true } } })
  else p

/-- R369: the link settles at a rate (0 is link down) and width. Event source 169 reports every change; `down` is what a
link-down does. -/
def linkChange (down : Part → Part) (rate : Fin 7) (width : Fin 17) (p : Part) : Part :=
  if !p.host.endpointUp then p
  else
    let up := decide (rate.val ≠ 0)
    let p := setFld (setFld p HIF_LINK_RATE rate.val) HIF_LINK_WIDTH (if up then width.val else 0)
    let p := if up then { p with host := { p.host with linkUp := true } }
             else down { p with host := { p.host with linkUp := false } }
    raise p 169 [(1, rate.val), (1, if up then width.val else 0), (1, if up then 1 else 0)]

/-- R388: Advanced Error Reporting logs an error of a kind (0 correctable, 1 non-fatal, 2 fatal) with its status
register. -/
def aerError (kind : Fin 3) (status : BitVec 32) (p : Part) : Part :=
  let old := p.host.pci.aerStatus
  let new := smapSet (fun _ => 0) old kind.val (smapGet (fun _ => 0) old kind.val ||| status.toNat)
  raise { p with host := { p.host with pci := { p.host.pci with aerStatus := new } } }
    174 [(1, kind.val), (4, status.toNat)]

/-- R395: a wake in D3hot, with its cause (0 receive group, 1 ACCEPT_IN, 2 time alarm, 3 monitor alarm) and group:
it counts when its source is enabled and no wake is pending (DESIGN CHOICE, log 31). -/
def wakeBy (cause group : Nat) (p : Part) : Part :=
  let enabled := match cause with
    | 0 => (fld p HIF_WAKE_RXG).testBit group
    | 1 => fldOn p HIF_WAKE_ACC
    | 2 => fldOn p HIF_WAKE_ALARM
    | _ => fldOn p HIF_WAKE_MON
  if inD3 p && enabled && fld p HIF_PME_PENDING == 0 then
    let p := setFld (setFld (setFld p HIF_WAKE_SRC cause) HIF_WAKE_GRP group) HIF_WAKE_VALID 1
    let p := setFld (setFld p HIF_WAKE_SUPERSEDED 0) HIF_PME_PENDING 1
    { p with host := { p.host with pmeSent := p.host.pci.pmeEn, pci := { p.host.pci with pmeStatus := true } } }
  else p

/-- R396: the part enters D0 while a wake is pending: event source 172 is written, with SUPERSEDED when the PME was
not sent and is dropped. -/
def reportWake (p : Part) : Part :=
  if fld p HIF_PME_PENDING == 1 then
    let dropped := !p.host.pmeSent
    let p := setFld (setFld p HIF_PME_PENDING 0) HIF_WAKE_SUPERSEDED (if dropped then 1 else 0)
    let p := if dropped then { p with host := { p.host with pci := { p.host.pci with pmeStatus := false } } } else p
    queueEvent p ⟨172, dropped, false, nsOf p.now, [(1, fld p HIF_WAKE_SRC), (1, fld p HIF_WAKE_GRP)]⟩
  else p

end Sys2Proof.Machine
end

