-- ==== Sys2Proof/Machine/Otp.lean ====
section
/-!
DEFINITION. The OTP records (R440 to R443), what they set (R442, R215, R358), and which units are present (R430, R432).
-/
namespace Sys2Proof.Machine

/-- Area base, payload bytes, slot bytes and slots of a record type (R440). -/
def otpArea (k : Nat) : Nat × Nat × Nat × Nat :=
  match k with
  | 0 => (0x000, 32, 48, 1)
  | 1 => (0x030, 8, 24, 4)
  | 2 => (0x090, 116, 128, 4)
  | 3 => (0x290, 32, 48, 4)
  | 4 => (0x350, 4, 16, 4)
  | 5 => (0x390, 4, 16, 4)
  | 6 => (0x3D0, 4, 16, 4)
  | 7 => (0x410, 4, 16, 4)
  | 8 => (0x450, 4, 16, 4)
  | _ => (0x490, 0, 0, 0)

/-- Bytes of the OTP from an offset. -/
def otpRange (m : SMap Byte) (off n : Nat) : List Byte := (List.range n).map (fun i => smapGet (fun _ => 0) m (off + i))

/-- The bytes of slot `g` of a type. -/
def otpSlot (m : SMap Byte) (k g : Nat) : List Byte :=
  let (base, _, size, _) := otpArea k
  otpRange m (base + g * size) size

/-- A slot is used when any of its bits is 1 (R441). -/
def otpUsed (m : SMap Byte) (k g : Nat) : Bool := (otpSlot m k g).any (fun b => b != 0)

/-- The slots of a type that are used. -/
def otpUsedCount (m : SMap Byte) (k : Nat) : Nat :=
  ((List.range (otpArea k).2.2.2).filter (fun g => otpUsed m k g)).length

/-- Do the bytes of a slot hold generation `g` of a type: TYPE, LENGTH and GEN match and the CRC checks (R441)? -/
def otpBytesOk (k g : Nat) (b : List Byte) : Bool :=
  let n := (otpArea k).2.1
  leAt b 0 2 == k && leAt b 2 2 == n && leAt b 4 1 == g && leAt b (8 + n) 4 == crc32 (b.take (8 + n))

/-- The generation in force: the highest-numbered valid slot (R441); none when the record is absent. -/
def otpInForce (m : SMap Byte) (k : Nat) : Option Nat :=
  (List.range (otpArea k).2.2.2).reverse.find? (fun g => otpBytesOk k g (otpSlot m k g))

/-- The payload in force of a type. -/
def otpPayload (m : SMap Byte) (k : Nat) : Option (List Byte) :=
  (otpInForce m k).map (fun g => ((otpSlot m k g).drop 8).take (otpArea k).2.1)

/-- `n` bytes at an offset of the payload in force, or `dflt` when the record is absent. -/
def otpField (m : SMap Byte) (k off n dflt : Nat) : Nat :=
  match otpPayload m k with
  | some b => leAt b off n
  | none => dflt

/-- The bytes of a slot that holds a payload as generation `g` (R441). -/
def otpRecord (k g : Nat) (payload : List Byte) : List Byte :=
  let head := leBytes 2 k ++ leBytes 2 payload.length ++ leBytes 1 g ++ leBytes 3 0 ++ payload
  fitBytes (otpArea k).2.2.1 (head ++ leBytes 4 (crc32 head))

/-- Program bits: an OTP bit once 1 stays 1. -/
def otpProgram (m : SMap Byte) (off : Nat) (bytes : List Byte) : SMap Byte :=
  smapSetMany (fun _ => 0) m (bytes.zipIdx.map (fun (b, i) => (off + i, smapGet (fun _ => 0) m (off + i) ||| b)))

/-- Is physical column `g` = 9 × die + j good (R442)? Every column is bad without a column map. -/
def colGood (p : Part) (g : Nat) : Bool := (otpField p.boot.otpRead 1 0 8 0).testBit g

/-- The stepping code of silicon revision A1 (R381). -/
def stepping : Nat := 0x11

/-- ORDER as QUERY gives it: 1 TN2-A64-20E, 2 TN2-A64-17E, 3 TN2-B56-17E. -/
def orderOf (p : Part) : Nat := otpField p.boot.otpRead 0 8 1 0

/-- Is the part a TN2-B56-17E? -/
def isB56 (p : Part) : Bool := orderOf p == 3

/-- The configuration address (R215). -/
def cfgAddress (p : Part) : Nat :=
  match otpPayload p.boot.otpRead 5 with
  | none => p.boot.pins % 64
  | some b => natBits (leAt b 0 4) 6 6 * 64 + (if natBits (leAt b 0 4) 12 1 = 1 then natBits (leAt b 0 4) 0 6 else p.boot.pins % 64)

/-- The minimum firmware in force (R442). -/
def minFirmware (p : Part) : Nat := otpField p.boot.otpRead 7 0 4 0

/-- The registers whose reset value comes from the OTP (R328, R358, R442), as stage 2 sets them. -/
def otpRegs (p : Part) : Part :=
  let m := p.boot.otpRead
  let p := setFld p SYS_PWR_LIMIT (natBits (otpField m 6 0 4 4000) 0 16)
  let p := (List.range 16).foldl (fun p g =>
    setFldI (setFldI p TIM_LRX_ING_PS g (otpField m 2 (4 * g) 4 0)) TIM_LTX_TRIM_PS g (otpField m 2 (0x40 + 2 * g) 2 0)) p
  let p := (List.range 2).foldl (fun p i =>
    setFldI (setFldI p PTP_ING_PS i (otpField m 2 (0x60 + 8 * i) 4 0)) PTP_EGR_PS i (otpField m 2 (0x64 + 8 * i) 4 0)) p
  let p := setFld p TIM_PPSI_ING_PS (otpField m 2 0x70 4 0)
  let pol := otpField m 8 0 4 0
  let force := natBits pol 0 1 == 1
  let p := setFld p SEAL_ENC_FORCED (if force then 1 else 0)
  setFld p SEAL_ENC_EN (if natBits pol 1 1 = 1 ∧ force = false then 0 else 1)

/-! ### Units -/

/-- The result of self-test `i` (R432): 0 not run or absent, 1 running, 2 passed, 3 failed. -/
def testOf (p : Part) (i : Nat) : Nat := smapGet (fun _ => 0) p.boot.tests i

/-- Record the result of a self-test. -/
def setTest (p : Part) (i v : Nat) : Part :=
  { p with boot := { p.boot with tests := smapSet (fun _ => 0) p.boot.tests i v } }

/-- Is fabric die `d` powered and does its die-to-die interface answer (R430)? -/
def diePowered (p : Part) (d : Nat) : Bool := !p.boot.noFab && p.boot.dies.testBit d

/-- Is fabric die `d` present: powered, and its self-test passed? -/
def diePresent (p : Part) (d : Nat) : Bool := diePowered p d && testOf p d == 2

/-- The self-tests that a subsystem needs (R432): of the fabric, those of the dies that answer, since one that does not
is absent by itself (R430). -/
def testsOf (p : Part) (n : Nat) : List Nat :=
  if 1 ≤ n ∧ n ≤ 5 then (List.range 4).filter (diePowered p) else if n = 9 then [4] else if n = 10 then [5] else if n = 17 then [6]
  else if n = 20 then [7] else if n = 13 then [8, 9] else []

/-- Are the rails of a subsystem above half their nominal voltage (R430)? -/
def unitPowered (p : Part) (n : Nat) : Bool :=
  if 1 ≤ n ∧ n ≤ 5 then !p.boot.noFab
  else if n = 8 then !p.boot.noSrd
  else if n = 9 ∨ n = 10 ∨ n = 12 ∨ n = 13 then !p.boot.noHbm
  else true

/-- Is a subsystem absent: unpowered, or a self-test of it failed (R430, R432)? (DEDUCED, log 46) -/
def unitAbsent (p : Part) (n : Nat) : Bool := !unitPowered p n || (testsOf p n).any (fun i => testOf p i == 3)

/-- Does a self-test of a subsystem run now? Those of the stacks fall under R201 (R432). -/
def unitTesting (p : Part) (n : Nat) : Bool := (testsOf p n).any (fun i => decide (i < 8) && testOf p i == 1)

/-- Bit n of PRESENT: subsystem n is powered and has passed its self-test, from stage 2 on (R381, R430). -/
def unitPresent (p : Part) (n : Nat) : Bool :=
  decide (3 ≤ p.boot.stage) && unitPowered p n && (testsOf p n).all (fun i => testOf p i == 2)

/-- Is HBM stack `k` READY (R426)? -/
def stackReady (p : Part) (k : Nat) : Bool := (if k = 0 then p.boot.stack0 else p.boot.stack1) == .ready

/-- Are both stacks READY (R201)? -/
def hbmReady (p : Part) : Bool := stackReady p 0 && stackReady p 1

/-- A number whose bit i says whether `f i` holds, for i below n. -/
def bitMap (n : Nat) (f : Nat → Bool) : Nat := ((List.range n).map (fun i => if f i then 2 ^ i else 0)).sum

/-- PRESENT of QUERY and SYS_PRESENT (R381). -/
def presentMap (p : Part) : Nat :=
  bitMap 27 (fun i => if i = 0 then false else if i ≤ 20 then unitPresent p i
                      else if i ≤ 24 then diePresent p (i - 21) else stackReady p (i - 25))

/-- A command that has begun needs a subsystem (R429, R433, R434): held while a self-test of it runs, ERR_STATE at once
when it is URGENT or the unit is absent. The monitor, whose test can be aborted, has its own rule. -/
def withUnit (p : Part) (i : Instr) (h : Hdr) (n : Nat) (act : Part → Part) : Part :=
  if unitTesting p n && !h.urgent then holdCmd p i h
  else if unitAbsent p n || unitTesting p n then completeSt p h .errState
  else act p

/-- A command that needs a subsystem begins, as the row `i`. -/
def beginUnit (p : Part) (i : Instr) (h : Hdr) (op n : Nat) (act : Part → Part) : Part :=
  beginCmd p h op false fun p => withUnit p i h n act

/-! ### OTP_WRITE_RECORD -/

/-- Does a payload break a rule of R443 for its type: a reserved bit set, a minimum firmware below the one in force,
FORCE cleared while in force? (DESIGN CHOICE, log 47) -/
def otpPayloadBad (p : Part) (k : Nat) (b : List Byte) : Bool :=
  let v := leAt b 0 4
  match k with
  | 1 => decide (leAt b 0 8 / 2 ^ 36 ≠ 0)
  | 4 => decide (v / 2 ≠ 0)
  | 5 => decide (v / 2 ^ 13 ≠ 0)
  | 6 => decide (v / 2 ^ 16 ≠ 0)
  | 7 => decide (v < minFirmware p)
  | 8 => decide (v / 4 ≠ 0) || (natBits (otpField p.boot.otpRead 8 0 4 0) 0 1 == 1 && natBits v 0 1 == 0)
  | _ => false

/-- OTP_WRITE_RECORD (R443): `payload` is what the part fetches from the record address, `burnt` the bits that the
programming leaves when they differ from those intended. -/
def otpWriteRecord (h : Hdr) (payload : List Byte) (burnt : Option (List Byte)) (p : Part) : Part :=
  beginCmd p h 0x48 false fun p =>
    let k := h.par 0x08 2
    let n := h.par 0x0A 2
    if running p then completeSt p h .errState
    else if k = 0 ∨ 8 < k ∨ n ≠ (otpArea k).2.1 then completeSt p h .errParam
    else withBuffer p (.otpWriteRecord h payload burnt) h .read (h.par 0x10 8) n fun p =>
      if otpPayloadBad p k (fitBytes n payload) then completeSt p h .errParam
      else
        match (List.range 4).find? (fun g => !otpUsed p.boot.otp k g) with
        | none => completeSt p h .errOtpFull
        | some g =>
          let (base, _, size, _) := otpArea k
          let intended := otpRecord k g (fitBytes n payload)
          let otp := otpProgram p.boot.otp (base + g * size) ((burnt.getD intended).take size)
          let p := { p with boot := { p.boot with otp := otp } }
          let good := otpBytesOk k g (otpSlot otp k g)
          let p := if good then raise p 204 [(2, k), (1, g)] else p
          let p := if g = 3 then raise p 205 [(2, k)] else p
          if good then complete p h .ok 0 g else completeSt p h .errIntegrity

end Sys2Proof.Machine
end

