-- ==== Sys2Proof/Machine/Boot.lean ====
section
/-!
DEFINITION. Resets and the boot up to the start of the firmware (R423 to R430), the version rules (R435 to R437) and
FW_UPDATE (R438, R439).
-/
namespace Sys2Proof.Machine

/-- The state codes of QUERY's PART_STATE (R381). -/
def PartState.code : PartState → Nat
  | .powerup => 0 | .boot => 1 | .standby => 2 | .ready => 3 | .operating => 4 | .halted => 5

/-- The part state changes; every change raises event source 200 (R425). -/
def setPartState (p : Part) (s : PartState) : Part :=
  if p.boot.ps = s then p
  else raise { p with boot := { p.boot with ps := s } } 200 [(1, p.boot.ps.code), (1, s.code)]

/-- A write that an RWL field of FAB, LNK, HIS, RDO, SEAL or SYS accepts takes ADMITTED back to LOADED (R180). -/
def rwlAccepted (p : Part) : Part :=
  if p.tk.fab = .admitted then { p with tk := { p.tk with fab := .loaded } } else p

/-! ### Resets -/

/-- A reset of the whole part (R423): everything returns to its reset value but the OTP, the flash, the pins and what
stands in host memory; a new challenge is drawn (R318). `cause` is the bit of SYS_RESET_CAUSE (0 power-on, 1 SYS_RST_N, 2 PERST_N). -/
def resetPart (cause : Nat) (p : Part) : Part :=
  let b := BootState.init
  let q := { Part.init with
    regs := [(SYS_CAUSE.off, BitVec.ofNat 32 (2 ^ cause))],
    free := p.free + 1,
    trc := { TrcState.init with chal := p.free },
    host := { HostState.init with mem := p.host.mem },
    boot := { b with ps := p.boot.ps, rstLow := p.boot.rstLow, perstLow := p.boot.perstLow, pins := p.boot.pins,
                     flash := p.boot.flash, otp := p.boot.otp, otpRead := p.boot.otp } }
  setPartState q .powerup

/-- SYS_RST_N is high: the part leaves POWERUP for BOOT, samples CFG_ADDR and starts stage 1 (R424 to R426). -/
def startBoot (pins : BitVec 6) (p : Part) : Part :=
  setPartState { p with boot := { p.boot with stage := 1, pins := pins.toNat } } .boot

/-- POWER_ON (R423), with SYS_RST_N as it stands then, and PERST_N low. -/
def powerOn (rstLow : Bool) (pins : BitVec 6) (p : Part) : Part :=
  let p := resetPart 0 { p with boot := { p.boot with rstLow := rstLow, perstLow := true } }
  if rstLow then p else startBoot pins p

/-- SYS_RST_N_LOW (R423). -/
def sysRstLow (p : Part) : Part :=
  if p.boot.rstLow then p else resetPart 1 { p with boot := { p.boot with rstLow := true } }

/-- SYS_RST_N_RELEASE (R425). -/
def sysRstRelease (pins : BitVec 6) (p : Part) : Part :=
  if p.boot.rstLow then startBoot pins { p with boot := { p.boot with rstLow := false } } else p

/-- PERST_N_FALL (R423, R424): the whole part is reset; only the endpoint stays in reset while PERST_N is low. -/
def perstFall (pins : BitVec 6) (p : Part) : Part :=
  if p.boot.perstLow then p
  else
    let p := resetPart 2 { p with boot := { p.boot with perstLow := true } }
    if p.boot.rstLow then p else startBoot pins p

/-- The endpoint answers from the end of stage 1, while PERST_N is high (R424). -/
def endpointRise (p : Part) : Part :=
  if !p.boot.perstLow && decide (2 ≤ p.boot.stage) then { p with host := { p.host with endpointUp := true } } else p

/-- PERST_N_RISE (R424). -/
def perstRise (p : Part) : Part :=
  if p.boot.perstLow then endpointRise { p with boot := { p.boot with perstLow := false } } else p

/-- PLL_LOCK (R344, R426): stage 1 ends and the time counter starts from 0. -/
def pllLock (p : Part) : Part :=
  if p.boot.stage = 1 then
    endpointRise { p with boot := { p.boot with stage := 2 }, tim := { p.tim with run := true } }
  else p

/-- OTP_READ (R430, R441, R442): stage 2 reads the OTP records and the rail monitors. The rails are those below half
their nominal voltage; `dies` are the fabric dies whose interface answers (DEDUCED, log 25). -/
def otpRead (noFab noHbm noSrd : Bool) (dies : BitVec 4) (p : Part) : Part :=
  if p.boot.stage = 2 then
    otpRegs { p with boot := { p.boot with stage := 3, noFab := noFab, noHbm := noHbm, noSrd := noSrd, dies := dies.toNat } }
  else p

/-! ### Firmware images and the version rules -/

/-- Read a firmware image (R438); none when the bytes are no such image. -/
def parseFw (f : FwBytes) : Option FwImage :=
  let b := f.bytes
  let n := leAt b 0x0A 1
  let r := leAt b 0x0B 1
  let ro := leAt b 0x58 4
  if b.length < 192 ∨ leAt b 0 4 ≠ 0x48574654 ∨ n = 0 ∨ 8 < n ∨ 16 < r ∨ (ro ≠ 0 ∧ b.length < ro + 6) then none
  else some {
    ver := leAt b 4 4
    hiv := leAt b 8 2
    len := leAt b 0x0C 4
    steppings := (List.range n).map (fun i => leAt b (0x10 + i) 1)
    rtVers := (List.range r).map (fun i => leAt b (0x18 + 4 * i) 4)
    rt := if ro = 0 then none else some (leAt b ro 4, leAt b (ro + 4) 2)
    rtImage := if ro = 0 then [] else sliceBytes b ro (leAt b 0x5C 4)
    sigOk := f.sigOk }

/-- The version rules (R435): the cause and the party of the first that fails. -/
def versionRules (minFw : Nat) (f : FwImage) : Option (Nat × Nat) :=
  if !f.sigOk then some (8, 1)
  else if f.ver < minFw then some (1, 1)
  else if !f.steppings.contains stepping then some (2, 0)
  else match f.rt with
    | none => none
    | some (v, hivReq) =>
      if !f.rtVers.contains v then some (3, 2) else if hivReq ≠ f.hiv then some (4, 2) else none

/-- The version that a refusal names, by party (R450). -/
def refusedVersion (f : FwImage) (party : Nat) : Nat :=
  match party with
  | 0 => stepping
  | 1 => f.ver
  | _ => match f.rt with | some (v, _) => v | none => 0

/-- Is the override in force (R437)? -/
def overrideOn (p : Part) : Bool := fldOn p SYS_OVR_ACTIVE

/-- Does the boot ROM take an image: whole, signed, and not below the minimum firmware (R427, R436)? -/
def bootTakes (p : Part) (f : Option FwBytes) : Option FwImage :=
  match f with
  | none => none
  | some b => match parseFw b with
    | none => none
    | some i => if i.len = b.bytes.length ∧ i.sigOk = true ∧ minFirmware p ≤ i.ver then some i else none

/-- The boot ROM holds an image: stage 4. HST_SOURCE is 1 or 2 for a flash slot, 3 for the host (DESIGN CHOICE, log 47). -/
def bootWith (p : Part) (f : FwImage) (source : Nat) : Part :=
  setFld { p with boot := { p.boot with stage := 4, fw := some f, hostFetch := false,
                                        bootSlot := if source = 3 then none else some (source - 1) } } HST_SOURCE source

/-- The boot ROM waits for a host image (R427). -/
def waitHost (p : Part) : Part := setFld p HST_WAIT_HOST 1

/-- IMAGE_FETCH_END (R427). -/
def imageFetchEnd (a : ImageFetch) (p : Part) : Part :=
  if p.boot.stage ≠ 3 then p
  else match a with
    | .noFlash =>
      if fldOn p HST_WAIT_HOST || p.boot.hostFetch then p
      else waitHost (setFld { p with boot := { p.boot with flash := none } } HST_FLASH 0)
    | .flash size s0 s1 =>
      if fldOn p HST_WAIT_HOST || p.boot.hostFetch then p
      else
        let p := setFld { p with boot := { p.boot with
          flash := some ⟨size, s0.bind parseFw, s1.bind parseFw⟩ } } HST_FLASH 1
        match bootTakes p s0, bootTakes p s1 with
        | some i, some j => if i.ver < j.ver then bootWith p j 2 else bootWith p i 1
        | some i, none => bootWith p i 1
        | none, some j => bootWith p j 2
        | none, none => waitHost p
    | .host f =>
      if !p.boot.hostFetch then p
      else match bootTakes p (some f) with
        | some i => bootWith p i 3
        | none => waitHost (setFld { p with boot := { p.boot with hostFetch := false } } HST_BOOT_ERR 1)

/-- HST_BOOT_GO (R427): the host image is fetched by DMA under R390, while the boot ROM waits for it. -/
def hstBootGo (p : Part) : Part :=
  if !fldOn p HST_WAIT_HOST then p
  else
    let p := setFld p HST_BOOT_ERR 0
    let addr := fld64 p HST_BOOT_ADDR_L HST_BOOT_ADDR_H
    let len := fld p HST_BOOT_BYTES
    if dmaOk p && inWindow p .read addr len then
      setFld { p with boot := { p.boot with hostFetch := true } } HST_WAIT_HOST 0
    else if dmaOk p then
      setFld (refuseOther p 0 addr) HST_BOOT_ERR 1
    else setFld p HST_BOOT_ERR 1

/-- A self-test starts, or is skipped as its unit is absent (event source 201, result 3). -/
def startTest (p : Part) (i : Nat) : Part :=
  let powered := if i < 4 then diePowered p i
    else if i = 4 then unitPowered p 9 else if i = 5 then unitPowered p 10
    else if i = 8 ∨ i = 9 then unitPowered p 13 else true
  if powered then setTest p i 1 else raise p 201 [(1, i), (1, 3)]

/-- FIRMWARE_START (R426, R428, R435, R436): stage 4 ends; the firmware runs, the self-tests and the training of the
stacks begin, and a refusal of cause 2, 3 or 4 puts the part in restricted operation. -/
def firmwareStart (p : Part) : Part :=
  if p.boot.stage ≠ 4 then p
  else match p.boot.fw with
    | none => p
    | some f =>
      let p := setFld (setFld (setFld p HST_FW_RUN 1) HST_FW f.ver) HST_HIV f.hiv
      let p := match versionRules (minFirmware p) f with
        | none => p
        | some (cause, party) =>
          let p := setFld (setFld p SYS_VER_CAUSE cause) SYS_VER_PARTY party
          if overrideOn p then p
          else raise (setFld p SYS_RESTRICTED 1) 203 [(1, cause), (1, party), (4, refusedVersion f party)]
      let p := { p with boot := { p.boot with stage := 5 } }
      let p := (List.range 10).foldl startTest p
      if unitPowered p 13 then { p with boot := { p.boot with stack0 := .training, stack1 := .training } } else p

/-- The readout cores start: the firmware holds a runtime, their self-test has passed, and the part is not in
restricted operation (R426, R432, R436). -/
def startCores (p : Part) : Part :=
  match p.boot.fw with
  | some { rt := some (v, hivReq), .. } =>
    if fldOn p SYS_RESTRICTED || testOf p 5 != 2 then p
    else setFld (setFld (setFld p HST_RT v) HST_HIV_REQ hivReq) SYS_RDO_STARTED 1
  | _ => p

/-- SYS_OVR_EN_WRITE (R437): nothing once START has locked the field, or without an OTP record that allows the
override; a write of 1 sets it and starts the readout cores, a write of 0 takes it back. -/
def sysOvrEnWrite (v : Bool) (p : Part) : Part :=
  if locked p then p
  else if v && natBits (otpField p.boot.otpRead 4 0 4 0) 0 1 == 0 then p
  else
    let p := setFld (setFld (rwlAccepted p) SYS_OVR_EN (if v then 1 else 0)) SYS_OVR_ACTIVE (if v then 1 else 0)
    if v then startCores (setFld p SYS_RESTRICTED 0)
    else setFld p SYS_RESTRICTED (if fld p SYS_VER_CAUSE = 0 then 0 else 1)

/-! ### FW_UPDATE -/

/-- A refusal of FW_UPDATE under the version rules (R435, R436, R439): event source 203, CATCH_VERSION while OPERATING,
and ERR_VERSION, or ERR_AUTH for the signature. -/
def fwRefused (p : Part) (h : Hdr) (f : FwImage) (cause party : Nat) : Part :=
  let p := raise p 203 [(1, cause), (1, party), (4, refusedVersion f party)]
  let p := if p.boot.ps = .operating then blockCatch p .version 18 cause else p
  completeSt p h (if cause = 8 then .errAuth else .errVersion)

/-- FW_UPDATE (R439), with the image that the part fetches. -/
def fwUpdate (h : Hdr) (img : FwBytes) (p : Part) : Part :=
  beginCmd p h 0x58 false fun p =>
    let len := h.par 0x10 4
    match p.boot.flash with
    | none => completeSt p h .errState
    | some fl =>
      if p.boot.update.isSome then completeSt p h .errState
      else withBuffer p (.fwUpdate h img) h .read (h.par 0x08 8) len fun p =>
        match parseFw img with
        | none => completeSt p h .errParam
        | some f =>
          if f.len ≠ len ∨ fl.slotBytes < f.len ∨ 2 ^ 26 < len then completeSt p h .errParam
          else match versionRules (minFirmware p) f with
            | some (cause, party) =>
              if overrideOn p && decide (cause ≠ 1) && decide (cause ≠ 8) then { p with boot := { p.boot with update := some (h, f) } }
              else fwRefused p h f cause party
            | none => { p with boot := { p.boot with update := some (h, f) } }

/-- FLASH_WRITE_END (R439): the image has been written into the slot that did not boot and read back; `same` says
that the read-back agrees. -/
def flashWriteEnd (same : Bool) (p : Part) : Part :=
  match p.boot.update with
  | none => p
  | some (h, f) =>
    let put (fl : Flash) : Flash := if p.boot.bootSlot = some 0 then { fl with slot1 := some f } else { fl with slot0 := some f }
    let p := { p with boot := { p.boot with update := none, flash := if same then p.boot.flash.map put else p.boot.flash } }
    if same then complete (raise p 202 [(4, f.ver)]) h .ok 0 0 else completeSt p h .errIntegrity

end Sys2Proof.Machine
end

