-- ==== Sys2Proof/Machine/Monitor.lean ====
section
/-!
DEFINITION. The monitor ADC (R444 to R449) with its calibration (R432 to R434), and the temperature comparators.
-/
namespace Sys2Proof.Machine

/-- Does the calibration, self-test 7, run now? -/
def calibrating (p : Part) : Bool := testOf p 7 == 1

/-- Is a channel set in MON_SCAN? -/
def scanned (p : Part) (ch : Nat) : Bool :=
  if ch < 32 then (fld p MON_SCAN_MASK_L).testBit ch else (fld p MON_SCAN_MASK_H).testBit (ch - 32)

/-- The pull mode of an external input (R448). -/
def pullMode (p : Part) (ch : Nat) : Nat :=
  if ch < 16 then natBits (fld p MON_PULL_MODE_L) (2 * ch) 2 else natBits (fld p MON_PULL_MODE_H) (2 * (ch - 16)) 2

/-- The open-wire check of a channel (R448). -/
def openWire (p : Part) (ch : Nat) : Option OpenWire := smapGet (fun _ => none) p.mon.checks ch

/-- Put the open-wire check of a channel. -/
def setOpenWire (p : Part) (ch : Nat) (w : Option OpenWire) : Part :=
  { p with mon := { p.mon with checks := smapSet (fun _ => none) p.mon.checks ch w } }

/-- The pull that is on at an external input (R448): 0 none, 1 up, 2 down. A check turns on the pull-up, then the
pull-down, then neither. -/
def pullOn (p : Part) (ch : Nat) : Nat :=
  if pullMode p ch ≠ 3 then pullMode p ch
  else match openWire p ch with
    | some ⟨none, _, _⟩ => 1
    | some ⟨some _, none, _⟩ => 2
    | _ => 0

/-- Is the channel's scan slot one of its open-wire check: a code is still to be taken, and the pull has been on for
MON_OW_SETTLE_US µs (R448)? -/
def checkSlot (p : Part) (ch : Nat) : Bool :=
  match openWire p ch with
  | some w => (w.up.isNone || w.down.isNone) &&
      decide (w.since + (fld p MON_OW_SETTLE_US * 1000 * nsUnit : Nat) ≤ (p.now : Int))
  | none => false

/-- The idle converter takes up what comes next: urgent conversions, a conversion to repeat, waiting conversions, a
calibration, and then the channels of the scan that MON_SCAN still sets, while MON_SCAN_EN is 1 (R434, R445, R446)
(DESIGN CHOICE, log 53). -/
def monNext (p : Part) : Part :=
  if p.mon.cur.isSome || calibrating p || unitAbsent p 20 then p
  else match p.mon.urgent with
    | c :: l => { p with mon := { p.mon with cur := some c, urgent := l } }
    | [] => match p.mon.again with
      | some c => { p with mon := { p.mon with cur := some c, again := none } }
      | none => match p.mon.waiting with
        | c :: l => { p with mon := { p.mon with cur := some c, waiting := l } }
        | [] =>
          if p.mon.calNext then setTest { p with mon := { p.mon with calNext := false } } 7 1
          else match if fldOn p MON_SCAN_EN then p.mon.scan.filter (scanned p) else [] with
            | ch :: l => { p with mon := { p.mon with cur := some ⟨ch, none, false, checkSlot p ch⟩, scan := l } }
            | [] => { p with mon := { p.mon with scan := [] } }

/-- An urgent conversion aborts the calibration (R434): event source 201 with result 2; the held requests follow it,
and then the calibration starts again. -/
def abortCalibration (p : Part) : Part :=
  let p := raise (setTest p 7 (if fldOn p MON_CAL_VALID then 2 else 0)) 201 [(1, 7), (1, 2)]
  { p with mon := { p.mon with waiting := p.mon.waiting ++ p.mon.held, held := [], calNext := true } }

/-- MON_CONVERT (R433, R434, R446). -/
def monConvert (h : Hdr) (p : Part) : Part :=
  beginCmd p h 0x40 false fun p =>
    let ch := h.par 0x08 1
    let c : Conv := ⟨ch, some h, h.urgent, false⟩
    if 55 < ch then completeSt p h .errParam
    else if unitAbsent p 20 then completeSt p h .errState
    else if h.urgent then
      let p := if calibrating p then abortCalibration p else p
      let p := match p.mon.cur with
        | some d => if d.urgent then p else { p with mon := { p.mon with again := some d, cur := none } }
        | none => p
      monNext { p with mon := { p.mon with urgent := p.mon.urgent ++ [c] } }
    else if calibrating p then { p with mon := { p.mon with held := p.mon.held ++ [c] } }
    else monNext { p with mon := { p.mon with waiting := p.mon.waiting ++ [c] } }

/-- Does a scan still have a conversion to do or in progress? -/
def scanBusy (p : Part) : Bool :=
  !p.mon.scan.isEmpty || (match p.mon.cur with | some c => c.hdr.isNone | none => false) ||
  (match p.mon.again with | some c => c.hdr.isNone | none => false)

/-- A scan begins (R448): with MON_OW_SCANS scans begun since the last time, the channels of mode 3 that have no check
under way begin one (DESIGN CHOICE, log 53). -/
def countScan (p : Part) : Part :=
  if p.mon.scans + 1 < fld p MON_OW_SCANS then { p with mon := { p.mon with scans := p.mon.scans + 1 } }
  else (List.range 32).foldl (fun p ch =>
    if pullMode p ch = 3 ∧ openWire p ch = none then setOpenWire p ch (some ⟨none, none, p.now⟩) else p)
    { p with mon := { p.mon with scans := 0 } }

/-- MONITOR_SCAN (R445, R448): a scan of the enabled channels starts, in ascending order. -/
def monitorScan (p : Part) : Part :=
  if fldOn p MON_SCAN_EN && !scanBusy p && p.boot.ps != .powerup then
    let p := countScan p
    monNext { p with mon := { p.mon with scan := (List.range 56).filter (scanned p) } }
  else p

/-- MON_CTRL, MON_SCAN or MON_PULL has been written (R445, R448): a scan ends with its enable, and a check with its mode. -/
def monitorWritten (p : Part) : Part :=
  { p with mon := { p.mon with
      scan := if fldOn p MON_SCAN_EN then p.mon.scan else []
      checks := smapFilter (fun ch => pullMode p ch == 3) p.mon.checks } }

/-- Set or clear the latch of a channel. -/
def setLatch (m : SMap Bool) (ch : Nat) (v : Bool) : SMap Bool := smapSet (fun _ => false) m ch v

/-- The limits of a channel against a code (R447). -/
def checkLimits (p : Part) (ch code : Nat) : Part :=
  let low := decide (code < fldI p MON_LO ch)
  let high := decide (fldI p MON_HI ch < code)
  if !low && !high then { p with mon := { p.mon with alarmed := setLatch p.mon.alarmed ch false } }
  else if fldI p MON_LIM_EN ch = 0 then p
  else
    let p := if ch < 32 then setFld p MON_ALARM_L (fld p MON_ALARM_L ||| 2 ^ ch)
             else setFld p MON_ALARM_H (fld p MON_ALARM_H ||| 2 ^ (ch - 32))
    if smapGet (fun _ => false) p.mon.alarmed ch then p
    else
      wakeBy 3 0 (raise { p with mon := { p.mon with alarmed := setLatch p.mon.alarmed ch true } } 184
        [(1, ch), (1, if low then 0 else 1), (2, code)])

/-- The temperature warning of a scan conversion of channels 32 to 48 (R449). -/
def checkWarning (p : Part) (ch code : Nat) : Part :=
  let warn := fld p MON_TWARN_CODE
  let on := smapGet (fun _ => false) p.mon.warned ch
  if ch < 32 ∨ 48 < ch then p
  else if warn ≤ code then
    if on then p
    else raise { p with mon := { p.mon with warned := setLatch p.mon.warned ch true } } 186 [(1, (ch - 32) / 4), (2, code)]
  else if code + 80 ≤ warn then { p with mon := { p.mon with warned := setLatch p.mon.warned ch false } }
  else p

/-- A conversion of an open-wire check ends (R448): its code is the one with the pull-up, and the pull-down is turned on,
or the one with the pull-down, and both are off. -/
def takeOpenWire (p : Part) (ch v : Nat) : Part :=
  match openWire p ch with
  | some ⟨none, _, _⟩ => setOpenWire p ch (some ⟨some v, none, p.now⟩)
  | some ⟨some u, none, s⟩ => setOpenWire p ch (some ⟨some u, some v, s⟩)
  | _ => p

/-- CONVERSION_END (R445 to R449): the code of the conversion in progress enters MON_DATA, its limits and warning are
checked, and a MON_CONVERT completes with it; the code of an open-wire check enters that check alone. -/
def conversionEnd (code : BitVec 12) (p : Part) : Part :=
  match p.mon.cur with
  | none => p
  | some c =>
    let v := code.toNat
    let p := { p with mon := { p.mon with cur := none } }
    if c.check then monNext (takeOpenWire p c.ch v) else
    let p := setFldI (setFldI p MON_CODE c.ch v) MON_VALID c.ch 1
    let p := setFldI p MON_SEQ c.ch ((fldI p MON_SEQ c.ch + 1) % 65536)
    let p := checkLimits p c.ch v
    let p := match c.hdr with
      | some h => complete p h .ok 0 v
      | none => checkWarning p c.ch v
    monNext p

/-- OPEN_WIRE_CHECK (R448): both codes of a channel's check have been taken, and are compared. -/
def openWireCheck (ch : Fin 32) (p : Part) : Part :=
  match openWire p ch.val with
  | some ⟨some u, some d, _⟩ =>
    let p := setOpenWire p ch.val none
    let bits := fld p MON_OW_OPEN
    if d + fld p MON_OW_THRESH ≤ u then raise (setFld p MON_OW_OPEN (bits ||| 2 ^ ch.val)) 185 [(1, ch.val)]
    else setFld p MON_OW_OPEN (natPut bits ch.val 1 0)
  | _ => p

/-- MONITOR_CALIBRATION (R432): MON_CAL_MS has passed. A monitor that is absent runs none (R430). -/
def monitorCalibration (p : Part) : Part :=
  if fld p MON_CAL_MS = 0 ∨ calibrating p = true ∨ testOf p 7 = 0 ∨ unitAbsent p 20 = true then p
  else monNext { p with mon := { p.mon with calNext := true } }

/-- The calibration ends (R432, R433): the held requests are served; with a failure the unit is absent and they
complete with ERR_STATE. -/
def calibrationEnd (pass : Bool) (p : Part) : Part :=
  let m := p.mon
  if pass then
    monNext { setFld p MON_CAL_VALID 1 with mon := { m with waiting := m.waiting ++ m.held, held := [] } }
  else
    let waits := m.urgent ++ m.again.toList ++ m.waiting ++ m.held
    let kept := { MonState.init with alarmed := m.alarmed, warned := m.warned, scans := m.scans, checks := m.checks }
    completeAll { p with mon := kept } (waits.filterMap (·.hdr)) .errState 0

/-- THERMAL_COMPARATOR (R421, R449). -/
def thermalComparator (die : Fin 4) (code : BitVec 12) (p : Part) : Part :=
  blockCatch p .thermal 20 (die.val + code.toNat * 4)

end Sys2Proof.Machine
end

