-- ==== Sys2Proof/Machine/SealedStore.lean ====
section
/-!
DEFINITION. What sealed memory stores (R320 to R332): where a sealed address lies, the stored form of data lines, tags,
counter blocks and tree nodes, and the keys behind them. State holds what the engine sealed, its counters and key
identities, and the bits upset since; the stored bits are functions of these (DESIGN CHOICE, log 48).
-/
namespace Sys2Proof.Machine

/-! ### Addresses -/

/-- The stack of a line, by sealed address div 64 (R321). -/
def lineStack (l : Nat) : Nat := l / 64 % 2

/-- The index of a line within its stack (R321). -/
def lineIndex (l : Nat) : Nat := l / 128 * 64 + l % 64

/-- The line with an index on a stack. -/
def lineOf (stack index : Nat) : Nat := index / 64 * 128 + stack * 64 + index % 64

/-- How many units of each level a stack holds: counter blocks are level 0, tree nodes levels 1 to 6 (R322). -/
def levelCount : Nat → Nat
  | 0 => 5505024 | 1 => 688128 | 2 => 86016 | 3 => 10752 | 4 => 1344 | 5 => 168 | 6 => 21 | _ => 0

/-- How many data lines a stack holds. -/
def stackLines : Nat := 352321536

/-- The key under which State keeps what belongs to a counter block or tree node. -/
def nodeKey (stack lvl idx : Nat) : Nat := (idx * 8 + lvl) * 2 + stack

/-- Stack, level and index of a key. -/
def keyParts (k : Nat) : Nat × Nat × Nat := (k % 2, k / 2 % 8, k / 16)

/-- The MiB of sealed space in which a block of levels 0 to 2 lies. -/
def nodeMib (lvl idx : Nat) : Nat := idx * 8 ^ lvl / 128

/-! ### Keys -/

/-- Is an identity retired: is its bit of SEAL_KID_LIVE clear? -/
def kidRetired (p : Part) (j : Nat) : Bool := !(fld p SEAL_KID_LIVE).testBit j

/-- The current key identity. -/
def curKid (p : Part) : Nat := fld p SEAL_KID_CUR

/-- The subkeys of an identity; zero for one that holds none. -/
def sealKey (p : Part) (kid : Nat) : SealKey := (smapGet (fun _ => none) p.sm.keys kid).getD ⟨0, 0⟩

/-- Draw a 256-bit key for an identity and derive its subkeys (R326): the generator is reseeded with `entropy` first. -/
def drawKey (p : Part) (kid : Nat) (entropy : BitVec 384) : Part :=
  let (key, d) := p.sm.drbg.draw entropy
  let k : SealKey := ⟨kdf256 key (Config.kdfInput false), kdf256 key (Config.kdfInput true)⟩
  { p with sm := { p.sm with drbg := d, keys := smapSet (fun _ => none) p.sm.keys kid (some k) } }

/-- Are lines encrypted (R328)? -/
def sealEnc (p : Part) : Bool := fldOn p SEAL_ENC_EN

/-! ### Data lines and tags -/

/-- A sealed line as initialisation leaves it: zero, MINOR 0 (R327). -/
def SealLine.zero : SealLine := ⟨0, none, 0, 0⟩

/-- A data line, by sealed address div 64. -/
def sealLine (p : Part) (l : Nat) : SealLine := smapGet (fun _ => SealLine.zero) p.sm.lines l

/-- The identity that the lines of a MiB carry unless they name another. -/
def chunkKid (p : Part) (c : Nat) : Nat := smapGet (fun _ => 0) p.sm.chunkKid c

/-- The key identity of a line. -/
def lineKid (p : Part) (l : Nat) : Nat := (sealLine p l).kid.getD (chunkKid p (l / 16384))

/-- MAJOR of a counter group. -/
def major (p : Part) (g : Nat) : Nat := smapGet (fun _ => 0) p.sm.major g

/-- The 96-bit IV of a line (R329): [95:93] type 0, [92] stack, [91:63] line index, [62:7] MAJOR, [6:0] MINOR. -/
def lineIv (p : Part) (l : Nat) : Nat :=
  lineStack l * 2 ^ 92 + lineIndex l * 2 ^ 63 + major p (l / 64) % 2 ^ 56 * 2 ^ 7 + (sealLine p l).minor % 2 ^ 7

/-- The ciphertext of a line, or the plaintext of a ciphertext, under an identity: the same exclusive or (R329). -/
def cipherLine (p : Part) (kid l : Nat) (x : BitVec 512) : BitVec 512 :=
  if sealEnc p then x ^^^ gcmStream (roundKeys (sealKey p kid).enc) (lineIv p l) else x

/-- The MAC of a stored line under an identity: the 60 most significant bits of the GCM tag (R329). -/
def lineMac (p : Part) (kid l : Nat) (x : BitVec 512) : Nat :=
  gcmTag (roundKeys (sealKey p kid).enc) (lineIv p l) (sealEnc p) x / 2 ^ 68 % 2 ^ 60

/-- A data line as the engine wrote it. -/
def sealedData (p : Part) (l : Nat) : BitVec 512 := cipherLine p (lineKid p l) l (sealLine p l).data

/-- A data line as its stack holds it now. -/
def storedLine (p : Part) (l : Nat) : BitVec 512 := sealedData p l ^^^ (sealLine p l).flips

/-- A line's tag as the engine wrote it: MAC in [59:0], KID in [61:60], [63:62] zero (R330). -/
def sealedTag (p : Part) (l : Nat) : Nat := lineMac p (lineKid p l) l (sealedData p l) + lineKid p l * 2 ^ 60

/-- The upset bits of a tag line, by line div 8, as its stack holds it. -/
def tagLineFlips (p : Part) (t : Nat) : BitVec 512 := smapGet (fun _ => 0) p.sm.tagFlips t

/-- A tag line as its stack holds it: tag j of the eight in bits [64j + 63 : 64j] (R330). -/
def storedTags (p : Part) (t : Nat) : BitVec 512 :=
  BitVec.ofNat 512 ((List.range 8).foldr (fun j x => sealedTag p (8 * t + j) + 2 ^ 64 * x) 0) ^^^ tagLineFlips p t

/-! ### Counter blocks and tree nodes -/

/-- CHECK of R331: the CRC-8 with polynomial x^8 + x^2 + x + 1 over bytes, with initial value 0. -/
def crc8 (l : List Byte) : BitVec 8 :=
  l.foldl (fun c b => (List.range 8).foldl (fun c _ => if c.getLsbD 7 then (c <<< 1) ^^^ 0x07#8 else c <<< 1) (c ^^^ b)) 0#8

/-- Bytes of a line. -/
def lineBytes (d : BitVec 512) : List Byte := (List.range 64).map (fun i => BitVec.ofNat 8 (d.toNat / 256 ^ i))

/-- A block with CHECK over its bytes 0 to 62. -/
def withCheck (x : Nat) : BitVec 512 :=
  let b : BitVec 512 := BitVec.ofNat 512 (x % 2 ^ 504)
  BitVec.ofNat 512 (x % 2 ^ 504 + (crc8 ((lineBytes b).take 63)).toNat * 2 ^ 504)

/-- Does CHECK hold? -/
def checkOk (b : BitVec 512) : Bool := withCheck b.toNat == b

/-- The counter block of a group (R331): [55:0] MAJOR, MINOR[j] in [62 + 7j : 56 + 7j], CHECK. -/
def counterBlock (p : Part) (g : Nat) : BitVec 512 :=
  withCheck (major p g % 2 ^ 56 +
    2 ^ 56 * (List.range 64).foldr (fun j x => (sealLine p (64 * g + j)).minor % 2 ^ 7 + 2 ^ 7 * x) 0)

/-- The identity under which the digest of a counter block or node was made. -/
def blockKid (p : Part) (stack lvl idx : Nat) : Nat :=
  match smapGet (fun _ => none) p.sm.blkKid (nodeKey stack lvl idx) with
  | some k => k
  | none => if lvl < 3 then smapGet (fun _ => 0) p.sm.blkChunk (nodeMib lvl idx) else 0

/-- The position word of R332: type, stack, level and index. -/
def positionWord (stack lvl idx : Nat) : Nat := (if lvl = 0 then 1 else 2) + stack * 8 + lvl * 16 + idx * 256

/-- The digest of a counter block or node under an identity: the 56 most significant bits of the CMAC (R332). -/
def blockDigest (p : Part) (kid stack lvl idx : Nat) (b : BitVec 512) : Nat :=
  cmac (sealKey p kid).mac (lineBytes b ++ (List.range 8).map (fun i => BitVec.ofNat 8 (positionWord stack lvl idx / 256 ^ i))) / 2 ^ 72 % 2 ^ 56

/-- The cache in which blocks of a level are kept. -/
def cacheOf (p : Part) (lvl : Nat) : List CacheLine := if lvl = 0 then p.sm.ctrCache else p.sm.treeCache

/-- What the stack holds of a block that has changed in its cache and not been written back. -/
def staleBlock (p : Part) (stack lvl idx : Nat) : Option (BitVec 512) :=
  if 3 ≤ lvl then smapGet (fun _ => none) p.sm.topOld (nodeKey stack lvl idx)
  else ((cacheOf p lvl).find? (fun c => c.key == nodeKey stack lvl idx && c.dirty)).map (·.old)

/-- A counter block (level 0) or tree node as the engine has it: DIG[j] is the digest of child j as that was last
written back, KID[j] its identity (R331, R332). -/
def blockNow (p : Part) (stack : Nat) : Nat → Nat → BitVec 512
  | 0, idx => counterBlock p (2 * idx + stack)
  | lvl + 1, idx =>
    let child (j : Nat) : BitVec 512 :=
      match staleBlock p stack lvl (8 * idx + j) with
      | some b => b
      | none => blockNow p stack lvl (8 * idx + j)
    let kid (j : Nat) : Nat := blockKid p stack lvl (8 * idx + j)
    withCheck ((List.range 8).foldr (fun j x => blockDigest p (kid j) stack lvl (8 * idx + j) (child j) + 2 ^ 56 * x) 0 +
      2 ^ 448 * (List.range 8).foldr (fun j x => kid j + 4 * x) 0)

/-- A block or node as it was last written back to its stack. -/
def blockWritten (p : Part) (stack lvl idx : Nat) : BitVec 512 :=
  (staleBlock p stack lvl idx).getD (blockNow p stack lvl idx)

/-- The upset bits of a block or node in its stack. -/
def blockFlips (p : Part) (stack lvl idx : Nat) : BitVec 512 := smapGet (fun _ => 0) p.sm.blkFlips (nodeKey stack lvl idx)

/-- A block or node as its stack holds it. -/
def storedBlock (p : Part) (stack lvl idx : Nat) : BitVec 512 := blockWritten p stack lvl idx ^^^ blockFlips p stack lvl idx

/-- Entry `n` of a stack's root store (R332): the digest of the level-6 node, and its key identity. -/
def rootEntry (p : Part) (stack n : Nat) : Nat × Nat :=
  (blockDigest p (blockKid p stack 6 n) stack 6 n (blockWritten p stack 6 n), blockKid p stack 6 n)

/-! ### Disturbances -/

/-- A disturbance of external memory inverts stored bits; one outside the areas of R322 hits nothing. -/
def applyDisturb (p : Part) (d : Disturb) : Part :=
  let s := d.stack.val
  let i := d.index.toNat
  match d.unit with
  | .data =>
    if stackLines ≤ i then p
    else
      let l := sealLine p (lineOf s i)
      { p with sm := { p.sm with lines := smapSet (fun _ => SealLine.zero) p.sm.lines (lineOf s i) { l with flips := l.flips ^^^ d.bits } } }
  | .tags =>
    if stackLines / 8 ≤ i then p
    else
      let t := lineOf s (8 * i) / 8
      { p with sm := { p.sm with tagFlips := smapSet (fun _ => 0) p.sm.tagFlips t (tagLineFlips p t ^^^ d.bits) } }
  | .block lvl =>
    if levelCount lvl.val ≤ i then p
    else { p with sm := { p.sm with
      blkFlips := smapSet (fun _ => 0) p.sm.blkFlips (nodeKey s lvl.val i) (blockFlips p s lvl.val i ^^^ d.bits) } }

end Sys2Proof.Machine
end

