-- ==== Sys2Proof/Machine/Sealed.lean ====
section
/-!
DEFINITION. The sealing engine (chapter 11): regions, its caches, line reads and writes with their checks, counters
and key identities, rekeying, and the sealing halt.
-/
namespace Sys2Proof.Machine

/-- The bit of SEAL_INIT of an initiator. -/
def sealUserBit : SealUser → Nat
  | .loader => 0 | .history => 1 | .cores => 2 | .trace => 3 | .headstock => 4

/-- First MiB of a region (R323, R324). -/
def rgnBase (p : Part) (k : Nat) : Nat :=
  if k = 0 then fld p SEAL_BASE_MIB0 else if k = 1 then fld p SEAL_BASE_MIB1 else fldI p SEAL_BASE_MIB (k - 2)

/-- Size of a region in MiB; 0 when it is unused. -/
def rgnSize (p : Part) (k : Nat) : Nat :=
  if k = 0 then fld p SEAL_SIZE_MIB0 else if k = 1 then fld p SEAL_SIZE_MIB1 else fldI p SEAL_SIZE_MIB (k - 2)

/-- Initiator mask of a region. -/
def rgnInit (p : Part) (k : Nat) : Nat :=
  if k = 0 then fld p SEAL_INIT0 else if k = 1 then fld p SEAL_INIT1 else fldI p SEAL_INIT (k - 2)

/-- Bytes in a MiB. -/
def mib : Nat := 2 ^ 20

/-- Does region `k` hold the whole of an access (R325)? -/
def rgnHolds (p : Part) (k a len : Nat) : Bool :=
  decide (rgnSize p k ≠ 0) && decide (rgnBase p k * mib ≤ a) && decide (a + len ≤ (rgnBase p k + rgnSize p k) * mib)

/-- The region in which an access of an initiator lies; none when the engine rejects it. -/
def rgnFor (p : Part) (u : SealUser) (a len : Nat) : Option Nat :=
  (List.range 16).find? (fun k => (rgnInit p k).testBit (sealUserBit u) && rgnHolds p k a len)

/-- The engine's state as SEAL_STATE shows it. -/
def sealState (p : Part) : Nat :=
  if p.sm.stopped || partHalted p then 3
  else if hbmReady p then 2
  else if p.boot.stack0 = .initialising ∨ p.boot.stack1 = .initialising then 1 else 0

/-! ### Checks and caches -/

/-- A check that failed: the cause of R342, the stack, the tree level, the index, and whether that is a line index. -/
structure SealFail where
  cause : Nat
  stack : Nat
  level : Nat
  index : Nat
  line : Bool
  deriving DecidableEq, Repr

/-- The failure of a line. -/
def lineFail (cause l : Nat) : SealFail := ⟨cause, lineStack l, 0, lineIndex l, true⟩

/-- What an operation of the engine answers: the part, and a value or the check that failed. -/
abbrev Sealed (α : Type) := Part × Except SealFail α

/-- Go on unless a check has failed. -/
def Sealed.next {α β : Type} (r : Sealed α) (f : Part → α → Sealed β) : Sealed β :=
  match r.2 with
  | .ok v => f r.1 v
  | .error e => (r.1, .error e)

/-- Does CHECK fail as a block or node is fetched from its stack (R333)? One without upset bits meets it
(`Laws.Sealed`). -/
def checkBad (p : Part) (stack lvl idx : Nat) : Bool :=
  blockFlips p stack lvl idx != 0 && !checkOk (storedBlock p stack lvl idx)

/-- The check that a block or node fails as it is fetched from its stack (R333, R342), its parent being trusted: one
without upset bits meets CHECK and its digest (`Laws.Sealed`). -/
def blockCheck (p : Part) (stack lvl idx : Nat) : Option Nat :=
  let kid := blockKid p stack lvl idx
  let b := storedBlock p stack lvl idx
  let upset := blockFlips p stack lvl idx != 0
  if checkBad p stack lvl idx then some (if lvl = 0 then 2 else 3)
  else if kidRetired p kid then some 6
  else if upset && blockDigest p kid stack lvl idx b != blockDigest p kid stack lvl idx (blockWritten p stack lvl idx) then
    some (if lvl = 0 then 4 else 5)
  else none

/-- How many entries a cache of one stack has: 4 MiB of counter blocks; 1 MiB of nodes less the 12,285 of levels 3 to
6; 1 MiB of tag lines (R333). -/
def cacheRoom (lvl : Nat) : Nat := if lvl = 0 then 65536 else 16384 - 12285

/-- Put a cache. -/
def setCache (p : Part) (lvl : Nat) (c : List CacheLine) : Part :=
  if lvl = 0 then { p with sm := { p.sm with ctrCache := c } } else { p with sm := { p.sm with treeCache := c } }

/-- Is a block or node in its cache? Those of levels 3 to 6 always are (R333). -/
def blockCached (p : Part) (stack lvl idx : Nat) : Bool :=
  decide (3 ≤ lvl) || (cacheOf p lvl).any (fun c => c.key == nodeKey stack lvl idx)

/-- A cached block becomes the one used latest. -/
def touchBlock (p : Part) (stack lvl idx : Nat) : Part :=
  let k := nodeKey stack lvl idx
  let c := cacheOf p lvl
  setCache p lvl (c.filter (fun e => e.key == k) ++ c.filter (fun e => e.key != k))

/-- A cached block or node is about to change: it becomes dirty, and its stack keeps what it held (R334). -/
def dirtyBlock (p : Part) (stack lvl idx : Nat) : Part :=
  let k := nodeKey stack lvl idx
  match staleBlock p stack lvl idx with
  | some _ => p
  | none =>
    let b := blockNow p stack lvl idx
    if 3 ≤ lvl then { p with sm := { p.sm with topOld := smapSet (fun _ => none) p.sm.topOld k (some b) } }
    else setCache p lvl ((cacheOf p lvl).map (fun e => if e.key == k then { e with dirty := true, old := b } else e))

/-- Note the identity under which the digest of a block or node is made. -/
def setBlockKid (p : Part) (stack lvl idx kid : Nat) : Part :=
  let k := nodeKey stack lvl idx
  let p := { p with sm := { p.sm with blkKid := smapSet (fun _ => none) p.sm.blkKid k none } }
  if blockKid p stack lvl idx = kid then p
  else { p with sm := { p.sm with blkKid := smapSet (fun _ => none) p.sm.blkKid k (some kid) } }

/-- A block leaves its cache. -/
def dropBlock (p : Part) (lvl k : Nat) : Part := setCache p lvl ((cacheOf p lvl).filter (fun e => e.key != k))

mutual
/-- Bring a block or node into its cache as it comes from its stack (R333): CHECK first, then the parent, cached or
verified, then the digest in the parent. The first argument bounds the work (DESIGN CHOICE, log 48). -/
def fetchBlock : Nat → Part → Nat → Nat → Nat → Sealed Unit
  | 0, p, _, _, _ => (p, .ok ())
  | n + 1, p, stack, lvl, idx =>
    if 3 ≤ lvl then (p, .ok ())
    else if blockCached p stack lvl idx then (touchBlock p stack lvl idx, .ok ())
    else if checkBad p stack lvl idx then (p, .error ⟨if lvl = 0 then 2 else 3, stack, lvl, idx, false⟩)
    else (fetchBlock n p stack (lvl + 1) (idx / 8)).next fun p _ =>
      match blockCheck p stack lvl idx with
      | some c => (p, .error ⟨c, stack, lvl, idx, false⟩)
      | none => makeRoom n (setCache p lvl (⟨nodeKey stack lvl idx, false, 0⟩ :: cacheOf p lvl)) stack lvl

/-- Keep a cache inside its size: the block used longest ago leaves (DESIGN CHOICE, log 48). -/
def makeRoom : Nat → Part → Nat → Nat → Sealed Unit
  | 0, p, _, _ => (p, .ok ())
  | n + 1, p, stack, lvl =>
    let mine := (cacheOf p lvl).filter (fun e => e.key % 2 == stack)
    if mine.length ≤ cacheRoom lvl then (p, .ok ())
    else match mine.getLast? with
      | none => (p, .ok ())
      | some v => if v.dirty then writeBack n p v.key else (dropBlock p (keyParts v.key).2.1 v.key, .ok ())

/-- A dirty block leaves its cache (R334): it is written to its stack under the current identity, and its parent,
brought into its cache first, takes its new digest. -/
def writeBack : Nat → Part → Nat → Sealed Unit
  | 0, p, _ => (p, .ok ())
  | n + 1, p, key =>
    let (stack, lvl, idx) := keyParts key
    (fetchBlock n (touchBlock p stack lvl idx) stack (lvl + 1) (idx / 8)).next fun p _ =>
      let p := dropBlock (dirtyBlock p stack (lvl + 1) (idx / 8)) lvl key
      let p := { p with sm := { p.sm with blkFlips := smapSet (fun _ => 0) p.sm.blkFlips key 0 } }
      (setBlockKid p stack lvl idx (curKid p), .ok ())
end

/-- Bring the counter block of a line into its cache. -/
def fetchCounter (p : Part) (l : Nat) : Sealed Unit := fetchBlock 32 p (lineStack l) 0 (l / 128)

/-- The upset bits of a line's tag as its tag line in the cache has them. -/
def cachedTagFlips (p : Part) (l : Nat) : Option Nat :=
  (p.sm.tagCache.find? (fun e => e.1 == l / 8)).map (fun e => e.2.toNat / 2 ^ (64 * (l % 8)) % 2 ^ 64)

/-- A line's tag, with upset bits `f`: does it carry a retired identity or a reserved bit (cause 6)? -/
def tagBad (p : Part) (l f : Nat) : Bool :=
  let t := if f = 0 then lineKid p l * 2 ^ 60 else sealedTag p l ^^^ f
  kidRetired p (t / 2 ^ 60 % 4) || decide (t / 2 ^ 62 ≠ 0)

/-- Bring the tag line of a line into its cache; `whole` verifies its eight tags, as a write does (R334). -/
def fetchTags (p : Part) (l : Nat) (whole : Bool) : Sealed Unit :=
  let t := l / 8
  match p.sm.tagCache.find? (fun e => e.1 == t) with
  | some e => ({ p with sm := { p.sm with tagCache := e :: p.sm.tagCache.filter (fun x => x.1 != t) } }, .ok ())
  | none =>
    let f := tagLineFlips p t
    let bad := if whole && f != 0 then
        (List.range 8).find? (fun j => tagBad p (8 * t + j) (f.toNat / 2 ^ (64 * j) % 2 ^ 64)) else none
    match bad with
    | some j => (p, .error (lineFail 6 (8 * t + j)))
    | none =>
      let c := (t, f) :: p.sm.tagCache
      let mine := c.filter (fun e => lineStack (8 * e.1) == lineStack l)
      let c := if mine.length ≤ 16384 then c
               else match mine.getLast? with
                 | some v => c.filter (fun e => e.1 != v.1)
                 | none => c
      ({ p with sm := { p.sm with tagCache := c } }, .ok ())

/-! ### Lines -/

/-- Open a line whose counter block is verified and whose tag has upset bits `f` (R333): the identity and reserved bits
of the tag, then its MAC over the stored line. A line and tag without upset bits meet the MAC (`Laws.Sealed`). -/
def openLine (p : Part) (l f : Nat) : Except SealFail (BitVec 512) :=
  if tagBad p l f then .error (lineFail 6 l)
  else if (sealLine p l).flips = 0 ∧ f = 0 then .ok (sealLine p l).data
  else
    let t := sealedTag p l ^^^ f
    let kid := t / 2 ^ 60 % 4
    let x := storedLine p l
    if lineMac p kid l x ≠ t % 2 ^ 60 then .error (lineFail 1 l) else .ok (cipherLine p kid l x)

/-- The engine reads one line (R333). -/
def readLine (p : Part) (l : Nat) : Sealed (BitVec 512) :=
  (fetchCounter p l).next fun p _ => (fetchTags p l false).next fun p _ =>
    (p, openLine p l ((cachedTagFlips p l).getD 0))

/-- Store a line sealed under the current identity, with its tag, in the stack and in the tag cache. -/
def putLine (p : Part) (l : Nat) (data : BitVec 512) (minor : Nat) : Part :=
  let kid := if chunkKid p (l / 16384) = curKid p then none else some (curKid p)
  let keep : BitVec 512 := ~~~(BitVec.ofNat 512 ((2 ^ 64 - 1) * 2 ^ (64 * (l % 8))))
  { p with sm := { p.sm with
      lines := smapSet (fun _ => SealLine.zero) p.sm.lines l ⟨data, kid, minor, 0⟩
      tagFlips := smapSet (fun _ => 0) p.sm.tagFlips (l / 8) (tagLineFlips p (l / 8) &&& keep)
      tagCache := p.sm.tagCache.map (fun e => if e.1 = l / 8 then (e.1, e.2 &&& keep) else e) } }

/-- The key-use count of a region (R338). -/
def rgnUse (p : Part) (k : Nat) : Nat := smapGet (fun _ => 0) p.sm.use k

/-- Add line encryptions to the key-use count of a region (R338). -/
def addUse (p : Part) (k n : Nat) : Part :=
  { p with sm := { p.sm with use := smapSet (fun _ => 0) p.sm.use k (smapGet (fun _ => 0) p.sm.use k + n) } }

/-- Read and verify every line of a list. -/
def readLines : List Nat → Part → Sealed (List (BitVec 512))
  | [], p => (p, .ok [])
  | l :: ls, p => (readLine p l).next fun p d => (readLines ls p).next fun p ds => (p, .ok (d :: ds))

/-- MINOR would pass 127 (R335): each line of the group is read and verified; MAJOR advances, every MINOR becomes 0, and
every line is sealed anew, `l` with its new data. -/
def resealGroup (p : Part) (k l : Nat) (data : BitVec 512) : Sealed Unit :=
  let g := l / 64
  let ls := (List.range 64).map (fun j => 64 * g + j)
  (readLines ls p).next fun p ds =>
    let p := { p with sm := { p.sm with major := smapSet (fun _ => 0) p.sm.major g (major p g + 1) } }
    let p := (ls.zip ds).foldl (fun p x => putLine p x.1 (if x.1 = l then data else x.2) 0) p
    (addUse (bumpFld p SEAL_OVF_COUNT 1) k 64, .ok ())

/-- The engine writes one whole line of a region (R334). -/
def writeLine (p : Part) (k l : Nat) (data : BitVec 512) : Sealed Unit :=
  (fetchCounter p l).next fun p _ => (fetchTags p l true).next fun p _ =>
    let p := dirtyBlock p (lineStack l) 0 (l / 128)
    let m := (sealLine p l).minor
    if m < 127 then (addUse (putLine p l data (m + 1)) k 1, .ok ()) else resealGroup p k l data

/-- A line with bytes from offset `o` replaced. -/
def lineWith (d : BitVec 512) (o : Nat) (b : List Byte) : BitVec 512 :=
  BitVec.ofNat 512 (leNat ((lineBytes d).take o ++ b ++ (lineBytes d).drop (o + b.length)))

/-- Write bytes from a sealed address, line by line; a part of a line is a read followed by a write (R334). -/
def writeBytes (k : Nat) : Nat → Part → Nat → List Byte → Sealed Unit
  | 0, p, _, _ => (p, .ok ())
  | n + 1, p, a, b =>
    if b.isEmpty then (p, .ok ())
    else
      let o := a % 64
      let here := b.take (64 - o)
      let old : Sealed (BitVec 512) := if here.length = 64 then (p, .ok 0) else readLine p (a / 64)
      old.next fun p d =>
        (writeLine p k (a / 64) (lineWith d o here)).next fun p _ =>
          writeBytes k n p (a + here.length) (b.drop (64 - o))

/-- Read bytes from a sealed address, line by line. -/
def readBytes : Nat → Part → Nat → Nat → Sealed (List Byte)
  | 0, p, _, _ => (p, .ok [])
  | n + 1, p, a, len =>
    if len = 0 then (p, .ok [])
    else
      let o := a % 64
      let here := min len (64 - o)
      (readLine p (a / 64)).next fun p d =>
        (readBytes n p (a + here) (len - here)).next fun p b => (p, .ok (sliceBytes (lineBytes d) o here ++ b))

/-! ### Accesses and the sealing halt -/

/-- CATCH_SEAL (R342): the first failure is recorded, the engine stops, and a REKEY in progress completes with
ERR_HALTED. -/
def sealCatch (p : Part) (f : SealFail) : Part :=
  let p := if fld p SEAL_FAIL_CAUSE = 0 then
      setFld (setFld (setFld (setFld (setFld p SEAL_FAIL_CAUSE f.cause) SEAL_FAIL_STACK f.stack) SEAL_FAIL_LEVEL f.level)
        SEAL_FAIL_LINE (if f.line then 1 else 0)) SEAL_FAIL_INDEX f.index
    else p
  let p := raise p 120 [(1, f.cause), (1, f.stack), (1, f.level), (4, f.index)]
  let walk := p.sm.walk
  let p := setFld { p with sm := { p.sm with stopped := true, walk := none } } SEAL_REKEY_BUSY 0
  let p := match walk with
    | some (_, some h) => completeSt p h .errHalted
    | _ => p
  blockCatch p .seal 13 f.cause

/-- The failure of an entropy source at a rekey draw (cause 7). -/
def entropyFail : SealFail := ⟨7, 0, 0, 0, false⟩

/-- Reject an access (R325): counted, event source 125, ERR_WINDOW. -/
def rejectAccess (p : Part) (u : SealUser) (a len : Nat) : Part :=
  raise (bumpFld p SEAL_REJ_COUNT 1) 125 [(1, (sealUserBit u)), (4, len), (8, a)]

/-- An access of an initiator: ERR_HALTED once the engine has stopped or in a part halt (R342, R416), ERR_STATE while
the stacks are not ready, ERR_WINDOW where no region allows it (R325); otherwise `act` on the region, and a check that
fails stops the engine with ERR_HALTED and hands nothing over (DESIGN CHOICE, log 49). -/
def sealAccess (p : Part) (u : SealUser) (a len : Nat) (act : Part → Nat → Sealed (List Byte)) :
    Part × Status × List Byte :=
  if p.sm.stopped || partHalted p then (p, .errHalted, [])
  else if !hbmReady p then (p, .errState, [])
  else match rgnFor p u a len with
    | none => (rejectAccess p u a len, .errWindow, [])
    | some k => match act p k with
      | (p, .ok b) => (p, .ok, b)
      | (p, .error f) => (sealCatch p f, .errHalted, [])

/-- An initiator writes sealed memory. -/
def sealWrite (p : Part) (u : SealUser) (a : Nat) (b : List Byte) : Part × Status :=
  let r := sealAccess p u a b.length (fun p k => (writeBytes k (b.length + 1) p a b).next fun p _ => (p, .ok []))
  (r.1, r.2.1)

/-- An initiator reads sealed memory. -/
def sealRead (p : Part) (u : SealUser) (a len : Nat) : Part × Status × List Byte :=
  sealAccess p u a len (fun p _ => readBytes (len + 1) p a len)

/-- SEALED_READ (R325, R333, R342). -/
def sealedRead (u : SealUser) (a len : BitVec 64) (ds : List Disturb) (p : Part) : Part :=
  let r := sealRead (ds.foldl applyDisturb p) u a.toNat len.toNat
  { r.1 with sm := { r.1.sm with lastStatus := r.2.1, lastRead := r.2.2 } }

/-- SEALED_WRITE (R325, R334, R335, R342). -/
def sealedWrite (u : SealUser) (a : BitVec 64) (b : List Byte) (ds : List Disturb) (p : Part) : Part :=
  let r := sealWrite (ds.foldl applyDisturb p) u a.toNat b
  { r.1 with sm := { r.1.sm with lastStatus := r.2, lastRead := [] } }

/-! ### Region and encryption writes -/

/-- Do two used regions overlap? -/
def rgnClash (p : Part) (j k : Nat) : Bool :=
  decide (j ≠ k) && decide (rgnSize p j ≠ 0) && decide (rgnSize p k ≠ 0) &&
  decide (rgnBase p j < rgnBase p k + rgnSize p k) && decide (rgnBase p k < rgnBase p j + rgnSize p j)

/-- Is region `k`, when used, inside the sealed space and clear of every other used region (R324)? -/
def rgnOk (p : Part) (k : Nat) : Bool :=
  rgnSize p k == 0 || (decide (rgnBase p k + rgnSize p k ≤ 43008) && (List.range 16).all (fun j => !rgnClash p j k))

/-- SEAL_REGION_WRITE (R9, R323, R324): a write of SEAL_RGNk_BASE, or of SEAL_RGNk_SIZE when `size`. -/
def sealRegionWrite (k : Fin 16) (size : Bool) (v : Reg32) (p : Part) : Part :=
  if k.val < 2 ∨ locked p = true then p
  else
    let i := k.val - 2
    let q := if size then setFldI (setFldI p SEAL_SIZE_MIB i (v.toNat % 65536)) SEAL_INIT i (natBits v.toNat 16 5)
             else setFldI p SEAL_BASE_MIB i (v.toNat % 65536)
    if rgnOk q k.val then rwlAccepted (setFld q SEAL_RGN_ERR 0) else setFld p SEAL_RGN_ERR 1

/-- Does the loader have a load in progress? -/
def loadInProgress (p : Part) : Bool :=
  !p.loader.jobs.isEmpty || p.loader.writing.isSome || p.loader.stream.isSome || p.regions.any (fun r => r.coming.isSome && r.state != .held)

/-- A new initialisation (R327, R328) erases the sealed space and its keys; it ends a rekey walk, whose REKEY completes
with ERR_ABORTED, and starts nothing again after a sealing halt (DESIGN CHOICE, log 49). -/
def reinit (p : Part) : Part :=
  let again (s : StackState) : StackState := if s = .ready then .initialising else s
  let walk := p.sm.walk
  let p := { p with sm := { SealState.init with drbg := p.sm.drbg, stopped := p.sm.stopped,
                                                lastStatus := p.sm.lastStatus, lastRead := p.sm.lastRead }
                    boot := { p.boot with stack0 := again p.boot.stack0, stack1 := again p.boot.stack1 } }
  let p := setFld (setFld (setFld (setFld (setFld p SEAL_KID_CUR 0) SEAL_KID_LIVE 0) SEAL_REKEY_BUSY 0) SEAL_SWEEP_BUSY 0)
    SEAL_REKEY_WAIT 0
  match walk with
  | some (_, some h) => completeSt p h .errAborted
  | _ => p

/-- SEAL_ENC_EN_WRITE (R328). -/
def sealEncEnWrite (v : Bool) (p : Part) : Part :=
  let want := if v then 1 else 0
  if fldOn p SEAL_ENC_FORCED then p
  else if p.tk.fab != .off || loadInProgress p then setFld p SEAL_RGN_ERR 1
  else
    let p := setFld p SEAL_RGN_ERR 0
    if fld p SEAL_ENC_EN = want then p else reinit (setFld p SEAL_ENC_EN want)

/-- The state of a stack. -/
def stackOf (p : Part) (k : Nat) : StackState := if k = 0 then p.boot.stack0 else p.boot.stack1

/-- Put the state of a stack. -/
def setStack (p : Part) (k : Nat) (s : StackState) : Part :=
  if k = 0 then { p with boot := { p.boot with stack0 := s } } else { p with boot := { p.boot with stack1 := s } }

/-- Stack `k` does not become READY: it failed its stage 6 (R432). -/
def failStack (p : Part) (k : Nat) : Part :=
  let boot := testOf p (8 + k) == 1
  let p := setTest (setStack p k .failed) (8 + k) 3
  if boot then raise p 201 [(1, 8 + k), (1, 1)] else p

/-- The key of an initialisation is drawn once for both stacks (R326): identity 0. Without entropy neither stack becomes
READY, and event source 127 is raised (R327). -/
def initialDraw (p : Part) (entropy : Option (BitVec 384)) : Part :=
  match p.sm.drawn, entropy with
  | some _, _ => p
  | none, some e =>
    let p := drawKey p 0 e
    setFld { p with sm := { p.sm with drawn := some true } } SEAL_KID_LIVE 1
  | none, none => raise { p with sm := { p.sm with drawn := some false } } 127 []

/-- A stack is written anew (R327): every data line zero under identity 0, every tag, counter block and node to match. -/
def writeStack (p : Part) (k : Nat) : Part :=
  let keep (line : Nat) : Bool := lineStack line != k
  { p with sm := { p.sm with
      lines := smapFilter keep p.sm.lines
      major := smapFilter (fun g => keep (64 * g)) p.sm.major
      tagFlips := smapFilter (fun t => keep (8 * t)) p.sm.tagFlips
      blkFlips := smapFilter (fun key => (keyParts key).1 != k) p.sm.blkFlips } }

/-- The initialisation of a stack ends (R326, R327): with a key drawn the stack has been written anew and becomes READY
with event source 126; without one it fails. -/
def stackInitialised (stack : Fin 2) (entropy : Option (BitVec 384)) (p : Part) : Part :=
  if stackOf p stack.val ≠ .initialising then p
  else
    let p := initialDraw p entropy
    if p.sm.drawn = some true then
      let boot := testOf p (8 + stack.val) == 1
      let p := raise (setStack (writeStack p stack.val) stack.val .ready) 126 [(1, fld p SEAL_ENC_EN)]
      let p := setTest p (8 + stack.val) 2
      if boot then raise p 201 [(1, 8 + stack.val), (1, 0)] else p
    else failStack p stack.val

/-- The training of a stack ends (R426, R432). -/
def stackTrained (stack : Fin 2) (pass : Bool) (p : Part) : Part :=
  if stackOf p stack.val ≠ .training then p
  else if pass then setStack p stack.val .initialising
  else failStack p stack.val

/-! ### Rekeying -/

/-- The first retired identity after the current one (R338). -/
def nextKid (p : Part) : Option Nat :=
  [1, 2, 3].findSome? (fun d => if kidRetired p ((curKid p + d) % 4) then some ((curKid p + d) % 4) else none)

/-- Put the automatic rekeys that wait, in ascending order (R341). -/
def setWaiting (p : Part) (l : List Nat) : Part :=
  setFld { p with sm := { p.sm with waiting := l } } SEAL_REKEY_WAIT (if l.isEmpty then 0 else 1)

/-- Start a rekey of a region under a new identity, whose key is drawn now (R326, R338); CATCH_SEAL without entropy
(R341). -/
def startRekey (p : Part) (k kid : Nat) (h : Option Hdr) (entropy : Option (BitVec 384)) : Part :=
  match entropy with
  | none =>
    let p := sealCatch p entropyFail
    match h with
    | some h => completeSt p h .errHalted
    | none => p
  | some e =>
    let p := drawKey (setWaiting p (p.sm.waiting.filter (· != k))) kid e
    let p := setFld (setFld p SEAL_KID_CUR kid) SEAL_KID_LIVE (fld p SEAL_KID_LIVE ||| 2 ^ kid)
    let p := bumpFld { p with sm := { p.sm with use := smapSet (fun _ => 0) p.sm.use k 0 } } SEAL_REKEY_COUNT 1
    let p := setFld (setFld p SEAL_REKEY_BUSY 1) SEAL_REKEY_RGN k
    raise { p with sm := { p.sm with walk := some (k, h) } } 121 [(1, k), (1, kid), (1, if h.isSome then 1 else 0)]

/-- REKEY (R341, R342). -/
def rekey (h : Hdr) (entropy : Option (BitVec 384)) (p : Part) : Part :=
  beginUnit p (.rekey h entropy) h 0x38 13 fun p =>
    let k := h.par 0x08 1
    if p.sm.stopped then completeSt p h .errHalted
    else if !hbmReady p then completeSt p h .errState
    else if k < 2 ∨ rgnSize p k = 0 then completeSt p h .errParam
    else match nextKid p with
      | none => completeSt p h .errState
      | some kid => if p.sm.walk.isSome then completeSt p h .errState else startRekey p k kid (some h) entropy

/-- Insert a number into an ascending list, once. -/
def insertUp (k : Nat) : List Nat → List Nat
  | [] => [k]
  | j :: l => if k = j then j :: l else if k < j then k :: j :: l else j :: insertUp k l

/-- Is an automatic rekey of region `k` due (R338)? -/
def rekeyDue (p : Part) (k : Nat) : Bool := decide (rgnSize p k ≠ 0) && decide (2 ^ 48 ≤ rgnUse p k)

/-- REKEY_AUTO_START (R338, R341): the key-use count of a region has reached 2^48. The rekey starts unless a walk runs,
no identity is retired, or a lower region is due or waits; then it waits, with event source 124. -/
def rekeyAutoStart (k : Fin 16) (entropy : Option (BitVec 384)) (p : Part) : Part :=
  if sealState p ≠ 2 ∨ rekeyDue p k.val = false ∨ p.sm.waiting.contains k.val = true ∨
     (p.sm.walk.map (·.1)) = some k.val then p
  else
    let lower := (List.range k.val).any (fun j => rekeyDue p j || p.sm.waiting.contains j)
    match p.sm.walk, nextKid p, lower with
    | none, some kid, false => startRekey p k.val kid none entropy
    | _, _, _ => raise (setWaiting p (insertUp k.val p.sm.waiting)) 124 [(1, k.val)]

/-- REKEY_DEFERRED_START (R341): an automatic rekey that waited starts, the lowest region first. -/
def rekeyDeferredStart (entropy : Option (BitVec 384)) (p : Part) : Part :=
  if sealState p ≠ 2 then p
  else match p.sm.waiting, p.sm.walk, nextKid p with
    | k :: _, none, some kid => startRekey p k kid none entropy
    | _, _, _ => p

/-- Is a line of region `k`? -/
def lineInRgn (p : Part) (k l : Nat) : Bool :=
  decide (rgnBase p k ≤ l / 16384) && decide (l / 16384 < rgnBase p k + rgnSize p k)

/-- The lines of region `k` that carry another identity than the current one. -/
def oldLines (p : Part) (k : Nat) : Nat :=
  let cur := curKid p
  let chunks := ((List.range (rgnSize p k)).filter (fun i => chunkKid p (rgnBase p k + i) != cur)).length
  let off := (p.sm.lines.filter (fun e => lineInRgn p k e.1 && e.2.kid == some cur)).length
  let on := (p.sm.lines.filter (fun e => lineInRgn p k e.1 && e.2.kid.isSome && e.2.kid != some cur &&
              chunkKid p (e.1 / 16384) == cur)).length
  chunks * 16384 - off + on

/-- The counter groups of region `k` in which some stored bit is upset, ascending. -/
def upsetGroups (p : Part) (k : Nat) : List Nat :=
  let lines := (p.sm.lines.filter (fun e => e.2.flips != 0)).map (·.1 / 64)
  let tags := p.sm.tagFlips.map (·.1 / 8)
  let blocks := p.sm.blkFlips.flatMap (fun e =>
    let (stack, lvl, idx) := keyParts e.1
    if 3 ≤ lvl then [] else (List.range (8 ^ lvl)).map (fun i => 2 * (idx * 8 ^ lvl + i) + stack))
  (lines ++ tags ++ blocks).foldl (fun m g => if lineInRgn p k (64 * g) then insertUp g m else m) []

/-- Does a counter block or node of levels 0 to 2 lie in region `k`? -/
def nodeInRgn (p : Part) (k key : Nat) : Bool :=
  let (_, lvl, idx) := keyParts key
  decide (lvl < 3) && decide (rgnBase p k ≤ nodeMib lvl idx) && decide (nodeMib lvl idx < rgnBase p k + rgnSize p k)

/-- Is a line to be sealed anew: every line in a walk, in a sweep one that carries an older identity (R339, R340)? -/
def lineDue (p : Part) (walk : Bool) (l : Nat) : Bool := walk || lineKid p l != curKid p

/-- Is a counter block or node to be sealed anew: every one in a walk, in a sweep one that carries an older identity or
is above such a one, whose new digest it takes (R332, R339, R340)? -/
def blockDue (p : Part) (walk : Bool) (stack : Nat) : Nat → Nat → Bool
  | 0, idx => walk || blockKid p stack 0 idx != curKid p
  | lvl + 1, idx => walk || blockKid p stack (lvl + 1) idx != curKid p ||
      (List.range 8).any (fun j => blockDue p walk stack lvl (8 * idx + j))

/-- Is the counter block or node of a key one of levels 0 to 2 in region `k`, and to be sealed anew? -/
def keyDue (p : Part) (walk : Bool) (k key : Nat) : Bool :=
  nodeInRgn p k key && blockDue p walk (keyParts key).1 (keyParts key).2.1 (keyParts key).2.2

/-- Fetch every counter block or node of a list of keys. -/
def fetchKeys : List Nat → Part → Sealed Unit
  | [], p => (p, .ok ())
  | key :: ks, p => (fetchBlock 32 p (keyParts key).1 (keyParts key).2.1 (keyParts key).2.2).next fun p _ => fetchKeys ks p

/-- Read and verify what a walk or sweep seals anew of region `k`: its lines in ascending address, then its counter
blocks and nodes (R339, R340); groups and blocks without upset bits pass (`Laws.Sealed`). -/
def verifyRegion (p : Part) (walk : Bool) (k : Nat) : Sealed Unit :=
  let lines := ((upsetGroups p k).flatMap (fun g => (List.range 64).map (fun j => 64 * g + j))).filter (lineDue p walk)
  let keys := (p.sm.blkFlips.map (·.1)).filter (keyDue p walk k)
  (readLines lines p).next fun p _ => fetchKeys keys p

/-- The keys of the nodes of levels 3 to 6 above region `k`. -/
def nodesAbove (p : Part) (k : Nat) : List Nat :=
  if rgnSize p k = 0 then []
  else [0, 1].flatMap (fun stack => [3, 4, 5, 6].flatMap (fun lvl =>
    let lo := rgnBase p k * 128 / 8 ^ lvl
    let hi := ((rgnBase p k + rgnSize p k) * 128 - 1) / 8 ^ lvl
    (List.range (hi + 1 - lo)).map (fun i => nodeKey stack lvl (lo + i))))

/-- The upset bits of a tag line that stay when the lines to be sealed anew get new tags. -/
def tagsKept (p : Part) (walk : Bool) (t : Nat) (f : BitVec 512) : BitVec 512 :=
  BitVec.ofNat 512 ((List.range 8).foldr (fun j x =>
    (if lineDue p walk (8 * t + j) then 0 else f.toNat / 2 ^ (64 * j) % 2 ^ 64) + 2 ^ 64 * x) 0)

/-- Seal region `k` anew under the current identity: all of it in a walk, in a sweep what carries an older identity, with
the counter blocks and the nodes above them, which go back to the stacks (R339, R340). -/
def resealRegion (p : Part) (walk : Bool) (k : Nat) : Part :=
  let cur := curKid p
  let mibs := (List.range (rgnSize p k)).map (fun i => (rgnBase p k + i, cur))
  let lines := p.sm.lines.map (fun e => (e.1,
    if lineInRgn p k e.1 then { e.2 with kid := none, flips := if lineDue p walk e.1 then 0 else e.2.flips } else e.2))
  let tags (e : Nat × BitVec 512) : Nat × BitVec 512 :=
    if lineInRgn p k (8 * e.1) then (e.1, tagsKept p walk e.1 e.2) else e
  let clean (c : List CacheLine) : List CacheLine :=
    c.map (fun e => if keyDue p walk k e.key then { e with dirty := false, old := 0 } else e)
  let above := nodesAbove p k
  let drop {α : Type} (m : SMap α) : SMap α := smapFilter (fun key => !(nodeInRgn p k key || above.contains key)) m
  { p with sm := { p.sm with
      chunkKid := smapSetMany (fun _ => 0) p.sm.chunkKid mibs
      lines := smapSetMany (fun _ => SealLine.zero) [] lines
      tagFlips := smapSetMany (fun _ => 0) [] (p.sm.tagFlips.map tags)
      tagCache := p.sm.tagCache.map tags
      blkChunk := smapSetMany (fun _ => 0) p.sm.blkChunk mibs
      blkKid := smapSetMany (fun _ => none) (drop p.sm.blkKid) (above.map (fun key => (key, some cur)))
      blkFlips := smapFilter (fun key => !(keyDue p walk k key || above.contains key)) p.sm.blkFlips
      topOld := drop p.sm.topOld
      ctrCache := clean p.sm.ctrCache
      treeCache := clean p.sm.treeCache } }

/-- REKEY_WALK_END (R339): every line of the region has been read, verified and sealed anew (DESIGN CHOICE, log 49). -/
def rekeyWalkEnd (p : Part) : Part :=
  match p.sm.walk with
  | none => p
  | some (k, h) =>
    if sealState p ≠ 2 then p
    else match verifyRegion p true k with
      | (p, .error f) => sealCatch p f
      | (p, .ok _) =>
        let p := resealRegion (addUse p k (rgnSize p k * 16384)) true k
        let p := setFld (setFld { p with sm := { p.sm with walk := none } } SEAL_REKEY_BUSY 0) SEAL_SWEEP_BUSY 1
        let p := raise p 122 [(1, k), (1, curKid p)]
        match h with
        | some h => complete p h .ok 0 0
        | none => p

/-- SEAL_IDk_LINES: the data lines of both stacks that carry an identity (R340). -/
def idLines (p : Part) (j : Nat) : Nat :=
  if !hbmReady p then 0
  else
    let named := (p.sm.chunkKid.filter (fun e => e.2 == j)).length
    let chunks := if j = 0 then 43008 - p.sm.chunkKid.length else named
    let left := (p.sm.lines.filter (fun e => e.2.kid.isSome && e.2.kid != some j && chunkKid p (e.1 / 16384) == j)).length
    let joined := (p.sm.lines.filter (fun e => e.2.kid == some j && chunkKid p (e.1 / 16384) != j)).length
    chunks * 16384 - left + joined

/-- Does some counter block or tree node carry an identity (R340)? -/
def blocksCarry (p : Part) (j : Nat) : Bool :=
  let tops := (p.sm.blkKid.filter (fun e => 3 ≤ (keyParts e.1).2.1)).length
  p.sm.blkChunk.any (fun e => e.2 == j) || p.sm.blkKid.any (fun e => e.2 == some j) ||
  (j == 0 && (decide (p.sm.blkChunk.length < 43008) || decide (tops < 2 * 12285)))

/-- Sweep the used regions other than the one of the latest walk, in ascending number (R340) (DESIGN CHOICE, log 49). -/
def sweepRegions : List Nat → Part → Sealed Unit
  | [], p => (p, .ok ())
  | k :: ks, p =>
    if rgnSize p k = 0 ∨ fld p SEAL_REKEY_RGN = k then sweepRegions ks p
    else (verifyRegion p false k).next fun p _ => sweepRegions ks (resealRegion (addUse p k (oldLines p k)) false k)

/-- IDENTITY_RETIRED (R340): a sweep of the other used regions that was under way has ended; the identity retires when no
line, counter block or node carries it any more, and its subkeys are erased. -/
def identityRetired (kid : Fin 4) (p : Part) : Part :=
  if sealState p ≠ 2 ∨ kid.val = curKid p ∨ kidRetired p kid.val = true then p
  else match (if fldOn p SEAL_SWEEP_BUSY then sweepRegions (List.range 16) p else (p, .ok ())) with
    | (p, .error f) => sealCatch p f
    | (p, .ok _) =>
      let p := setFld p SEAL_SWEEP_BUSY 0
      if idLines p kid.val = 0 ∧ blocksCarry p kid.val = false then
        let p := { p with sm := { p.sm with keys := smapSet (fun _ => none) p.sm.keys kid.val none } }
        raise (setFld p SEAL_KID_LIVE (natPut (fld p SEAL_KID_LIVE) kid.val 1 0)) 123 [(1, kid.val)]
      else p

end Sys2Proof.Machine
end

