-- ==== Sys2Proof/Machine/Ecc.lean ====
section
/-!
DEFINITION. Stored words and their SECDED code (R56, R57).
-/
namespace Sys2Proof.Machine

/-- The number of set bits among the low `n` bits of a number. -/
def popCount (x : Nat) : Nat → Nat
  | 0 => 0
  | n + 1 => popCount x n + (if x.testBit n then 1 else 0)

/-- The largest set bit position below `n`, if any. -/
def highBit (x : Nat) : Nat → Option Nat
  | 0 => none
  | n + 1 => if x.testBit n then some n else highBit x n

/-- The decoder's outcome for a stored word (R56). -/
inductive EccKind where
  | clean
  | corrected (bit : Nat)
  | double
  deriving DecidableEq, Repr

/-- The number of upset stored bits. -/
def flipCount (f : BitVec 72) : Nat := popCount f.toNat 72

/-- The data bits as they are stored. -/
def storedData (c : EccWord) : Word := c.data ^^^ (c.flips.setWidth 64)

/-- Does a byte have an odd number of set bits? -/
def oddByte (v : BitVec 8) : Bool :=
  v.getLsbD 0 ^^ v.getLsbD 1 ^^ v.getLsbD 2 ^^ v.getLsbD 3 ^^ v.getLsbD 4 ^^ v.getLsbD 5 ^^ v.getLsbD 6 ^^ v.getLsbD 7

/-- The columns that the check bits have in the check matrix. -/
def unitBytes : List (BitVec 8) := [0x01, 0x02, 0x04, 0x08, 0x10, 0x20, 0x40, 0x80]

/-- The columns that a data bit may have: bytes of odd weight, other than those of the check bits. -/
def oddBytes : List (BitVec 8) :=
  ((List.range 256).map (BitVec.ofNat 8)).filter (fun v => oddByte v && !unitBytes.contains v)

/-- `n` members of a list, each taken once, as `pick` chooses among those left. -/
def pickFrom (pick : Nat → Nat) : Nat → List (BitVec 8) → List (BitVec 8)
  | 0, _ => []
  | n + 1, l =>
    let k := pick n % l.length
    l.getD k 0 :: pickFrom pick n (l.eraseIdx k)

/-- The check matrix of the code (R56): one column for each stored bit, no two alike and all of odd weight, so that the code
corrects every single-bit error and detects every double-bit error; which column a data bit has is open (DESIGN CHOICE,
log 11). -/
def eccColumns : List (BitVec 8) := pickFrom Config.eccPick 64 oddBytes ++ unitBytes

/-- The column of a stored bit. -/
def eccColumn (b : Nat) : BitVec 8 := eccColumns.getD b 0

/-- The sum of the columns of the set bits among the low `n` bits of a number. -/
def columnSum (x : Nat) : Nat → BitVec 8
  | 0 => 0
  | n + 1 => columnSum x n ^^^ (if x.testBit n then eccColumn n else 0)

/-- The check bits of a word. -/
def eccCheck (w : Word) : BitVec 8 := columnSum w.toNat 64

/-- The 72 stored bits: the data bits, and above them the check bits. -/
def storedBits (c : EccWord) : BitVec 72 := (eccCheck c.data ++ c.data) ^^^ c.flips

/-- The decoder, a fixed function of the 72 stored bits (R56): the syndrome names no error, one stored bit, or else a
double-bit error. -/
def eccDecode (y : BitVec 72) : EccKind :=
  let s := columnSum y.toNat 72
  if s = 0 then .clean
  else match (List.range 72).find? (fun b => eccColumn b == s) with
    | some b => .corrected b
    | none => .double

/-- What the decoder finds in a stored word (R56, R57). It is `eccDecode` of the stored bits (`Laws.eccKind_eq_decode`); up to
two upset bits need no syndrome. -/
def eccKind (c : EccWord) : EccKind :=
  if c.flips = 0 then .clean
  else if flipCount c.flips = 1 then .corrected ((highBit c.flips.toNat 72).getD 0)
  else if flipCount c.flips = 2 then .double
  else eccDecode (storedBits c)

/-- The word as it is used: with the stored bit inverted that the syndrome names (R56, R59). -/
def eccData (c : EccWord) : Word :=
  match eccKind c with
  | .corrected b => storedData { c with flips := c.flips ^^^ (1#72 <<< b) }
  | _ => storedData c

/-- A word freshly written, with valid check bits. -/
def cleanWord (w : Word) : EccWord := ⟨w, 0⟩

/-- A correction is written back: the stored bit that the syndrome names is inverted, which leaves valid check bits
(R56, R62, R63). Any other word stays. -/
def fixWord (c : EccWord) : EccWord :=
  match eccKind c with
  | .corrected _ => cleanWord (eccData c)
  | _ => c

end Sys2Proof.Machine
end

