-- ==== Sys2Proof/Machine/SpindleIsa.lean ====
section
/-!
DEFINITION. The spindle instruction word (R72, R75): the 27 instructions of R83 with their fields, the encoder, and
the decoder, which refuses an unused opcode, a nonzero reserved bit and a reserved field value (R73, R74).
-/
namespace Sys2Proof.Machine

/-- An operand (R31, R76): a data-memory word, a billet-bus word, the grain word presented on a channel under a tag,
or TR. -/
inductive Opnd where
  | mem (a : Nat)
  | bus (sel : Nat)
  | grain (ch tag : Nat)
  | tr
  deriving DecidableEq, Repr

/-- A spindle instruction. Field names follow R84 and R75. -/
inductive SpInstr where
  | nop
  | bool3 (dst : Nat) (a b c : Opnd) (pub : Bool) (tt : Nat)
  | move (dst : Nat) (a : Opnd) (pub : Bool)
  | sel (dst : Nat) (a b c : Opnd) (pub : Bool) (lm : Nat)
  | add (dst : Nat) (a b : Opnd) (c : Option Opnd) (pub : Bool) (lm ovf : Nat)
  | sub (dst : Nat) (a b : Opnd) (pub : Bool) (lm ovf : Nat)
  | cmp (dst : Nat) (a b : Opnd) (pub : Bool) (lm cond : Nat)
  | min (dst : Nat) (a b : Opnd) (pub : Bool) (lm : Nat) (sgn : Bool)
  | max (dst : Nat) (a b : Opnd) (pub : Bool) (lm : Nat) (sgn : Bool)
  | cmpxPairs (dst : Nat) (a : Opnd) (pub : Bool) (lm : Nat) (sgn desc : Bool) (dist : Nat)
  | cmpxSide (dst : Nat) (a b c : Opnd) (pub : Bool) (lm : Nat) (side : Bool)
  | shf (dst : Nat) (a : Opnd) (pub : Bool) (lm : Nat) (right : Bool) (amt kind : Nat)
  | rot (dst : Nat) (a : Opnd) (pub : Bool) (lm : Nat) (right : Bool) (amt : Nat)
  | popc (dst : Nat) (a : Opnd) (mask : Option Opnd) (pub : Bool) (lm : Nat)
  | prio (dst : Nat) (a : Opnd) (pub : Bool) (lm : Nat) (low : Bool)
  | ldi (dst imm mode : Nat) (pub : Bool)
  | ldiInsert (dst a lane imm : Nat) (pub : Bool)
  | send (tag : Nat) (a : Opnd) (ch : Nat)
  | recv (dst ch tag : Nat) (pub : Bool)
  | bpub (a : Opnd)
  | tblr (idx : Option Nat) (ofs : Nat)
  | tblw (idx : Option Nat) (b : Nat) (ofs : Nat)
  | pin (dst lane wix : Nat) (pub : Bool)
  | pout (a : Opnd) (lane wix : Nat)
  | hist (a : Opnd) (hix : Nat)
  | probe (a : Opnd) (pix : Nat)
  | accept (a : Opnd)
  | uevt (a : Opnd)
  | stat (a : Opnd) (six : Nat)
  deriving DecidableEq, Repr

/-- The opcodes of R83 and R108, one per row of the table of operations. -/
inductive SpOp where
  | nop | bool3 | move | sel | add | sub | cmp | min | max | cmpx | shf | rot | popc | prio | ldi | send | recv
  | bpub | tblr | tblw | pin | pout | hist | probe | accept | uevt | stat
  deriving DecidableEq, Repr

/-- The opcode value (R83). -/
def SpOp.code : SpOp → Nat
  | .nop => 0x00 | .bool3 => 0x01 | .move => 0x02 | .sel => 0x03 | .add => 0x08 | .sub => 0x09 | .cmp => 0x0A
  | .min => 0x0B | .max => 0x0C | .cmpx => 0x0D | .shf => 0x10 | .rot => 0x11 | .popc => 0x12 | .prio => 0x13
  | .ldi => 0x14 | .send => 0x18 | .recv => 0x19 | .bpub => 0x1A | .tblr => 0x1C | .tblw => 0x1D | .pin => 0x20
  | .pout => 0x21 | .hist => 0x24 | .probe => 0x25 | .accept => 0x28 | .uevt => 0x29 | .stat => 0x2A

/-- The opcode of an instruction. -/
def spOpOf : SpInstr → SpOp
  | .nop => .nop | .bool3 .. => .bool3 | .move .. => .move | .sel .. => .sel | .add .. => .add | .sub .. => .sub
  | .cmp .. => .cmp | .min .. => .min | .max .. => .max | .cmpxPairs .. => .cmpx | .cmpxSide .. => .cmpx
  | .shf .. => .shf | .rot .. => .rot | .popc .. => .popc | .prio .. => .prio | .ldi .. => .ldi
  | .ldiInsert .. => .ldi | .send .. => .send | .recv .. => .recv | .bpub .. => .bpub | .tblr .. => .tblr
  | .tblw .. => .tblw | .pin .. => .pin | .pout .. => .pout | .hist .. => .hist | .probe .. => .probe
  | .accept .. => .accept | .uevt .. => .uevt | .stat .. => .stat

/-- The six fields of an instruction word (R72). -/
structure SpFields where
  op : Nat
  dest : Nat
  sa : Nat
  sb : Nat
  sc : Nat
  spec : Nat
  deriving DecidableEq, Repr

/-- Lay the fields out in the word (R72). -/
def joinFields (f : SpFields) : Nat :=
  f.op * 2 ^ 58 + f.dest * 2 ^ 50 + f.sa * 2 ^ 42 + f.sb * 2 ^ 34 + f.sc * 2 ^ 26 + f.spec

/-- Read the fields of the word (R72). -/
def splitFields (w : Nat) : SpFields where
  op := w / 2 ^ 58 % 2 ^ 6
  dest := w / 2 ^ 50 % 2 ^ 8
  sa := w / 2 ^ 42 % 2 ^ 8
  sb := w / 2 ^ 34 % 2 ^ 8
  sc := w / 2 ^ 26 % 2 ^ 8
  spec := w % 2 ^ 26

/-- The fields of form S (R75): PUB, F, XT, XK, XSEL. -/
def joinS (pub : Bool) (f xt xk xsel : Nat) : Nat :=
  pub.toNat * 2 ^ 25 + f * 2 ^ 16 + xt * 2 ^ 14 + xk * 2 ^ 12 + xsel

/-- The address field of an operand: 0 when it is substituted (R73). -/
def opndAddr : Opnd → Nat
  | .mem a => a
  | _ => 0

/-- XK and XSEL of a substituted operand (R76). -/
def opndSub : Opnd → Option (Nat × Nat)
  | .mem _ => none
  | .bus sel => some (0, sel)
  | .grain ch tag => some (1, ch * 2 ^ 8 + tag)
  | .tr => some (2, 0)

/-- XT, XK and XSEL of operands A, B and C, of which at most one is substituted (R76). -/
def subFields (a b c : Opnd) : Nat × Nat × Nat :=
  match opndSub a, opndSub b, opndSub c with
  | some (k, x), _, _ => (1, k, x)
  | _, some (k, x), _ => (2, k, x)
  | _, _, some (k, x) => (3, k, x)
  | _, _, _ => (0, 0, 0)

/-- A word in form S. -/
def encS (op : SpOp) (dst : Nat) (a b c : Opnd) (pub : Bool) (f : Nat) : Nat :=
  let (xt, xk, xsel) := subFields a b c
  joinFields ⟨op.code, dst, opndAddr a, opndAddr b, opndAddr c, joinS pub f xt xk xsel⟩

/-- An operand that the instruction does not read. -/
def noOpnd : Opnd := .mem 0

/-- The encoder (R72, R75, R83, R84, R86, R89 to R96). -/
def encodeNat : SpInstr → Nat
  | .nop => joinFields ⟨0, 0, 0, 0, 0, 0⟩
  | .bool3 dst a b c pub tt => encS .bool3 dst a b c pub tt
  | .move dst a pub => encS .move dst a noOpnd noOpnd pub 0
  | .sel dst a b c pub lm => encS .sel dst a b c pub (lm * 2 ^ 7)
  | .add dst a b c pub lm ovf =>
    encS .add dst a b (c.getD noOpnd) pub (lm * 2 ^ 7 + ovf * 2 ^ 5 + c.isSome.toNat * 2 ^ 4)
  | .sub dst a b pub lm ovf => encS .sub dst a b noOpnd pub (lm * 2 ^ 7 + ovf * 2 ^ 5)
  | .cmp dst a b pub lm cond => encS .cmp dst a b noOpnd pub (lm * 2 ^ 7 + cond * 2 ^ 4)
  | .min dst a b pub lm sgn => encS .min dst a b noOpnd pub (lm * 2 ^ 7 + sgn.toNat * 2 ^ 6)
  | .max dst a b pub lm sgn => encS .max dst a b noOpnd pub (lm * 2 ^ 7 + sgn.toNat * 2 ^ 6)
  | .cmpxPairs dst a pub lm sgn desc dist =>
    encS .cmpx dst a noOpnd noOpnd pub (lm * 2 ^ 7 + sgn.toNat * 2 ^ 6 + desc.toNat * 2 ^ 5 + dist * 2 ^ 3)
  | .cmpxSide dst a b c pub lm side => encS .cmpx dst a b c pub (lm * 2 ^ 7 + 2 ^ 2 + side.toNat * 2)
  | .shf dst a pub lm right amt kind => encS .shf dst a noOpnd (.mem kind) pub (lm * 2 ^ 7 + right.toNat * 2 ^ 6 + amt)
  | .rot dst a pub lm right amt => encS .rot dst a noOpnd noOpnd pub (lm * 2 ^ 7 + right.toNat * 2 ^ 6 + amt)
  | .popc dst a m pub lm => encS .popc dst a (m.getD noOpnd) noOpnd pub (lm * 2 ^ 7 + m.isSome.toNat * 2 ^ 6)
  | .prio dst a pub lm low => encS .prio dst a noOpnd noOpnd pub (lm * 2 ^ 7 + low.toNat * 2 ^ 6)
  | .ldi dst imm mode pub => joinFields ⟨SpOp.ldi.code, dst, 0, 0, 0, imm * 2 ^ 10 + mode * 2 ^ 8 + pub.toNat * 2 ^ 7⟩
  | .ldiInsert dst a lane imm pub =>
    joinFields ⟨SpOp.ldi.code, dst, a, lane, 0, imm * 2 ^ 10 + 3 * 2 ^ 8 + pub.toNat * 2 ^ 7⟩
  | .send tag a ch => encS .send tag a noOpnd noOpnd false (ch * 2 ^ 5)
  | .recv dst ch tag pub => joinFields ⟨SpOp.recv.code, dst, 0, 0, 0, pub.toNat * 2 ^ 25 + ch * 2 ^ 8 + tag⟩
  | .bpub a => encS .bpub 0 a noOpnd noOpnd false 0
  | .tblr idx ofs => joinFields ⟨SpOp.tblr.code, 0, idx.getD 0, 0, 0, idx.isSome.toNat * 2 ^ 23 + ofs * 2 ^ 8⟩
  | .tblw idx b ofs => joinFields ⟨SpOp.tblw.code, 0, idx.getD 0, b, 0, idx.isSome.toNat * 2 ^ 23 + ofs * 2 ^ 8⟩
  | .pin dst lane wix pub =>
    joinFields ⟨SpOp.pin.code, dst, 0, 0, 0, pub.toNat * 2 ^ 25 + lane * 2 ^ 24 + wix * 2 ^ 16⟩
  | .pout a lane wix => encS .pout 0 a noOpnd noOpnd false (lane * 2 ^ 8 + wix)
  | .hist a hix => encS .hist 0 a noOpnd noOpnd false hix
  | .probe a pix => encS .probe 0 a noOpnd noOpnd false pix
  | .accept a => encS .accept 0 a noOpnd noOpnd false 0
  | .uevt a => encS .uevt 0 a noOpnd noOpnd false 0
  | .stat a six => encS .stat 0 a noOpnd noOpnd false six

/-- The encoded word. -/
def encodeSp (i : SpInstr) : Word := BitVec.ofNat 64 (encodeNat i)

/-- Is an operand within its field: an address or a tag of 8 bits, a channel of 4, a selector that names a slot or a
status word (R76 to R78)? -/
def opndOk : Opnd → Bool
  | .mem a => decide (a < 256)
  | .bus sel => decide (sel < 72)
  | .grain ch tag => decide (ch < 16) && decide (tag < 256)
  | .tr => true

/-- Is an operand read from data memory? -/
def opndIsMem : Opnd → Bool
  | .mem _ => true
  | _ => false

/-- At most one operand is substituted (R76). -/
def oneSub (a b c : Opnd) : Bool :=
  (opndIsMem a && opndIsMem b) || (opndIsMem a && opndIsMem c) || (opndIsMem b && opndIsMem c)

/-- The lane width of a lane mode (R80). -/
def laneWidth : Nat → Nat
  | 0 => 16
  | 1 => 32
  | _ => 64

/-- The lane pairs of CMPX with FORM = 0 (R89); none for a reserved combination. -/
def cmpxPairsOf : Nat → Nat → Option (List (Nat × Nat))
  | 0, 0 => some [(0, 1), (2, 3)]
  | 0, 1 => some [(0, 2), (1, 3)]
  | 0, 2 => some [(0, 3), (1, 2)]
  | 1, 0 => some [(0, 1)]
  | _, _ => none

/-- Every field of the instruction holds a value that its definition allows (R73). -/
def spWf : SpInstr → Bool
  | .nop => true
  | .bool3 dst a b c _ tt => decide (dst < 256) && opndOk a && opndOk b && opndOk c && oneSub a b c && decide (tt < 256)
  | .move dst a _ => decide (dst < 256) && opndOk a
  | .sel dst a b c _ lm => decide (dst < 256) && opndOk a && opndOk b && opndOk c && oneSub a b c && decide (lm < 3)
  | .add dst a b c _ lm ovf =>
    decide (dst < 256) && opndOk a && opndOk b && opndOk (c.getD noOpnd) && oneSub a b (c.getD noOpnd) &&
    decide (lm < 3) && decide (ovf < 3)
  | .sub dst a b _ lm ovf =>
    decide (dst < 256) && opndOk a && opndOk b && oneSub a b noOpnd && decide (lm < 3) && decide (ovf < 3)
  | .cmp dst a b _ lm cond =>
    decide (dst < 256) && opndOk a && opndOk b && oneSub a b noOpnd && decide (lm < 3) && decide (cond < 6)
  | .min dst a b _ lm _ => decide (dst < 256) && opndOk a && opndOk b && oneSub a b noOpnd && decide (lm < 3)
  | .max dst a b _ lm _ => decide (dst < 256) && opndOk a && opndOk b && oneSub a b noOpnd && decide (lm < 3)
  | .cmpxPairs dst a _ lm _ _ dist =>
    decide (dst < 256) && opndOk a && decide (lm < 3) && decide (dist < 4) && (cmpxPairsOf lm dist).isSome
  | .cmpxSide dst a b c _ lm _ =>
    decide (dst < 256) && opndOk a && opndOk b && opndOk c && oneSub a b c && decide (lm < 3)
  | .shf dst a _ lm right amt kind =>
    decide (dst < 256) && opndOk a && decide (lm < 3) && decide (amt < laneWidth lm) && decide (kind < 2) &&
    (kind == 0 || right)
  | .rot dst a _ lm _ amt => decide (dst < 256) && opndOk a && decide (lm < 3) && decide (amt < laneWidth lm)
  | .popc dst a m _ lm =>
    decide (dst < 256) && opndOk a && opndOk (m.getD noOpnd) && oneSub a (m.getD noOpnd) noOpnd && decide (lm < 3)
  | .prio dst a _ lm _ => decide (dst < 256) && opndOk a && decide (lm < 3)
  | .ldi dst imm mode _ => decide (dst < 256) && decide (imm < 65536) && decide (mode < 3)
  | .ldiInsert dst a lane imm _ => decide (dst < 256) && decide (a < 256) && decide (lane < 4) && decide (imm < 65536)
  | .send tag a ch => decide (tag < 256) && opndOk a && decide (ch < 16)
  | .recv dst ch tag _ => decide (dst < 256) && decide (ch < 16) && decide (tag < 256)
  | .bpub a => opndOk a
  | .tblr idx ofs => decide (idx.getD 0 < 256) && decide (ofs < 16384)
  | .tblw idx b ofs => decide (idx.getD 0 < 256) && decide (b < 256) && decide (ofs < 16384)
  | .pin dst lane wix _ => decide (dst < 256) && decide (lane < 2) && decide (wix < 128)
  | .pout a lane wix => opndOk a && decide (lane < 2) && decide (wix < 128)
  | .hist a hix => opndOk a && decide (hix < 8)
  | .probe a pix => opndOk a && decide (pix < 4)
  | .accept a => opndOk a
  | .uevt a => opndOk a
  | .stat a six => opndOk a && decide (six < 8)

/-- A form S operand: substituted when XT names it (R76). -/
def decOpnd (x : SpFields) (which addr : Nat) : Opnd :=
  if x.spec / 2 ^ 14 % 4 = which then
    match x.spec / 2 ^ 12 % 4 with
    | 0 => .bus (x.spec % 2 ^ 7)
    | 1 => .grain (x.spec / 2 ^ 8 % 16) (x.spec % 256)
    | _ => .tr
  else .mem addr

/-- The instruction that the fields spell, before the reserved bits are tested: unused opcodes spell none. -/
def parseFields (x : SpFields) : Option SpInstr :=
  let pub := x.spec / 2 ^ 25 % 2 == 1
  let f := x.spec / 2 ^ 16 % 2 ^ 9
  let a := decOpnd x 1 x.sa
  let b := decOpnd x 2 x.sb
  let c := decOpnd x 3 x.sc
  let lm := f / 2 ^ 7 % 4
  let bit6 := f / 2 ^ 6 % 2 == 1
  if x.op = 0x00 then some .nop
  else if x.op = 0x01 then some (.bool3 x.dest a b c pub (f % 256))
  else if x.op = 0x02 then some (.move x.dest a pub)
  else if x.op = 0x03 then some (.sel x.dest a b c pub lm)
  else if x.op = 0x08 then some (.add x.dest a b (if f / 2 ^ 4 % 2 = 1 then some c else none) pub lm (f / 2 ^ 5 % 4))
  else if x.op = 0x09 then some (.sub x.dest a b pub lm (f / 2 ^ 5 % 4))
  else if x.op = 0x0A then some (.cmp x.dest a b pub lm (f / 2 ^ 4 % 8))
  else if x.op = 0x0B then some (.min x.dest a b pub lm bit6)
  else if x.op = 0x0C then some (.max x.dest a b pub lm bit6)
  else if x.op = 0x0D then
    if f / 2 ^ 2 % 2 = 1 then some (.cmpxSide x.dest a b c pub lm (f / 2 % 2 == 1))
    else some (.cmpxPairs x.dest a pub lm bit6 (f / 2 ^ 5 % 2 == 1) (f / 2 ^ 3 % 4))
  else if x.op = 0x10 then some (.shf x.dest a pub lm bit6 (f % 2 ^ 6) x.sc)
  else if x.op = 0x11 then some (.rot x.dest a pub lm bit6 (f % 2 ^ 6))
  else if x.op = 0x12 then some (.popc x.dest a (if bit6 then some b else none) pub lm)
  else if x.op = 0x13 then some (.prio x.dest a pub lm bit6)
  else if x.op = 0x14 then
    let imm := x.spec / 2 ^ 10 % 2 ^ 16
    let lpub := x.spec / 2 ^ 7 % 2 == 1
    if x.spec / 2 ^ 8 % 4 = 3 then some (.ldiInsert x.dest x.sa x.sb imm lpub)
    else some (.ldi x.dest imm (x.spec / 2 ^ 8 % 4) lpub)
  else if x.op = 0x18 then some (.send x.dest a (f / 2 ^ 5 % 16))
  else if x.op = 0x19 then some (.recv x.dest (x.spec / 2 ^ 8 % 16) (x.spec % 256) pub)
  else if x.op = 0x1A then some (.bpub a)
  else if x.op = 0x1C then
    some (.tblr (if x.spec / 2 ^ 23 % 4 = 1 then some x.sa else none) (x.spec / 2 ^ 8 % 2 ^ 14))
  else if x.op = 0x1D then
    some (.tblw (if x.spec / 2 ^ 23 % 4 = 1 then some x.sa else none) x.sb (x.spec / 2 ^ 8 % 2 ^ 14))
  else if x.op = 0x20 then some (.pin x.dest (x.spec / 2 ^ 24 % 2) (x.spec / 2 ^ 16 % 2 ^ 7) pub)
  else if x.op = 0x21 then some (.pout a (f / 2 ^ 8 % 2) (f % 2 ^ 7))
  else if x.op = 0x24 then some (.hist a (f % 8))
  else if x.op = 0x25 then some (.probe a (f % 4))
  else if x.op = 0x28 then some (.accept a)
  else if x.op = 0x29 then some (.uevt a)
  else if x.op = 0x2A then some (.stat a (f % 8))
  else none

/-- The decoder: a word is refused when its opcode is unused, when a field holds a reserved value, or when a bit that
its instruction does not use is not 0, that is, when the word is not the one its instruction encodes to (R73, R74). -/
def decodeSp (w : Word) : Option SpInstr :=
  match parseFields (splitFields w.toNat) with
  | some i => if spWf i && encodeNat i == w.toNat then some i else none
  | none => none

end Sys2Proof.Machine
end

