-- ==== Sys2Proof/Machine/Alu.lean ====
section
/-!
DEFINITION. The results of the spindle instructions (R80, R86 to R92), lane by lane: operands are converted to exact
integers, computed exactly, and narrowed at the end.
-/
namespace Sys2Proof.Machine

/-- Lane `k` of width `w` of a word, as an unsigned integer (x.k of the notation). -/
def lane (w : Nat) (x : Word) (k : Nat) : Nat := x.toNat / 2 ^ (k * w) % 2 ^ w

/-- A lane read as a two's-complement integer of its width (sg). -/
def laneSigned (w : Nat) (x : Word) (k : Nat) : Int :=
  if lane w x k < 2 ^ (w - 1) then (lane w x k : Int) else (lane w x k : Int) - 2 ^ w

/-- The sum of `n` lanes placed at their positions. -/
def lanesSum (w : Nat) (f : Nat → Nat) : Nat → Nat
  | 0 => 0
  | n + 1 => lanesSum w f n + f n % 2 ^ w * 2 ^ (n * w)

/-- The word whose lane `k` holds the low `w` bits of `f k`. -/
def ofLanes (w : Nat) (f : Nat → Nat) : Word := BitVec.ofNat 64 (lanesSum w f (64 / w))

/-- A lane with every bit set. -/
def onesLane (w : Nat) : Nat := 2 ^ w - 1

/-- The low `w` bits of an exact integer. -/
def lowBits (w : Nat) (x : Int) : Nat := (x % (2 ^ w : Int)).toNat

/-- Clamp an exact integer to a range. -/
def clampInt (x lo hi : Int) : Int := if x < lo then lo else if hi < x then hi else x

/-- The low `w` bits of an exact result under an OVF code: 0 wrap, 1 saturate unsigned, 2 saturate signed (R87). -/
def narrow (w ovf : Nat) (x : Int) : Nat :=
  match ovf with
  | 0 => lowBits w x
  | 1 => lowBits w (clampInt x 0 (2 ^ w - 1))
  | _ => lowBits w (clampInt x (-(2 ^ (w - 1))) (2 ^ (w - 1) - 1))

/-- A lane as the integer that an OVF code reads it as: signed for a signed saturation (R87). -/
def ovfLane (w ovf : Nat) (x : Word) (k : Nat) : Int := if ovf = 2 then laneSigned w x k else (lane w x k : Int)

/-- BOOL3: bit j of the result is TT[4a + 2b + c] (R86). -/
def resBool3 (tt : Nat) (a b c : Word) : Word :=
  ofLanes 1 (fun j => if tt.testBit (4 * lane 1 a j + 2 * lane 1 b j + lane 1 c j) then 1 else 0)

/-- SEL: lane a where the lane of c is not zero, else lane b (R86). -/
def resSel (lm : Nat) (a b c : Word) : Word :=
  let w := laneWidth lm
  ofLanes w (fun k => if lane w c k ≠ 0 then lane w a k else lane w b k)

/-- LDI: replicate, zero-extend or sign-extend a 16-bit immediate (R86). -/
def resLdi (imm mode : Nat) : Word :=
  match mode with
  | 0 => ofLanes 16 (fun _ => imm)
  | 1 => BitVec.ofNat 64 imm
  | _ => BitVec.ofNat 64 (if imm < 2 ^ 15 then imm else imm + (2 ^ 64 - 2 ^ 16))

/-- LDI, MODE 11: one 16-bit lane of a replaced by the immediate (R86). -/
def resInsert (a : Word) (sel imm : Nat) : Word := ofLanes 16 (fun k => if k = sel then imm else lane 16 a k)

/-- ADD of two or three words (R87). -/
def resAdd (lm ovf : Nat) (a b : Word) (c : Option Word) : Word :=
  let w := laneWidth lm
  ofLanes w (fun k => narrow w ovf (ovfLane w ovf a k + ovfLane w ovf b k +
    (match c with | some x => ovfLane w ovf x k | none => 0)))

/-- SUB (R87). -/
def resSub (lm ovf : Nat) (a b : Word) : Word :=
  let w := laneWidth lm
  ofLanes w (fun k => narrow w ovf (ovfLane w ovf a k - ovfLane w ovf b k))

/-- Is lane b below lane a, signed or unsigned (R87)? -/
def laneLt (w : Nat) (sgn : Bool) (b a : Word) (k : Nat) : Bool :=
  if sgn then decide (laneSigned w b k < laneSigned w a k) else decide (lane w b k < lane w a k)

/-- MIN (R87). -/
def resMin (lm : Nat) (sgn : Bool) (a b : Word) : Word :=
  let w := laneWidth lm
  ofLanes w (fun k => if laneLt w sgn b a k then lane w b k else lane w a k)

/-- MAX (R87). -/
def resMax (lm : Nat) (sgn : Bool) (a b : Word) : Word :=
  let w := laneWidth lm
  ofLanes w (fun k => if laneLt w sgn b a k then lane w a k else lane w b k)

/-- The conditions of CMP: EQ, NE, LTU, LEU, LT, LE (R88). -/
def cmpHolds (w cond : Nat) (a b : Word) (k : Nat) : Bool :=
  match cond with
  | 0 => decide (lane w a k = lane w b k)
  | 1 => decide (lane w a k ≠ lane w b k)
  | 2 => decide (lane w a k < lane w b k)
  | 3 => decide (lane w a k ≤ lane w b k)
  | 4 => decide (laneSigned w a k < laneSigned w b k)
  | _ => decide (laneSigned w a k ≤ laneSigned w b k)

/-- CMP (R88). -/
def resCmp (lm cond : Nat) (a b : Word) : Word :=
  let w := laneWidth lm
  ofLanes w (fun k => if cmpHolds w cond a b k then onesLane w else 0)

/-- The lane that CMPX with FORM = 0 puts at position `k`: pairs are put in order (R89). -/
def pairLane (w : Nat) (sgn desc : Bool) (a : Word) : List (Nat × Nat) → Nat → Nat
  | [], k => lane w a k
  | (lo, hi) :: l, k =>
    let less := if sgn then decide (laneSigned w a hi < laneSigned w a lo) else decide (lane w a hi < lane w a lo)
    let small := if less then lane w a hi else lane w a lo
    let large := if less then lane w a lo else lane w a hi
    if k = lo then (if desc then large else small)
    else if k = hi then (if desc then small else large)
    else pairLane w sgn desc a l k

/-- CMPX with FORM = 0 (R89). -/
def resCmpxPairs (lm dist : Nat) (sgn desc : Bool) (a : Word) : Word :=
  let w := laneWidth lm
  ofLanes w (pairLane w sgn desc a ((cmpxPairsOf lm dist).getD []))

/-- CMPX with FORM = 1: the lane with the smaller or the larger key (R90). -/
def resCmpxSide (lm : Nat) (side : Bool) (a b c : Word) : Word :=
  let w := laneWidth lm
  ofLanes w (fun k =>
    let swap := decide (lane w (b &&& c) k < lane w (a &&& c) k)
    if side then (if swap then lane w a k else lane w b k) else (if swap then lane w b k else lane w a k))

/-- SHF (R91): left with zero fill, right with zero fill, or right with copies of the sign. -/
def resShf (lm : Nat) (right : Bool) (amt kind : Nat) (a : Word) : Word :=
  let w := laneWidth lm
  ofLanes w (fun k =>
    if !right then lane w a k * 2 ^ amt
    else if kind = 0 then lane w a k / 2 ^ amt
    else lowBits w (laneSigned w a k / 2 ^ amt))

/-- ROT (R91). -/
def resRot (lm : Nat) (right : Bool) (amt : Nat) (a : Word) : Word :=
  let w := laneWidth lm
  ofLanes w (fun k =>
    let x := lane w a k
    if amt = 0 then x
    else if !right then (x * 2 ^ amt % 2 ^ w) ||| (x / 2 ^ (w - amt))
    else (x / 2 ^ amt) ||| (x * 2 ^ (w - amt) % 2 ^ w))

/-- POPC, with b as an optional mask (R92). -/
def resPopc (lm : Nat) (a : Word) (m : Option Word) : Word :=
  let w := laneWidth lm
  ofLanes w (fun k => popCount (lane w (match m with | some b => a &&& b | none => a) k) w)

/-- PRIO: the position of the highest or lowest set bit; ones for a lane of zero (R92). -/
def resPrio (lm : Nat) (low : Bool) (a : Word) : Word :=
  let w := laneWidth lm
  ofLanes w (fun k =>
    let x := lane w a k
    if low then ((List.range w).find? (fun j => x.testBit j)).getD (onesLane w)
    else (highBit x w).getD (onesLane w))

end Sys2Proof.Machine
end

