-- ==== Sys2Proof/Machine/Operands.lean ====
section
/-!
DEFINITION. Stored words and their code (R56 to R65), the fetch of an instruction, its operands (R31 to R37, R76 to
R79), and the ways its result leaves it (R81). Every spindle instruction goes through these operations.
-/
namespace Sys2Proof.Machine

/-- Billet number b = c × 32 + r (R27). -/
def billetNo (col row : Nat) : Nat := col * 32 + row

/-- Where and when a spindle instruction executes: virtual column, row, spindle index, execute step (R27, R29). -/
structure Site where
  col : Nat
  row : Nat
  idx : Nat
  step : Nat
  deriving DecidableEq, Repr

/-- Spindle number ((c × 32) + r) × 64 + i (R27). -/
def Site.sp (a : Site) : Nat := billetNo a.col a.row * 64 + a.idx

/-- Billet number of a site. -/
def Site.bil (a : Site) : Nat := billetNo a.col a.row

/-- A stored data-memory word. -/
def dword (p : Part) (k : Nat) : EccWord := smapGet (fun _ => EccWord.zero) p.sp.dmem k

/-- A stored instruction-memory entry. -/
def iword (p : Part) (k : Nat) : EccWord := smapGet (fun _ => EccWord.zero) p.sp.imem k

/-- A stored table word. -/
def tword (p : Part) (k : Nat) : EccWord := smapGet (fun _ => EccWord.zero) p.sp.table k

/-- Store a data-memory word. -/
def setDword (p : Part) (k : Nat) (c : EccWord) : Part :=
  { p with sp := { p.sp with dmem := smapSet (fun _ => EccWord.zero) p.sp.dmem k c } }

/-- Store an instruction-memory entry. -/
def setIword (p : Part) (k : Nat) (c : EccWord) : Part :=
  { p with sp := { p.sp with imem := smapSet (fun _ => EccWord.zero) p.sp.imem k c } }

/-- Store a table word. -/
def setTword (p : Part) (k : Nat) (c : EccWord) : Part :=
  { p with sp := { p.sp with table := smapSet (fun _ => EccWord.zero) p.sp.table k c } }

/-- The physical billet that carries a virtual one: the counters of corrected errors belong to it (R66). -/
def physBillet (p : Part) (b : Nat) : Nat := p.cols.getD (b / 32) (b / 32) * 32 + b % 32

/-- Count one corrected error in a 16-bit counter of a physical billet. -/
def bumpCe (m : SMap Nat) (pb : Nat) : SMap Nat :=
  smapSet (fun _ => 0) m pb (min (smapGet (fun _ => 0) m pb + 1) 65535)

/-- Count a corrected data-memory error of a billet (R59, R66). -/
def countCeD (p : Part) (b : Nat) : Part := { p with sp := { p.sp with ceD := bumpCe p.sp.ceD (physBillet p b) } }

/-- Count a corrected instruction-memory error of a billet (R59, R66). -/
def countCeI (p : Part) (b : Nat) : Part := { p with sp := { p.sp with ceI := bumpCe p.sp.ceI (physBillet p b) } }

/-- Count a corrected table error of a billet and in GRN_TBL_CE (R132, R133). -/
def countCeT (p : Part) (b : Nat) : Part :=
  bumpFld { p with sp := { p.sp with ceT := bumpCe p.sp.ceT (physBillet p b) } } GRN_TBL_CE_COUNT 1

/-- Queue a location for write-back: at most `cap` places, each location once (R63, R65, R132). -/
def enqueueFix (cap : Nat) (m : SMap (List Nat)) (k addr : Nat) : SMap (List Nat) :=
  let q := smapGet (fun _ => []) m k
  if q.contains addr || decide (cap ≤ q.length) then m else smapSet (fun _ => []) m k (q ++ [addr])

/-- Take a location out of a queue: the blank or the host has written it (R64, R132). -/
def dequeueFix (m : SMap (List Nat)) (k addr : Nat) : SMap (List Nat) :=
  smapSet (fun _ => []) m k ((smapGet (fun _ => []) m k).filter (fun a => a != addr))

/-- The pending write of a spindle reaches data memory (R33); a queued correction of that address is dropped (R64). -/
def commitPend (p : Part) (sp : Nat) : Part :=
  let w := smapGet (fun _ => (⟨0, 0, 0⟩ : PendWrite)) p.sp.pend sp
  if w.step = 0 then p
  else
    let p := setDword p (sp * 256 + w.addr) (cleanWord w.val)
    { p with sp := { p.sp with dQueue := dequeueFix p.sp.dQueue sp w.addr,
                               pend := smapSet (fun _ => (⟨0, 0, 0⟩ : PendWrite)) p.sp.pend sp ⟨0, 0, 0⟩ } }

/-- The pending write of a spindle reaches data memory in time for the operand reads of step `s`: it was executed at
`s − 2` or earlier (R34). -/
def settlePend (p : Part) (sp s : Nat) : Part :=
  if (smapGet (fun _ => (⟨0, 0, 0⟩ : PendWrite)) p.sp.pend sp).step + 2 ≤ s then commitPend p sp else p

/-- A spindle catch (R105). -/
def spindleCatch (p : Part) (c : CatchClass) (a : Site) (flags detail : Nat) : Part :=
  raiseCatch p c (.spindle a.col a.row a.idx) a.step flags detail

/-- The instruction of a site is suppressed (R60): its slots carry a tagged zero, and nothing else comes of it. -/
def suppress (p : Part) (a : Site) : Part :=
  { p with sp := { p.sp with suppressed := smapSet (fun _ => false) p.sp.suppressed (a.sp * 1024 + a.step) true } }

/-- Was the instruction of a spindle at a step of this tick suppressed? -/
def suppressedAt (p : Part) (sp step : Nat) : Bool := smapGet (fun _ => false) p.sp.suppressed (sp * 1024 + step)

/-- The word an instruction sees on the billet bus at its execute step (R35, R41, R42, R77). FIRST reads 1 in the
first tick of RUNNING, and within a region in its release tick (R55). -/
def busValue (p : Part) (a : Site) (sel : Nat) : Word :=
  if sel < 64 then
    let b := smapGet (fun _ => (⟨0, 0, 0⟩ : BusSlot)) p.sp.bus (a.bil * 64 + sel)
    if b.step < a.step then b.latest else b.settled
  else
    let st := p.gr.status
    let first := decide (fld64 p FAB_START_TICK_L FAB_START_TICK_H = p.tk.tick) ||
      (match regionOfCol p a.col with
       | some k => (regionAt p k).relTick == some p.tk.tick
       | none => false)
    match sel - 64 with
    | 0 => st.s0
    | 1 => BitVec.ofNat 64 ((if st.acceptReady then 1 else 0) + (if first then 2 else 0))
    | 2 => st.s2
    | 3 => st.s3
    | 4 => st.s4
    | 5 => st.s5
    | _ => 0

/-- TR as an instruction sees it at its execute step (R36). -/
def trValue (p : Part) (a : Site) : Word :=
  let t := smapGet (fun _ => (⟨0, []⟩ : TrState)) p.sp.tr a.sp
  t.coming.foldl (fun v e => if e.1 ≤ a.step then e.2 else v) t.cur

/-- TR is to take a word at step `s + 3` (R36). -/
def loadTr (p : Part) (a : Site) (w : Word) : Part :=
  let t := smapGet (fun _ => (⟨0, []⟩ : TrState)) p.sp.tr a.sp
  { p with sp := { p.sp with
      tr := smapSet (fun _ => (⟨0, []⟩ : TrState)) p.sp.tr a.sp ⟨t.cur, t.coming ++ [(a.step + 3, w)]⟩ } }

/-- Is a channel the edge I/O channel of a corner billet, on a grid of `cv` columns (R139)? -/
def edgeAt (cv col row ch : Nat) : Bool :=
  (decide (row = 0) || decide (row = 31)) &&
  ((decide (col = 0) && decide (ch = 12)) || (decide (col + 1 = cv) && decide (ch = 4)))

/-- Is a channel the edge I/O channel of a corner billet of the loaded blank? -/
def edgeChannel (p : Part) (col row ch : Nat) : Bool := edgeAt (blankCv p) col row ch

/-- The corner number q of a corner billet (R139). -/
def cornerOf (col row : Nat) : Nat := (if col = 0 then 0 else 1) + (if row = 0 then 0 else 2)

/-- The grain word presented to a spindle at its execute step on an input channel: the one that arrived a step
earlier (R37, R113); on the edge I/O channel, the input word of the named cell under its own tag (R140). -/
def presented (p : Part) (a : Site) (ch tag : Nat) : Option GrainWord :=
  if edgeChannel p a.col a.row ch then
    some ⟨tag, if (fld p GIO_CORNER_EN).testBit (cornerOf a.col a.row) then
                 smapGet (fun _ => 0) p.gr.gioIn (16 * cornerOf a.col a.row + tag % 16) else 0⟩
  else
    ((smapGet (fun _ => []) p.gr.arrive (a.bil * 16 + ch)).find? (fun e => e.1 + 1 == a.step)).map (·.2)

/-- A grain operand (R79): zero with CATCH_SLOT when no word is presented or its tag differs. -/
def grainValue (p : Part) (a : Site) (ch tag : Nat) : Part × Word :=
  match presented p a ch tag with
  | some w => if w.tag = tag then (p, w.data) else (spindleCatch p .slot a 0 (ch * 256 + tag), 0)
  | none => (spindleCatch p .slot a 0 (ch * 256 + tag), 0)

/-- A word as a check at step `s` finds it: as it was before a write-back of a later step of the boundary window (R43). A check in
the step of a write-back finds the corrected word: R33 says so of data memory, and instruction memory is taken to be alike
(DESIGN CHOICE, log 39). -/
def seenWord (fixed : SMap (Nat × EccWord)) (k s : Nat) (c : EccWord) : EccWord :=
  let f := smapGet (fun _ => ((0, EccWord.zero) : Nat × EccWord)) fixed k
  if s < f.1 then f.2 else c

/-- A data-memory word as the read stage of a site finds it, at step s − 1 (R32, R58). -/
def seenData (p : Part) (a : Site) (x : Nat) : EccWord :=
  seenWord p.sp.dFixed (a.sp * 256 + x) (a.step - 1) (dword p (a.sp * 256 + x))

/-- Is there a write-back step of the boundary window, 6 to 8, left after step `q` (R63)? -/
def slotLeft (used : SMap Nat) (sp q : Nat) : Bool := decide (max (6 + smapGet (fun _ => 0) used sp) (q + 1) ≤ 8)

/-- The write-back step after step `q` is used, and none before it is left. -/
def useSlot (used : SMap Nat) (sp q : Nat) : SMap Nat :=
  smapSet (fun _ => 0) used sp (max (6 + smapGet (fun _ => 0) used sp) (q + 1) - 5)

/-- The queued words of a spindle whose write-back in the window comes after step `q`: each still holds its place (R63, R65). -/
def stillDue (used : SMap Nat) (sp q : Nat) : Nat := 5 + smapGet (fun _ => 0) used sp - q

/-- Note that a word is written back at a step of the window, with the word as it stood before. -/
def noteFixed (fixed : SMap (Nat × EccWord)) (k s : Nat) (c : EccWord) : SMap (Nat × EccWord) :=
  smapSet (fun _ => ((0, EccWord.zero) : Nat × EccWord)) fixed k (s, c)

/-- A data word corrected on use is queued for write-back; found at step 7, it may take a step of the window that is left.
One whose write-back is still to come is in the queue already (R59, R63, R65). -/
def queueData (p : Part) (a : Site) (x : Nat) : Part :=
  let k := a.sp * 256 + x
  let q := a.step - 1
  if q < (smapGet (fun _ => ((0, EccWord.zero) : Nat × EccWord)) p.sp.dFixed k).1 then p
  else if slotLeft p.sp.dUsed a.sp q then
    let used := useSlot p.sp.dUsed a.sp q
    let fixed := noteFixed p.sp.dFixed k (5 + smapGet (fun _ => 0) used a.sp) (dword p k)
    let p := setDword p k (fixWord (dword p k))
    { p with sp := { p.sp with dUsed := used, dFixed := fixed } }
  else { p with sp := { p.sp with dQueue := enqueueFix (4 - stillDue p.sp.dUsed a.sp q) p.sp.dQueue a.sp x } }

/-- Read one operand in the read stage: a data-memory word is checked and, with a single-bit error, corrected,
counted and queued (R58, R59); the flag says that it has a double-bit error (R60). A word that an instruction names in two
operands is read, and counted, twice (DESIGN CHOICE, log 39). -/
def readStage (p : Part) (a : Site) (o : Opnd) : Part × Bool :=
  match o with
  | .mem x =>
    match eccKind (seenData p a x) with
    | .clean => (p, false)
    | .corrected _ => (queueData (countCeD p a.bil) a x, false)
    | .double => (p, true)
  | _ => (p, false)

/-- The value of one operand at the execute step. -/
def opndValue (p : Part) (a : Site) (o : Opnd) : Part × Word :=
  match o with
  | .mem x => (p, eccData (dword p (a.sp * 256 + x)))
  | .bus sel => (p, busValue p a sel)
  | .grain ch tag => grainValue p a ch tag
  | .tr => (p, trValue p a)

/-- Read all operands in the read stage, each for itself, so that a word named twice counts twice (DESIGN CHOICE, log 39);
the flag says that some word has a double-bit error. -/
def readStages (p : Part) (a : Site) : List Opnd → Part × Bool
  | [] => (p, false)
  | o :: l =>
    let (p, bad) := readStage p a o
    let (p, bad') := readStages p a l
    (p, bad || bad')

/-- The values of the operands at the execute step, in order. -/
def opndValues (p : Part) (a : Site) : List Opnd → Part × List Word
  | [] => (p, [])
  | o :: l =>
    let (p, v) := opndValue p a o
    let (p, vs) := opndValues p a l
    (p, v :: vs)

/-- Run an instruction on its operands: a double-bit error in a word it reads suppresses it with CATCH_DMEM, one
occurrence for the instruction (R60, R61, R103, R104). -/
def withOperands (p : Part) (a : Site) (os : List Opnd) (act : Part → List Word → Part) : Part :=
  let (p, bad) := readStages p a os
  if bad then spindleCatch (suppress p a) .dmem a 0 0
  else
    let (p, vs) := opndValues p a os
    act p vs

/-- The instruction of a site writes its result to d[x] (R33, R34): an older write on its way reaches memory first. -/
def writeData (p : Part) (a : Site) (x : Nat) (r : Word) : Part :=
  let p := commitPend p a.sp
  { p with sp := { p.sp with pend := smapSet (fun _ => (⟨0, 0, 0⟩ : PendWrite)) p.sp.pend a.sp ⟨a.step, x, r⟩ } }

/-- The instruction of a site publishes its result into its spindle's billet-bus slot (R35, R39). -/
def publish (p : Part) (a : Site) (r : Word) : Part :=
  let b := smapGet (fun _ => (⟨0, 0, 0⟩ : BusSlot)) p.sp.bus a.sp
  { p with sp := { p.sp with bus := smapSet (fun _ => (⟨0, 0, 0⟩ : BusSlot)) p.sp.bus a.sp ⟨b.latest, r, a.step⟩ } }

/-- The result of an instruction: written to d[dst], and published when PUB is 1 (R28, R81). -/
def finish (p : Part) (a : Site) (dst : Nat) (pub : Bool) (r : Word) : Part :=
  let p := writeData p a dst r
  if pub then publish p a r else p

/-- The step of a site has come: the spindle has passed it, and an older result reaches data memory (R34). -/
def passStep (p : Part) (a : Site) : Part :=
  settlePend { p with sp := { p.sp with lastStep := smapSet (fun _ => 0) p.sp.lastStep a.sp a.step } } a.sp a.step

/-- The entry that a site fetches (R29). -/
def entryKey (a : Site) : Nat := a.sp * 512 + (a.step - 8)

/-- The entry as the fetch stage of a site finds it, at step s − 2 (R32, R58). -/
def seenEntry (p : Part) (a : Site) : EccWord :=
  seenWord p.sp.iFixed (entryKey a) (a.step - 2) (iword p (entryKey a))

/-- An entry corrected on use is queued for write-back; found at step 6 or 7, it may take a step of the window that is
left. One whose write-back is still to come is in the queue already (R59, R63). -/
def queueEntry (p : Part) (a : Site) : Part :=
  let k := entryKey a
  let q := a.step - 2
  if q < (smapGet (fun _ => ((0, EccWord.zero) : Nat × EccWord)) p.sp.iFixed k).1 then p
  else if slotLeft p.sp.iUsed a.sp q then
    let used := useSlot p.sp.iUsed a.sp q
    let fixed := noteFixed p.sp.iFixed k (5 + smapGet (fun _ => 0) used a.sp) (iword p k)
    let p := setIword p k (fixWord (iword p k))
    { p with sp := { p.sp with iUsed := used, iFixed := fixed } }
  else { p with sp := { p.sp with iQueue := enqueueFix (4 - stillDue p.sp.iUsed a.sp q) p.sp.iQueue a.sp (a.step - 8) } }

/-- A fetched entry with a single-bit error is counted and queued for write-back (R59). -/
def noteFetch (p : Part) (a : Site) (kind : EccKind) : Part :=
  match kind with
  | .corrected _ => queueEntry (countCeI p a.bil) a
  | _ => p

/-- The part once the spindle of a site has fetched its entry, with what the check of the entry found. -/
def fetched (p : Part) (a : Site) : Part := noteFetch (passStep p a) a (eccKind (seenEntry p a))

/-- Does a spindle execute an instruction at a site: a blank step of a tick that executes, in the grid, outside the held
regions (R54), at a step that the spindle has not passed? -/
def issues (p : Part) (a : Site) : Bool :=
  blankStep p a.step && decide (a.col < blankCv p) && decide (a.row < 32) && decide (a.idx < 64) &&
  !colHeld p a.col && decide (smapGet (fun _ => 0) p.sp.lastStep a.sp < a.step)

/-- Fetch, check and decode the entry that a spindle executes at a step (R29, R58, R60, R61, R74), and do `act` with
it. Nothing happens where no instruction executes. An uncorrectable entry, or one that does not decode, suppresses the
instruction with CATCH_IMEM. An entry of another opcode than `op` is not this row's instruction: nothing happens
(DESIGN CHOICE, log 2). -/
def issue (p : Part) (a : Site) (op : SpOp) (act : Part → SpInstr → Part) : Part :=
  if !issues p a then p
  else if eccKind (seenEntry p a) = .double then spindleCatch (suppress (passStep p a) a) .imem a 0 0
  else match decodeSp (eccData (iword p (entryKey a))) with
    | none => spindleCatch (suppress (fetched p a) a) .imem a 1 0
    | some i => if spOpOf i = op then act (fetched p a) i else p

end Sys2Proof.Machine
end

