-- ==== Sys2Proof/Machine/Spindle.lean ====
section
/-!
DEFINITION. The 27 spindle instructions (R83, R85 to R101). Each row names a site: the spindle and the step at which
it executes. What runs is the entry that the spindle fetches there (`issue`).
-/
namespace Sys2Proof.Machine

/-- Value number `k` of an operand list. -/
def val (vs : List Word) (k : Nat) : Word := vs.getD k 0

/-- NOP has no effect (R85). -/
def spNop (a : Site) (p : Part) : Part := issue p a .nop (fun p _ => p)

/-- BOOL3 (R86). -/
def spBool3 (a : Site) (p : Part) : Part :=
  issue p a .bool3 fun p i => match i with
    | .bool3 dst x y z pub tt => withOperands p a [x, y, z] fun p vs =>
        finish p a dst pub (resBool3 tt (val vs 0) (val vs 1) (val vs 2))
    | _ => p

/-- MOVE (R86). -/
def spMove (a : Site) (p : Part) : Part :=
  issue p a .move fun p i => match i with
    | .move dst x pub => withOperands p a [x] fun p vs => finish p a dst pub (val vs 0)
    | _ => p

/-- SEL (R86). -/
def spSel (a : Site) (p : Part) : Part :=
  issue p a .sel fun p i => match i with
    | .sel dst x y z pub lm => withOperands p a [x, y, z] fun p vs =>
        finish p a dst pub (resSel lm (val vs 0) (val vs 1) (val vs 2))
    | _ => p

/-- ADD (R87). -/
def spAdd (a : Site) (p : Part) : Part :=
  issue p a .add fun p i => match i with
    | .add dst x y z pub lm ovf => withOperands p a ([x, y] ++ z.toList) fun p vs =>
        finish p a dst pub (resAdd lm ovf (val vs 0) (val vs 1) (z.map (fun _ => val vs 2)))
    | _ => p

/-- SUB (R87). -/
def spSub (a : Site) (p : Part) : Part :=
  issue p a .sub fun p i => match i with
    | .sub dst x y pub lm ovf => withOperands p a [x, y] fun p vs =>
        finish p a dst pub (resSub lm ovf (val vs 0) (val vs 1))
    | _ => p

/-- CMP (R88). -/
def spCmp (a : Site) (p : Part) : Part :=
  issue p a .cmp fun p i => match i with
    | .cmp dst x y pub lm cond => withOperands p a [x, y] fun p vs =>
        finish p a dst pub (resCmp lm cond (val vs 0) (val vs 1))
    | _ => p

/-- MIN (R87). -/
def spMin (a : Site) (p : Part) : Part :=
  issue p a .min fun p i => match i with
    | .min dst x y pub lm sgn => withOperands p a [x, y] fun p vs =>
        finish p a dst pub (resMin lm sgn (val vs 0) (val vs 1))
    | _ => p

/-- MAX (R87). -/
def spMax (a : Site) (p : Part) : Part :=
  issue p a .max fun p i => match i with
    | .max dst x y pub lm sgn => withOperands p a [x, y] fun p vs =>
        finish p a dst pub (resMax lm sgn (val vs 0) (val vs 1))
    | _ => p

/-- CMPX in both forms (R89, R90). -/
def spCmpx (a : Site) (p : Part) : Part :=
  issue p a .cmpx fun p i => match i with
    | .cmpxPairs dst x pub lm sgn desc dist => withOperands p a [x] fun p vs =>
        finish p a dst pub (resCmpxPairs lm dist sgn desc (val vs 0))
    | .cmpxSide dst x y z pub lm side => withOperands p a [x, y, z] fun p vs =>
        finish p a dst pub (resCmpxSide lm side (val vs 0) (val vs 1) (val vs 2))
    | _ => p

/-- SHF (R91). -/
def spShf (a : Site) (p : Part) : Part :=
  issue p a .shf fun p i => match i with
    | .shf dst x pub lm right amt kind => withOperands p a [x] fun p vs =>
        finish p a dst pub (resShf lm right amt kind (val vs 0))
    | _ => p

/-- ROT (R91). -/
def spRot (a : Site) (p : Part) : Part :=
  issue p a .rot fun p i => match i with
    | .rot dst x pub lm right amt => withOperands p a [x] fun p vs =>
        finish p a dst pub (resRot lm right amt (val vs 0))
    | _ => p

/-- POPC (R92). -/
def spPopc (a : Site) (p : Part) : Part :=
  issue p a .popc fun p i => match i with
    | .popc dst x m pub lm => withOperands p a ([x] ++ m.toList) fun p vs =>
        finish p a dst pub (resPopc lm (val vs 0) (m.map (fun _ => val vs 1)))
    | _ => p

/-- PRIO (R92). -/
def spPrio (a : Site) (p : Part) : Part :=
  issue p a .prio fun p i => match i with
    | .prio dst x pub lm low => withOperands p a [x] fun p vs => finish p a dst pub (resPrio lm low (val vs 0))
    | _ => p

/-- LDI in its four modes (R86). -/
def spLdi (a : Site) (p : Part) : Part :=
  issue p a .ldi fun p i => match i with
    | .ldi dst imm mode pub => finish p a dst pub (resLdi imm mode)
    | .ldiInsert dst x sel imm pub => withOperands p a [.mem x] fun p vs =>
        finish p a dst pub (resInsert (val vs 0) sel imm)
    | _ => p

/-- A staging write: of the writes of one tick the one with the later execute step takes effect, of those that share
a step the one from the higher spindle index (R45, R137). -/
def stageInto (m : SMap Staged) (k : Nat) (a : Site) (v : Word) : SMap Staged :=
  let old := smapGet (fun _ => Staged.none) m k
  if old.step < a.step ∨ (old.step = a.step ∧ old.idx ≤ a.idx) then smapSet (fun _ => Staged.none) m k ⟨a.step, a.idx, v⟩
  else m

/-- The slot-table entry of a billet's output channel at a step (R118). -/
def slotAt (p : Part) (bil ch step : Nat) : SlotEntry :=
  smapGet (fun _ => SlotEntry.none) p.gr.slots ((bil * 16 + ch) * 512 + (step - 8))

/-- Leave what a SEND did for its slot at the next step. -/
def noteInject (p : Part) (bil ch step : Nat) (j : Injection) : Part :=
  let k := bil * 16 + ch
  { p with gr := { p.gr with
      inject := smapSet (fun _ => []) p.gr.inject k (smapGet (fun _ => []) p.gr.inject k ++ [(step, j)]) } }

/-- SEND (R93, R120, R124, R140): the word is accepted when the entry of its channel at the next step is owned by
injection from this spindle under this tag; on the edge I/O channel it goes into the output staging of the cell. -/
def spSend (a : Site) (p : Part) : Part :=
  issue p a .send fun p i => match i with
    | .send tag x ch => withOperands p a [x] fun p vs =>
        let e := slotAt p a.bil ch (a.step + 1)
        if e.owner = .inject a.idx ∧ e.tag = tag then
          let p := noteInject p a.bil ch (a.step + 1) (.accepted ⟨tag, val vs 0⟩)
          if edgeChannel p a.col a.row ch && !e.badParity then
            { p with gr := { p.gr with
                gioStage := stageInto p.gr.gioStage (16 * cornerOf a.col a.row + tag % 16) a (val vs 0) } }
          else p
        else
          let p := noteInject p a.bil ch (a.step + 1) .refused
          bumpFld (spindleCatch p .slot a 0 (ch * 256 + tag)) GRN_SLOT_CATCH_COUNT 1
    | _ => p

/-- RECV (R94): a MOVE of the grain operand. -/
def spRecv (a : Site) (p : Part) : Part :=
  issue p a .recv fun p i => match i with
    | .recv dst ch tag pub => withOperands p a [.grain ch tag] fun p vs => finish p a dst pub (val vs 0)
    | _ => p

/-- BPUB (R95). -/
def spBpub (a : Site) (p : Part) : Part :=
  issue p a .bpub fun p i => match i with
    | .bpub x => withOperands p a [x] fun p vs => publish p a (val vs 0)
    | _ => p

/-- The table address (R96). -/
def tableAddr (idx : Option Nat) (ofs : Nat) (a : Word) : Nat :=
  match idx with
  | none => ofs
  | some _ => (a.toNat % 2 ^ 14 + ofs) % 16384

/-- The data words that a table access reads. -/
def tableReads : SpInstr → Option (List Nat)
  | .tblr idx _ => some idx.toList
  | .tblw idx b _ => some (idx.toList ++ [b])
  | _ => none

/-- Is a result on its way to a data word in time for the read stage of a site (R34)? -/
def onItsWay (p : Part) (a : Site) (x : Nat) : Bool :=
  let w := smapGet (fun _ => (⟨0, 0, 0⟩ : PendWrite)) p.sp.pend a.sp
  decide (w.step ≠ 0) && w.addr == x && decide (w.step + 2 ≤ a.step)

/-- Does the spindle of a site issue a table access at its step: its entry and the words it reads have no double-bit error
(R60, R97)? -/
def issuesTable (p : Part) (a : Site) : Bool :=
  eccKind (seenEntry p a) != .double &&
  match (decodeSp (eccData (iword p (entryKey a)))).bind tableReads with
  | some xs => xs.all (fun x => onItsWay p a x || eccKind (seenData p a x) != .double)
  | none => false

/-- One table access per billet per step (R97): that of the spindle with the lowest index; another one of the step is
suppressed with CATCH_SLOT (DEDUCED, log 39). -/
def tableAccess (p : Part) (a : Site) (act : Part → Part) : Part :=
  if smapGet (fun _ => 0) p.sp.tableStep a.bil = a.step ∨
     (List.range a.idx).any (fun i => issuesTable p { a with idx := i }) = true then spindleCatch p .slot a 16 0
  else act { p with sp := { p.sp with tableStep := smapSet (fun _ => 0) p.sp.tableStep a.bil a.step } }

/-- TBLR (R96, R98, R132). Its CATCH_TABLE has its place at the spindle (R105) and leaves FLAGS bit 4 at 0 (DESIGN CHOICE, log 39). -/
def spTblr (a : Site) (p : Part) : Part :=
  issue p a .tblr fun p i => match i with
    | .tblr idx ofs => withOperands p a (idx.toList.map Opnd.mem) fun p vs =>
        tableAccess p a fun p =>
          let addr := tableAddr idx ofs (val vs 0)
          let c := tword p (a.bil * 16384 + addr)
          match eccKind c with
          | .clean => loadTr p a (eccData c)
          | .corrected _ =>
            let p := countCeT p a.bil
            loadTr { p with sp := { p.sp with tQueue := enqueueFix 1 p.sp.tQueue a.bil addr } } a (eccData c)
          | .double => spindleCatch (loadTr p a 0) .table a 0 addr
    | _ => p

/-- Write a table word with valid check bits; a queued correction of it is dropped (R82, R132). -/
def writeTable (p : Part) (bil addr : Nat) (w : Word) : Part :=
  let p := setTword p (bil * 16384 + addr) (cleanWord w)
  { p with sp := { p.sp with tQueue := dequeueFix p.sp.tQueue bil addr } }

/-- TBLW (R82, R96). -/
def spTblw (a : Site) (p : Part) : Part :=
  issue p a .tblw fun p i => match i with
    | .tblw idx b ofs => withOperands p a ((idx.toList.map Opnd.mem) ++ [.mem b]) fun p vs =>
        tableAccess p a fun p =>
          writeTable p a.bil (tableAddr idx ofs (val vs 0)) (val vs (if idx.isSome then 1 else 0))
    | _ => p

/-- The lane number that LANE selects in the port billet of a site (R135); none outside the port billets. -/
def portLane (p : Part) (a : Site) (laneBit : Nat) : Option Nat :=
  if a.col = 0 then some (2 * a.row + laneBit)
  else if a.col + 1 = blankCv p then some (64 + 2 * a.row + laneBit)
  else none

/-- PIN (R99, R136). -/
def spPin (a : Site) (p : Part) : Part :=
  issue p a .pin fun p i => match i with
    | .pin dst ln wix pub =>
        match portLane p a ln with
        | some n => finish p a dst pub (smapGet (fun _ => 0) p.gr.rxVisible (n * 128 + wix))
        | none => finish { p with free := p.free + 1 } a dst pub (Config.strayPin p.free)
    | _ => p

/-- POUT (R99, R137). One that a corrupted entry spells outside the port billets has no effect (DESIGN CHOICE, log 12). -/
def spPout (a : Site) (p : Part) : Part :=
  issue p a .pout fun p i => match i with
    | .pout x ln wix => withOperands p a [x] fun p vs =>
        match portLane p a ln with
        | some n => { p with gr := { p.gr with txStage := stageInto p.gr.txStage (n * 128 + wix) a (val vs 0) } }
        | none => p
    | _ => p

/-- HIST (R45, R100). -/
def spHist (a : Site) (p : Part) : Part :=
  issue p a .hist fun p i => match i with
    | .hist x hix => withOperands p a [x] fun p vs =>
        { p with gr := { p.gr with hist := stageInto p.gr.hist (a.bil * 8 + hix) a (val vs 0) } }
    | _ => p

/-- PROBE (R45, R100). -/
def spProbe (a : Site) (p : Part) : Part :=
  issue p a .probe fun p i => match i with
    | .probe x pix => withOperands p a [x] fun p vs =>
        { p with gr := { p.gr with probe := stageInto p.gr.probe (a.bil * 4 + pix) a (val vs 0) } }
    | _ => p

/-- The declarations in force (R153, R157). -/
def declOf (p : Part) : Decl := match p.blank with | some b => b.decl | none => Decl.none

/-- ACCEPT (R101, R178): only the declared spindle reaches the port. -/
def spAccept (a : Site) (p : Part) : Part :=
  issue p a .accept fun p i => match i with
    | .accept x => withOperands p a [x] fun p vs =>
        if (declOf p).accept = some a.sp then { p with gr := { p.gr with accept := ⟨a.step, a.idx, val vs 0⟩ } } else p
    | _ => p

/-- UEVT (R101, R178). -/
def spUevt (a : Site) (p : Part) : Part :=
  issue p a .uevt fun p i => match i with
    | .uevt x => withOperands p a [x] fun p vs =>
        if (declOf p).uevt = some a.sp then { p with gr := { p.gr with uevt := ⟨a.step, a.idx, val vs 0⟩ } } else p
    | _ => p

/-- STAT (R101, R178). -/
def spStat (a : Site) (p : Part) : Part :=
  issue p a .stat fun p i => match i with
    | .stat x six => withOperands p a [x] fun p vs =>
        if smapGet (fun _ => none) (declOf p).stat six = some a.sp then
          { p with gr := { p.gr with stat := smapSet (fun _ => Staged.none) p.gr.stat six ⟨a.step, a.idx, val vs 0⟩ } }
        else p
    | _ => p

end Sys2Proof.Machine
end

