-- ==== Sys2Proof/Machine/History.lean ====
section
/-!
DEFINITION. History in sapwood and heartwood (R257 to R266) and the accept queue (R267 to R276).
-/
namespace Sys2Proof.Machine

/-- The declared slots of a mask map in the order of R154, as keys billet × width + slot. -/
def declaredSlots (width : Nat) (m : SMap Nat) : List Nat :=
  m.flatMap (fun e => ((List.range width).filter (fun j => e.2.testBit j)).map (fun j => e.1 * width + j))

/-- The declared history slots (R153, R154). -/
def histSlots (p : Part) : List Nat := declaredSlots 8 (declOf p).histMask

/-- H, the declared history words in force. -/
def histH (p : Part) : Nat := (histSlots p).length

/-- K, the ticks of a page (R258); 0 when H is 0. -/
def ticksPerPage (h : Nat) : Nat := if h = 0 then 0 else 8192 / h

/-- F_s, the sapwood frames (R260). -/
def sapFrames (p : Part) : Nat := if fldOn p HIS_CAP_RESERVE then 896 else 1024

/-- Change a page. -/
def mapPage (p : Part) (id : Nat) (f : HPage → HPage) : Part :=
  { p with his := { p.his with pages := p.his.pages.map (fun g => if g.id = id then f g else g) } }

/-- Pages in a heartwood state. -/
def pagesIn (p : Part) (st : HwState) : Nat := (p.his.pages.filter (fun g => g.st == st)).length

/-- FREE heartwood pages: those that no page of history holds (R261). -/
def freePages (p : Part) : Nat := fld p HIS_HW_COUNT - (p.his.pages.filter (fun g => g.st != .none)).length

/-- The last tick a page holds; of a page still being filled, the last it can hold. -/
def lastTick (g : HPage) : Nat := if g.done then g.first + g.ticks.length - 1 else g.first + g.perPage - 1

/-- Do a window and a page share a tick? -/
def windowMeets (a : AcceptEntry) (g : HPage) : Bool :=
  decide (a.tick - a.before ≤ (lastTick g : Int)) && decide ((g.first : Int) ≤ a.tick + a.after)

/-- Has a page's retention expired (R262)? -/
def retentionOver (p : Part) (g : HPage) : Bool := decide (lastTick g + 1 + fld p HIS_RET ≤ p.tk.tick)

/-- A page's spill or its release leaves its pins at 0: RETAINED, or on to release when retention has expired
(R261). -/
def unpinned (p : Part) (g : HPage) : HPage :=
  if g.st = .pinned ∧ g.pins = [] then { g with st := if retentionOver p g then .release else .retained } else g

/-- A RETAINED page that is pinned becomes PINNED (R261). -/
def pinPage (id : Nat) (g : HPage) : HPage :=
  { g with pins := g.pins ++ [id], st := if g.st = .retained then .pinned else g.st }

/-- Sealed address of a heartwood page by its number in the area (R261). -/
def hwAddress (p : Part) (hw : Nat) : Nat := (fld p HIS_HW_FIRST + hw) * 65536

/-- The link of a page on the free list (R261): 1 more than the number of the page below it, 0 for none, in the first 8
bytes of the page (DESIGN CHOICE, log 43). -/
def linkBytes (l : List Nat) : List Byte := leBytes 8 (match l with | x :: _ => x + 1 | [] => 0)

/-- The page at the head of the free list, whose link is read through the sealing engine (R261, R320), or one that has
never been used. -/
def takeHw (p : Part) : Part × Nat :=
  match p.his.freed with
  | x :: rest => ((sealRead { p with his := { p.his with freed := rest } } .history (hwAddress p x) 8).1, x)
  | [] => ({ p with his := { p.his with fresh := p.his.fresh + 1 } }, p.his.fresh)

/-- A page takes a FREE heartwood page: FILLING, pinned by the accepts whose windows it meets (R261, R275). -/
def assignHw (p : Part) (id : Nat) : Part :=
  let before := freePages p
  let (p, hw) := takeHw p
  let q := mapPage p id (fun g =>
    { g with st := .filling, hw := hw, waitsHw := false,
             pins := (p.his.accepts.filter (fun a => windowMeets a g)).map (·.id) })
  if decide (256 ≤ before) && decide (freePages q < 256) && !q.his.lowSeen then
    raise { q with his := { q.his with lowSeen := true } } 68 [(4, freePages q)]
  else q

/-- Spills begin in the order of the pages (R261): a page whose last tick is in sapwood begins once the spill of every
earlier page has begun. -/
def startSpills : Bool → List HPage → List HPage
  | _, [] => []
  | ok, g :: l =>
    if g.st = .filling then
      if ok && g.done then { g with st := .spill } :: startSpills true l else g :: startSpills false l
    else g :: startSpills ok l

/-- Let the spills that may begin do so; none begins in a part halt (R266). -/
def runSpills (p : Part) : Part :=
  if partHalted p then p else { p with his := { p.his with pages := startSpills true p.his.pages } }

/-- A spill is cut short (R265): event source 66 (DEDUCED, log 43). -/
def cutShort (p : Part) (g : HPage) : Part :=
  raise (bumpFld (mapPage p g.id (fun g => { g with st := .release, pins := [] })) HIS_LATE 1) 66 [(8, g.first)]

/-- A sapwood frame takes a new page (R260, R264, R265): what it held leaves sapwood. A page that still waits for a
heartwood page is dropped with it, uncounted and with no event (DESIGN CHOICE, log 43). -/
def reuseFrame (p : Part) (f : Nat) : Part :=
  let held := p.his.pages.filter (fun g => g.frame == f && g.inSap)
  let p := held.foldl (fun p g => if !partHalted p && (g.st == .filling || g.st == .spill) then cutShort p g else p) p
  { p with his := { p.his with
      pages := (p.his.pages.filter (fun g => !(g.frame == f && g.inSap && g.st == .none))).map
        (fun g => if g.frame = f then { g with inSap := false } else g) } }

/-- The RETAINED page with the oldest last tick. -/
def oldestRetained : List HPage → Option HPage
  | [] => none
  | g :: l =>
    match oldestRetained l with
    | some o => if g.st = .retained ∧ lastTick g ≤ lastTick o then some g else some o
    | none => if g.st = .retained then some g else none

/-- A page of a sequence begins at tick `t` with H words a tick (R259, R260, R264); the allocator stands still in a part
halt (R266). -/
def beginPage (p : Part) (t h : Nat) : Part :=
  let f := if sapFrames p ≤ p.his.frame + 1 then 0 else p.his.frame + 1
  let p := reuseFrame p f
  let id := p.his.nextPage
  let g : HPage := ⟨id, t, h, ticksPerPage h, f, 0, .none, false, [], false, true, []⟩
  let p := { p with his := { p.his with pages := p.his.pages ++ [g], nextPage := id + 1, frame := f } }
  if partHalted p then p
  else if 0 < freePages p then assignHw p id
  else match oldestRetained p.his.pages with
    | some o =>
      let p := mapPage (mapPage p o.id (fun g => { g with st := .release })) id (fun g => { g with waitsHw := true })
      raise (bumpFld p HIS_EARLY 1) 67 [(8, o.first)]
    | none => raise (bumpFld p HIS_EARLY 1) 67 [(8, t)]

/-- The page that takes tick `t` next, if the latest page does. -/
def openPage (p : Part) (t h : Nat) : Option HPage :=
  match p.his.pages.getLast? with
  | some g => if !g.done ∧ g.first + g.ticks.length = t ∧ g.words = h then some g else none
  | none => none

/-- The latest page ends as a short page (R259). -/
def closePage (p : Part) : Part :=
  match p.his.pages.getLast? with
  | some g => if g.done then p else runSpills (mapPage p g.id (fun g => { g with done := true }))
  | none => p

/-- Write the first tick handed over into sapwood (R258, R259) (DEDUCED, log 43). -/
def writeTick (p : Part) : Part :=
  match p.his.handed with
  | [] => p
  | (t, ws) :: rest =>
    let p := { p with his := { p.his with handed := rest } }
    let h := ws.length
    let p := if (openPage p t h).isSome then p else beginPage (closePage p) t h
    match p.his.pages.getLast? with
    | none => p
    | some g =>
      runSpills (mapPage p g.id (fun g =>
        { g with ticks := (t, ws) :: g.ticks, done := decide (g.perPage ≤ g.ticks.length + 1) }))

/-- HISTORY_WRITE (R258, R259, R266): the next tick handed over enters sapwood; after the last tick of a run its page
ends. -/
def historyWrite (p : Part) : Part :=
  let p := writeTick p
  if p.his.handed.isEmpty && !running p then closePage p else p

/-- Every tick handed over that is older than tick `n` − 1 is in sapwood (R258). -/
def historyBefore : Nat → Part → Nat → Part
  | 0, p, _ => p
  | k + 1, p, n =>
    match p.his.handed with
    | [] => p
    | e :: _ => if e.1 + 2 ≤ n then historyBefore k (historyWrite p) n else p

/-- The fabric leaves RUNNING or enters it anew: all history handed over is in sapwood, and the sequence ends. -/
def endSequence (p : Part) : Part :=
  closePage ((List.range p.his.handed.length).foldl (fun p _ => writeTick p) p)

/-- The history words of a tick as they are handed over (R154, R257). -/
def historyWords (p : Part) : List Word :=
  (histSlots p).map (fun k => (smapGet (fun _ => Staged.none) p.gr.hist k).val)

/-- The words that a spill copies: the ticks of the page in ascending order, filled with zeros to K × H words. -/
def pageBytes (g : HPage) : List Byte :=
  fitBytes (g.perPage * g.words * 8) (g.ticks.reverse.flatMap (fun e => e.2.flatMap (fun w => leBytes 8 w.toNat)))

/-- SPILL_END (R261): the transfer of a page ends; an access that the sealing engine refuses cuts it short. -/
def spillEnd (id : Nat) (p : Part) : Part :=
  match p.his.pages.find? (fun g => g.id == id && g.st == .spill) with
  | none => p
  | some g =>
    if partHalted p then p
    else match sealWrite p .history (hwAddress p g.hw) (pageBytes g) with
      | (p, .ok) => mapPage p id (fun g => { g with st := if g.pins.isEmpty then .retained else .pinned })
      | (p, .errHalted) => p
      | (p, _) => cutShort p g

/-- RELEASE_TRANSFER_END (R261): the page's link is written into the free list, the page is FREE, and the oldest page
that waits for one takes it. A link that the engine does not write once it has stopped leaves the page in flight. -/
def releaseTransferEnd (id : Nat) (p : Part) : Part :=
  match p.his.pages.find? (fun g => g.id == id && g.st == .release) with
  | none => p
  | some g =>
    if partHalted p then p
    else match sealWrite p .history (hwAddress p g.hw) (linkBytes p.his.freed) with
      | (p, .errHalted) => p
      | (p, _) =>
        let p := { p with his := { p.his with pages := p.his.pages.filter (fun x => x.id != id), freed := g.hw :: p.his.freed } }
        let p := if 512 ≤ freePages p then { p with his := { p.his with lowSeen := false } } else p
        match p.his.pages.find? (fun x => x.waitsHw) with
        | some w => runSpills (assignHw p w.id)
        | none => p

/-- RETENTION_EXPIRY (R262): an unpinned page whose retention has expired begins its release. -/
def retentionExpiry (id : Nat) (p : Part) : Part :=
  if partHalted p then p
  else mapPage p id (fun g => if g.st = .retained ∧ retentionOver p g = true then { g with st := .release } else g)

/-! ### Accepts -/

/-- Free entries of the accept queue (R271). -/
def acceptFree (p : Part) : Nat := 1024 - p.his.accepts.length

/-- Report event source 64 or 65 at most once per 1,024 ticks for each cause (R289); `k` is the cause, or 6 for 65. -/
def quietEvent (p : Part) (k src : Nat) (payload : List (Nat × Nat)) : Part :=
  let old := smapGet (fun _ => none) p.his.lastEvt k
  let quiet := match old with | some t => decide ((p.tk.tick : Int) < t + 1024) | none => false
  if quiet then p
  else raise { p with his := { p.his with lastEvt := smapSet (fun _ => none) p.his.lastEvt k (some (p.tk.tick : Int)) } } src payload

/-- An accept of tick `t` is dropped or refused (R267, R269, R272, R273): counted, and event source 64 with its cause
and that tick (DESIGN CHOICE, log 44). -/
def refuseAccept (p : Part) (cause t : Nat) : Part :=
  quietEvent (bumpFld p (if cause = 3 ∨ cause = 4 then HIS_REF_EXT else HIS_REF_BLANK) 1) cause 64
    [(1, cause), (8, t)]

/-- The accepts taken in the last 1,024 ticks (R269). -/
def recentTakes (p : Part) (l : List Int) : List Int := l.filter (fun t => decide ((p.tk.tick : Int) < t + 1024))

/-- An accept enters the queue (R268, R271, R274, R275). -/
def enterAccept (p : Part) (source : Nat) (tick : Int) (before after prio tag : Nat) : Part :=
  let d := declOf p
  let b := min before d.winBeforeMax
  let f := min after d.winAfterMax
  let a : AcceptEntry := ⟨p.his.nextAccept, tick, b, f, prio, tag, source, decide (b ≠ before ∨ f ≠ after), false, false⟩
  let h := { p.his with
    accepts := p.his.accepts ++ [a], nextAccept := a.id + 1,
    pages := p.his.pages.map (fun (g : HPage) => if g.st != HwState.none && g.st != HwState.release && windowMeets a g then pinPage a.id g else g) }
  let h := if source = 0 then { h with takesBlank := (p.tk.tick : Int) :: recentTakes p h.takesBlank }
           else { h with takesExt := (p.tk.tick : Int) :: recentTakes p h.takesExt }
  let p := { p with his := h }
  let n := fld64 p HIS_ACC_TAKEN_L HIS_ACC_TAKEN_H
  let p := maxFldI (setFld64 p HIS_ACC_TAKEN_L HIS_ACC_TAKEN_H (min (n + 1) (2 ^ 64 - 1))) HIS_ACC_MAX 0 p.his.accepts.length
  if acceptFree p = 0 ∧ p.his.fullSeen = false then
    raise { p with his := { p.his with fullSeen := true } } 58 [(8, p.tk.tick)]
  else p

/-- The fabric leaves RUNNING (R276): every pending window completes once the history is in sapwood. -/
def hastenAccepts (p : Part) : Part :=
  { p with his := { p.his with accepts := p.his.accepts.map (fun a => { a with early := true }) } }

/-- An accept leaves the queue (R281): its entry is free, and no page stays pinned by it. -/
def leaveAccept (p : Part) (id : Nat) : Part :=
  { p with his := { p.his with
      accepts := p.his.accepts.filter (fun a => a.id != id), fullSeen := false,
      pages := p.his.pages.map (fun g => unpinned p { g with pins := g.pins.filter (· != id) }) } }

/-- The RELEASE node (R275, R279): every page that the accept pinned loses its pin. -/
def releasePins (p : Part) (id : Nat) : Part :=
  { p with his := { p.his with
      pages := p.his.pages.map (fun g => unpinned p { g with pins := g.pins.filter (· != id) }) } }

/-- The blank's accept word of tick `t` is taken up (R267, R268, R269, R273). -/
def takeAccept (p : Part) (t : Nat) (w : Word) : Part :=
  if !w.getLsbD 63 then p
  else
    let x := w.toNat
    if natBits x 43 5 ≠ 0 ∨ natBits x 56 7 ≠ 0 then refuseAccept p 5 t
    else if (declOf p).acceptRateMax ≤ (recentTakes p p.his.takesBlank).length then refuseAccept p 1 t
    else if acceptFree p = 0 then refuseAccept p 2 t
    else enterAccept p 0 ((t : Int) - natBits x 0 16) (natBits x 16 12) (natBits x 28 12) (natBits x 40 3) (natBits x 48 8)

/-- Why an accept of ACCEPT_IN or ACCEPT is refused: cause 3 over its rate, 4 by the reserve (R269, R272). -/
def externalRefusal (p : Part) : Option Nat :=
  if fld p HIS_EXT_MAX ≤ (recentTakes p p.his.takesExt).length then some 3
  else if acceptFree p ≤ 1 then some 4 else none

/-- ACCEPT_IN (R268, R269, R272, R395, R462): a rising edge, which also may wake the part. It is stamped with device time, and v
is the tick whose interval holds the stamp. -/
def acceptIn (p : Part) : Part :=
  let p := wakeBy 1 0 p
  let v := tickAt p p.now
  if !(running p && fldOn p HIS_ACCEPT_IN_EN) then p
  else match externalRefusal p with
    | some c => refuseAccept p c v
    | none => enterAccept p 1 ((v : Int) - fld p HIS_EXT_DELTA) (fld p HIS_EXT_BEFORE) (fld p HIS_EXT_AFTER)
        (fld p HIS_EXT_PRIO) (fld p HIS_EXT_TAG)

/-- ACCEPT_COMMAND (R268, R270). -/
def acceptCommand (h : Hdr) (p : Part) : Part :=
  beginRaw p h 0x18 false fun p =>
    let tick := h.par 0x08 8
    let before := h.par 0x10 2
    let after := h.par 0x12 2
    if p.tk.halt.isSome then completeSt p h .errHalted
    else if h.rsv = true ∨ 4095 < before ∨ 4095 < after ∨ p.tk.tick + 65535 < tick then
      completeSt p h .errParam
    else if unitTesting p 9 && !h.urgent then holdCmd p (.acceptCommand h) h
    else if !(running p || p.tk.fab == .stopped) || p.rdo.graph.isNone || unitAbsent p 9 || unitTesting p 9 then
      completeSt p h .errState
    else match externalRefusal p with
      | some c => completeSt (refuseAccept p c p.tk.tick) h .errState
      | none => completeSt (enterAccept p 2 tick before after (h.par 0x14 1) (h.par 0x15 1)) h .ok

end Sys2Proof.Machine
end

