-- ==== Sys2Proof/Machine/Grain.lean ====
section
/-!
DEFINITION. The grain routers (R109 to R126) and the host's table writes (R129 to R131).
-/
namespace Sys2Proof.Machine

/-- The span in billets and the delay in steps of a channel's segments (R110). -/
def segSpan (ch : Nat) : Nat × Nat :=
  match ch % 4 with
  | 0 => (1, 1)
  | 1 => (1, 1)
  | 2 => (4, 2)
  | _ => (16, 5)

/-- The number of seams between two virtual columns, for C columns per die (R19, R114). -/
def seamsBetween (c colA colB : Nat) : Nat :=
  let die := fun x => if c = 0 then 0 else x / c
  if colA < colB then die colB - die colA else die colA - die colB

/-- The far end of the segment that leaves a billet on a channel: column, row and delay with seam steps; none where
R110 gives no segment. Directions: 0 north, 1 east, 2 south, 3 west (R78). -/
def segment (c cv col row ch : Nat) : Option (Nat × Nat × Nat) :=
  let (span, delay) := segSpan ch
  match ch / 4 with
  | 0 => if row % span = 0 ∧ span ≤ row then some (col, row - span, delay) else none
  | 1 => if col % span = 0 ∧ col + span < cv then some (col + span, row, delay + 3 * seamsBetween c col (col + span)) else none
  | 2 => if row % span = 0 ∧ row + span < 32 then some (col, row + span, delay) else none
  | 3 => if col % span = 0 ∧ span ≤ col then some (col - span, row, delay + 3 * seamsBetween c col (col - span)) else none
  | _ => none

/-- The input channel on which a word sent on an output channel arrives: the opposite direction, the same class. -/
def farChannel (ch : Nat) : Nat := (ch / 4 + 2) % 4 * 4 + ch % 4

/-- Does a word arriving on `chIn` go straight on into `chOut` (R112)? -/
def goesStraight (chIn chOut : Nat) : Bool := farChannel chOut == chIn

/-- Columns per die of the loaded blank. -/
def blankC (p : Part) : Nat := match p.blank with | some b => b.colsPerDie | none => 0

/-- The router sends a word into a slot: it arrives at the far end of the segment (R116). -/
def routerSend (p : Part) (col row ch step : Nat) (w : GrainWord) : Part :=
  match segment (blankC p) (blankCv p) col row ch with
  | none => p
  | some (c', r', d) =>
    let k := billetNo c' r' * 16 + farChannel ch
    { p with gr := { p.gr with
        arrive := smapSet (fun _ => []) p.gr.arrive k (smapGet (fun _ => []) p.gr.arrive k ++ [(step + d, w)]) } }

/-- CATCH_SLOT of a router (R121, R123), counted in GRN_SLOT_CATCH. -/
def routerCatch (p : Part) (col row ch step flags tag : Nat) : Part :=
  bumpFld (raiseCatch p .slot (.router col row) step flags (ch * 256 + tag)) GRN_SLOT_CATCH_COUNT 1

/-- The word that the source of an owned entry supplies, and whether its absence is a fault still to report
(R120, R121). A refused SEND into the slot, also one of another spindle, counts as the fault that R120 has reported
(DESIGN CHOICE, log 64). -/
def slotSource (p : Part) (bil ch step : Nat) (e : SlotEntry) : Option GrainWord × Bool :=
  match e.owner with
  | .empty => (none, false)
  | .inject i =>
    let js := (smapGet (fun _ => []) p.gr.inject (bil * 16 + ch)).filter (fun j => j.1 == step)
    match js.findSome? (fun j => match j.2 with | .accepted w => some w | .refused => none) with
    | some w => (some w, false)
    | none =>
      (none, js.isEmpty && !suppressedAt p (bil * 64 + i) (step - 1))
  | .input chIn =>
    let arrived := if goesStraight chIn ch then step else step - 1
    match (smapGet (fun _ => []) p.gr.arrive (bil * 16 + chIn)).find? (fun x => x.1 == arrived) with
    | some x => if x.2.tag = e.tag then (some x.2, false) else (none, true)
    | none => (none, true)

/-- What a router does with the entry of one output channel at a step (R121, R122, R123, R126). In a held region an entry
whose parity fails is sent as a tagged zero too, without a catch (DESIGN CHOICE, log 64). -/
def routerSlot (col row step : Nat) (p : Part) (ch : Nat) : Part :=
  let bil := billetNo col row
  let e := slotAt p bil ch step
  if colHeld p col then
    if e.owner = .empty then p else routerSend p col row ch step ⟨e.tag, 0⟩
  else if e.badParity then
    bumpFld (routerCatch p col row ch step 12 e.tag) GRN_SLOT_PARITY_COUNT 1
  else if e.owner = .empty then p
  else
    match slotSource p bil ch step e with
    | (some w, _) => routerSend p col row ch step w
    | (none, fault) =>
      let p := routerSend p col row ch step ⟨e.tag, 0⟩
      if fault then routerCatch p col row ch step 8 e.tag else p

/-- GRAIN_SLOT: a router's 16 output channels at one step (R118, R121). -/
def grainSlot (col row step : Nat) (p : Part) : Part :=
  let bil := billetNo col row
  if blankStep p step && decide (col < blankCv p) && decide (row < 32) &&
     decide (smapGet (fun _ => 0) p.gr.routerStep bil < step) then
    (List.range 16).foldl (routerSlot col row step)
      { p with gr := { p.gr with routerStep := smapSet (fun _ => 0) p.gr.routerStep bil step } }
  else p

/-! ### Host table writes -/

/-- Does a TABLE_WRITE list name a billet twice, a billet outside the blank's grid, or an address beyond the table
(R131)? Entries are (column, row, address, word). -/
def tableListBad (p : Part) (es : List (Nat × Nat × Nat × Word)) : Bool :=
  let bs := es.map (fun e => billetNo e.1 e.2.1)
  es.any (fun e => decide (blankCv p ≤ e.1) || decide (32 ≤ e.2.1) || decide (16384 ≤ e.2.2.1)) || !bs.Nodup

/-- Is every billet of a list in a LIVE region or in no region? -/
def billetsLive (p : Part) (bs : List Nat) : Bool := bs.all (fun b => !colHeld p (b / 32))

/-- The tick u of a TABLE_WRITE (R130): after its lead and its u0, not before any command still held, and after every
held command that names one of its billets. -/
def tableTick (p : Part) (v u0 : Nat) (bs : List Nat) : Nat :=
  p.gr.held.foldl
    (fun u h => max u (if h.entries.any (fun e => bs.contains e.1) then h.tick + 1 else h.tick))
    (max (v + fld p GRN_TBL_WRITE_LEAD) u0)

/-- Apply the entries of a TABLE_WRITE (R130). -/
def applyTable (p : Part) (es : List (Nat × Nat × Word)) : Part :=
  es.foldl (fun p e => writeTable p e.1 e.2.1 e.2.2) p

/-- The entries of a TABLE_WRITE list of 16 bytes each (R380): column, row, table address and word. -/
def tableEntries (n : Nat) (list : List Byte) : List (Nat × Nat × Nat × Word) :=
  (List.range n).map (fun i =>
    (leAt list (16 * i + 10) 1, leAt list (16 * i + 11) 1, leAt list (16 * i + 8) 2, BitVec.ofNat 64 (leAt list (16 * i) 8)))

/-- Are the reserved bytes of the entries 0 (R16, R380) (DEDUCED, log 29)? The reserved bits above the table address make
it 16,384 or more. -/
def entriesClean (n : Nat) (list : List Byte) : Bool := (List.range n).all (fun i => leAt list (16 * i + 12) 4 == 0)

/-- TABLE_WRITE (R129 to R131): its entry list, fetched by DMA, comes with it. -/
def tableWrite (h : Hdr) (list : List Byte) (p : Part) : Part :=
  beginRaw p h 0x51 false fun p =>
    let u0 := h.par 0x08 8
    let n := h.par 0x18 2
    let es := tableEntries n list
    let v := p.tk.tick
    let w := fld p GRN_TBL_WRITE_LEAD
    let bs := es.map (fun e => billetNo e.1 e.2.1)
    let packed := es.map (fun e => (billetNo e.1 e.2.1, e.2.2.1, e.2.2.2))
    if p.tk.fab = .halted then completeSt p h .errHalted
    else if p.tk.fab = .off then completeSt p h .errState
    else if h.rsv = true ∨ n = 0 ∨ 1024 < n then completeSt p h .errParam
    else withBuffer p (.tableWrite h list) h .read (h.par 0x10 8) (16 * n) fun p =>
      if tableListBad p es || !entriesClean n list then completeSt p h .errParam
      else if u0 ≠ 0 ∧ (u0 < v + w ∨ v + w + 2 ^ 24 < u0) then completeSt p h .errParam
      else if running p then
        if billetsLive p bs then
          { p with gr := { p.gr with held := p.gr.held ++ [⟨h, packed, tableTick p v u0 bs⟩] } }
        else completeSt p h .errState
      else complete (applyTable p packed) h .ok 0 0

/-- TABLE_WRITE_APPLY (R130, R131): at step 3 of its tick the first held command is applied in every billet it names,
or fails for a region that is not LIVE. -/
def tableWriteApply (p : Part) : Part :=
  match p.gr.held with
  | [] => p
  | c :: rest =>
    if executing p && decide (c.tick ≤ p.tk.tick) then
      let p := { p with gr := { p.gr with held := rest } }
      if billetsLive p (c.entries.map (·.1)) then
        let p := applyTable p c.entries
        let n := fld64 p GRN_TBL_APPLIED_L GRN_TBL_APPLIED_H
        let p := setFld64 p GRN_TBL_APPLIED_L GRN_TBL_APPLIED_H ((n + 1) % 2 ^ 64)
        let p := setFld64 p GRN_TBL_LAST_TICK_L GRN_TBL_LAST_TICK_H c.tick
        complete p c.hdr .ok 0 c.tick
      else completeSt p c.hdr .errState
    else p

/-- Held TABLE_WRITE commands end when the fabric leaves RUNNING (R131). -/
def dropTableWrites (p : Part) (st : Status) : Part :=
  completeAll { p with gr := { p.gr with held := [] } } (p.gr.held.map (·.hdr)) st 0

end Sys2Proof.Machine
end

