-- ==== Sys2Proof/Machine/Pickup.lean ====
section
/-!
DEFINITION. Polling and pickup (R375 to R378): the batches of reads, the descriptors that they show, and what the part finds
and does as it picks a command up.
-/
namespace Sys2Proof.Machine

/-- What became of the descriptor at the head of a ring. -/
inductive Pickup where
  | taken | waits
  deriving DecidableEq, Repr

/-- A HALT command is recognised at its pickup (R412): its catch is raised, in a part halt too (R417), with its TAG in DETAIL
as R421 gives for this record; "otherwise 0" in R165 is read as of the records that no other rule gives a DETAIL (DEDUCED,
log 64). A descriptor that is refused asks for none (R16). -/
def recogniseHalt (p : Part) (h : Hdr) : Part :=
  if h.op = 0x07 ∧ h.rsv = false then blockCatch p .sw 16 h.tag.toNat else p

/-- A TRACE_CTRL TRIGGER takes effect at its pickup while trace runs (R316, R317), like HALT; the answer says whether it did.
In a part halt trace is frozen, and a descriptor with a reserved bit asks for nothing (R16). -/
def recogniseTrigger (p : Part) (h : Hdr) : Part × Bool :=
  if h.op = 0x28 ∧ h.traceAction = 2 ∧ h.rsv = false ∧ (p.trc.st = .running ∨ p.trc.st = .triggered) then
    (traceTrigger p 3 0 p.tk.tick, true)
  else (p, false)

/-- Does the part allow a full blank: the fabric state (R180), and all four fabric dies present (R430)? -/
def blankAllowed (p : Part) : Bool :=
  (List.range 4).all (diePresent p) &&
  match p.tk.fab with
  | .off | .loaded | .admitted | .stopped => true
  | .halted => !partHalted p
  | .running => false

/-- Does the fabric state allow LOAD_REGION (R180)? -/
def regionAllowed (p : Part) : Bool :=
  match p.tk.fab with
  | .loaded | .admitted | .stopped | .running => true
  | _ => false

/-- Are the stacks READY and no configuration stream active, as every load needs (R201, R202)? -/
def loadReady (p : Part) : Bool := hbmReady p && p.loader.stream.isNone

/-- What the part finds as it picks up a command (R316, R375, R472). -/
def findAt (p : Part) (triggered : Bool) : Found :=
  { tick := p.tk.tick
    late := partHalted p
    blankOk := loadReady p && blankAllowed p
    regions := if loadReady p && regionAllowed p then
        (List.range p.regions.length).filter (fun k => (regionAt p k).state == .live) else []
    triggered := triggered }

/-- Consider the descriptor at the head of command ring `i` (R375, R380). -/
def pickupOne (p : Part) (i : Fin 16) (d : BitVec 512) : Part × Pickup :=
  let h : Hdr := ⟨i, d⟩
  let n := partCount p (.cmd i)
  if hostCount p (.cmd i) ≤ n then (p, .waits)
  else if h.phase != phaseOf n (ringSize p (.cmd i)) then (setFldI p HIF_CMD_STALL i 1, .waits)
  else
    let p := setFldI p HIF_CMD_STALL i 0
    let advance (p : Part) : Part := writeHead (setPartCount p (.cmd i) (n + 1)) i
    if !ringEn p (.cpl h.cpl) then
      (raise (advance p) 168 [(1, 0), (1, i.val), (1, 3)], .taken)
    else if cplFree p h.cpl = 0 then (setFldI p HIF_CMD_WAIT_CPL i 1, .waits)
    else
      let p := setFldI p HIF_CMD_WAIT_CPL i 0
      if h.op = 0x51 ∧ tableHold p = true then (setFldI p HIF_CMD_WAIT_TW i 1, .waits)
      else
        let p := advance (setFldI p HIF_CMD_WAIT_TW i 0)
        let p := setReserved p h.cpl.val (reservedSlots p h.cpl.val + 1)
        let unknown := !opcodeKnown h.op
        let (q, triggered) := recogniseTrigger p h
        let entry : Inflight := ⟨h, unknown, false, findAt p triggered⟩
        let p := recogniseHalt { q with host := { q.host with inflight := q.host.inflight ++ [entry] } } h
        if unknown then (completeSt p h (if partHalted p then .errHalted else .errOpcode), .taken)
        else (p, .taken)

/-- One round of the round robin (R377): each ring that still has descriptors offers its next one; `first` is the
ring that began first in this batch. Answers the part, the rings that go on, and the first ring. -/
def pickupRound : Part → List (Fin 16 × List (BitVec 512)) → Option Nat →
    Part × List (Fin 16 × List (BitVec 512)) × Option Nat
  | p, [], first => (p, [], first)
  | p, (_, []) :: l, first => pickupRound p l first
  | p, (i, d :: ds) :: l, first =>
    match pickupOne p i d with
    | (p, .taken) =>
      let (p, rest, first) := pickupRound p l (first.orElse (fun _ => some i.val))
      (p, (i, ds) :: rest, first)
    | (p, .waits) => pickupRound p l first

/-- Up to four rounds: a batch holds four descriptors of each ring (R375). -/
def pickupRounds : Nat → Part → List (Fin 16 × List (BitVec 512)) → Option Nat → Part × Option Nat
  | 0, p, _, first => (p, first)
  | k + 1, p, rs, first =>
    let (p, rest, first) := pickupRound p rs first
    pickupRounds k p rest first

/-- Rings in the round-robin order of R377, starting after the ring that began first in the previous poll. -/
def roundRobin (last : Nat) (rs : List RingRead) : List RingRead :=
  (List.range 16).flatMap (fun k => rs.filter (fun r => r.ring.val == (last + 1 + k) % 16))

/-- Are events that were held in D3hot still to be written (R394)? -/
def eventsHeld (p : Part) : Bool := decide (0 < p.host.evtHeld) && ringEn p .evt && !ringStopped p .evt

/-- The part issues a batch of reads: of each enabled command ring, the descriptors from its head (R375). -/
def issueBatch (p : Part) : Part :=
  let heads := ((List.finRange 16).filter (fun i => ringEn p (.cmd i))).map (fun i => (i.val, partCount p (.cmd i)))
  { p with host := { p.host with batches := p.host.batches ++ [heads] } }

/-- R375: the part starts a poll while polling is enabled, the firmware runs (R428) and it may issue DMA. -/
def poll (p : Part) : Part :=
  if fldOn p HIF_POLL_EN && fldOn p HST_FW_RUN && dmaOk p then issueBatch p else p

/-- The descriptors that a batch holds of a ring, from the present head on: it read four from the head of the time of its
issue, and those that another batch has shown since are left out. A ring that was set up anew since gives none (DEDUCED,
log 27). -/
def batchDescs (p : Part) (heads : List (Nat × Nat)) (r : RingRead) : List (BitVec 512) :=
  match heads.lookup r.ring.val with
  | some n => if n ≤ partCount p (.cmd r.ring) then (r.descs.take 4).drop (partCount p (.cmd r.ring) - n) else []
  | none => []

/-- R375: a poll batch returns, the oldest under way. -/
def pollBatchReturn (b : PollBatch) (p : Part) : Part :=
  match dmaOk p, p.host.batches with
  | true, heads :: rest =>
    let p := { p with host := { p.host with batches := rest } }
    let p := maxFldI (setFld p HIF_RTT_LAST (min b.rttNs 65535)) HIF_RTT_MAX 0 b.rttNs
    let p := b.cplConsumed.foldl (fun p (c, n) => if ringEn p (.cpl c) then setHostCount p (.cpl c) n else p) p
    let p := match b.evtConsumed with
      | some n => if ringEn p .evt then setHostCount p .evt n else p
      | none => p
    let p := b.rdoConsumed.foldl (fun p (k, n) => if ringEn p (.rdo k) then setHostCount p (.rdo k) n else p) p
    let live := b.rings.filter (fun r => ringEn p (.cmd r.ring) && !ringStopped p (.cmd r.ring))
    let p := live.foldl (fun p r => setHostCount p (.cmd r.ring) r.posted) p
    let order := (roundRobin p.host.lastFirst live).map (fun r => (r.ring, batchDescs p heads r))
    let (p, first) := if eventsHeld p then (p, none) else pickupRounds 4 p order none
    let more := !eventsHeld p && live.any (fun r => decide (partCount p (.cmd r.ring) < r.posted) && decide (4 ≤ r.descs.length) &&
      fldI p HIF_CMD_STALL r.ring == 0 && fldI p HIF_CMD_WAIT_CPL r.ring == 0 && fldI p HIF_CMD_WAIT_TW r.ring == 0)
    let p := { p with host := { p.host with lastFirst := first.getD p.host.lastFirst } }
    if more then issueBatch p else p
  | _, _ => p

end Sys2Proof.Machine
end

