-- ==== Sys2Proof/Machine/Image.lean ====
section
/-!
DEFINITION. The blank image (R145 to R157), its placement (R158 to R160), and checks 1 to 12 of the loader (R162,
R205, R213).
-/
namespace Sys2Proof.Machine

/-- A refusal of a load (R205): the check, its status and ADM code, CFG_LOAD_DETAIL, and the directory index. -/
structure LoadFail where
  check : Nat
  status : Status
  adm : Nat
  detail : Nat
  sect : Option Nat
  deriving DecidableEq, Repr

/-- An entry of the section directory (R147). -/
structure SectEntry where
  typ : Nat
  inst : Nat
  off : Nat
  len : Nat
  rsvOk : Bool
  deriving DecidableEq, Repr

/-- A BILLET section (R150): its directory index and billet, the images of its 64 spindles, and its slot tables by
output channel. -/
structure BilletSect where
  dir : Nat
  b : Nat
  imem : List (List Word)
  dmem : List (List Word)
  slots : List (Nat × List SlotEntry)
  deriving DecidableEq, Repr

/-- A TABLE section (R152): its runs as (START, COUNT, words). -/
structure TableSect where
  dir : Nat
  b : Nat
  runs : List (Nat × Nat × List Word)
  deriving DecidableEq, Repr

/-- CFG_LOAD_DETAIL of an item with a billet (R205). -/
def itemDetail (b sp idx : Nat) : Nat := b % 2 ^ 10 + sp % 2 ^ 6 * 2 ^ 10 + idx % 2 ^ 9 * 2 ^ 16 + 2 ^ 25

/-- A refusal with ERR_PARAM. -/
def paramFail (check detail : Nat) (sect : Option Nat) : LoadFail := ⟨check, .errParam, 0, detail, sect⟩

/-- A refusal with ERR_ADMIT and an ADM code. -/
def admFail (check adm detail : Nat) (sect : Option Nat) : LoadFail := ⟨check, .errAdmit, adm, detail, sect⟩

/-- Are `n` bytes at an offset zero? -/
def zeroAt (l : List Byte) (off n : Nat) : Bool := (sliceBytes l off n).all (· == 0)

/-! ### Header and directory -/

/-- C. -/
def hdrC (img : List Byte) : Nat := leAt img 0x0A 1

/-- Cv as VCOLS gives it. -/
def hdrCv (img : List Byte) : Nat := leAt img 0x0C 1

/-- L. -/
def hdrL (img : List Byte) : Nat := leAt img 0x10 2

/-- LENGTH. -/
def hdrLen (img : List Byte) : Nat := leAt img 0x20 8

/-- SECTION_COUNT. -/
def hdrCount (img : List Byte) : Nat := leAt img 0x28 4

/-- DIR_OFFSET. -/
def hdrDir (img : List Byte) : Nat := leAt img 0x30 8

/-- Is it a partial blank? -/
def hdrPartial (img : List Byte) : Bool := leAt img 0x08 1 == 1

/-- The region that a partial blank names. -/
def hdrRegion (img : List Byte) : Nat := leAt img 0x09 1

/-- FIRST_COL and LAST_COL. -/
def hdrCols (img : List Byte) : Nat × Nat := (leAt img 0x0D 1, leAt img 0x0E 1)

/-- Is LENGTH at least 256 and no more than the bytes delivered (R162)? -/
def lengthGiven (job : LoadJob) : Bool :=
  decide (256 ≤ hdrLen job.image) && decide (hdrLen job.image ≤ job.image.length)

/-- The header, in its ranges and with its reserved fields zero (R145, R146, R200), KIND as the command asks (R162),
and the directory within LENGTH. -/
def headerOk (job : LoadJob) : Bool :=
  let h := job.image
  let part := hdrPartial h
  lengthGiven job && decide (hdrLen h ≤ 2 ^ 30) && !job.overLen && decide (leAt h 0x06 2 ≤ 255) &&
  decide (leAt h 0x08 1 ≤ 1) && (job.hdr.isNone || part == job.region) &&
  decide (hdrRegion h ≤ (if part then 7 else 0)) &&
  (hdrC h == 7 || hdrC h == 8) && leAt h 0x0B 1 == 32 && hdrCv h == 4 * hdrC h &&
  (part || hdrCols h == (0, hdrCv h - 1)) &&
  zeroAt h 0x0F 1 && decide (1 ≤ hdrL h) && decide (hdrL h ≤ 512) && decide (1 ≤ leAt h 0x12 2) &&
  decide (leAt h 0x18 4 ≤ 1) && decide (2 ≤ hdrCount h) && decide (hdrCount h ≤ 2050) && zeroAt h 0x2C 4 &&
  hdrDir h % 8 == 0 && zeroAt h 0x60 160 && decide (hdrDir h + 32 * hdrCount h ≤ hdrLen h)

/-- Entry `i` of the directory. -/
def dirEntry (img : List Byte) (i : Nat) : SectEntry :=
  let e := sliceBytes img (hdrDir img + 32 * i) 32
  ⟨leAt e 0 2, leAt e 2 2, leAt e 8 8, leAt e 16 8, zeroAt e 4 4 && zeroAt e 24 8⟩

/-- The directory. -/
def directory (img : List Byte) : List SectEntry := (List.range (hdrCount img)).map (dirEntry img)

/-- The bytes of a section. -/
def sectBytes (img : List Byte) (e : SectEntry) : List Byte := sliceBytes img e.off e.len

/-! ### Sections -/

/-- The billet of a BILLET or TABLE section, by its B_COL and B_ROW; none for a row beyond 31. -/
def sectBillet (s : List Byte) : Option Nat :=
  if leAt s 1 1 < 32 then some (leAt s 0 1 * 32 + leAt s 1 1) else none

/-- Is a TRAVEL section of its length, with its reserved fields zero (R148, R149)? -/
def travelOk (cv : Nat) (s : List Byte) : Bool := s.length == 16 + 16 * cv * 32 && zeroAt s 7 1 && zeroAt s 12 4

/-- Is a spindle reference well formed (R153)? -/
def refOk (cv v : Nat) : Bool :=
  if natBits v 31 1 = 1 then
    natBits v 21 10 == 0 && natBits v 13 3 == 0 && natBits v 6 2 == 0 && decide (natBits v 16 5 < cv)
  else v == 0

/-- The spindle number that a reference names. -/
def spindleRef (v : Nat) : Option Nat :=
  if natBits v 31 1 = 1 then some ((natBits v 16 5 * 32 + natBits v 8 5) * 64 + natBits v 0 6) else none

/-- The regions of a DECL section (R153). -/
def declRegions (s : List Byte) : List (Nat × Nat) :=
  (List.range (min 8 (leAt s 0x130 1))).map (fun k => (leAt s (0x138 + 2 * k) 1, leAt s (0x139 + 2 * k) 1))

/-- Are regions in ascending column order, without overlap, each first no greater than its last, below Cv (R155)? -/
def regionsOk (cv : Nat) : Nat → List (Nat × Nat) → Bool
  | _, [] => true
  | lo, r :: l => decide (lo ≤ r.1) && decide (r.1 ≤ r.2) && decide (r.2 < cv) && regionsOk cv (r.2 + 1) l

/-- Is a DECL section in its ranges, with its reserved fields zero (R145, R148, R153, R155)? -/
def declOk (cv : Nat) (part : Bool) (s : List Byte) : Bool :=
  let n := leAt s 0x130 1
  s.length == 0x950 &&
  (sliceBytes s 0 256).all (fun b => decide (b.toNat ≤ 128)) &&
  (List.range 10).all (fun j => refOk cv (leAt s (0x100 + 4 * j) 4)) &&
  decide (leAt s 0x128 2 ≤ 1024) && zeroAt s 0x12E 2 && decide (n ≤ (if part then 0 else 8)) && zeroAt s 0x131 7 &&
  regionsOk cv 0 (declRegions s) && zeroAt s (0x138 + 2 * n) (16 - 2 * n) && zeroAt s 0x148 8 &&
  zeroAt s (0x150 + 32 * cv) (1024 - 32 * cv) && zeroAt s (0x550 + 32 * cv) (1024 - 32 * cv) &&
  (sliceBytes s 0x550 1024).all (fun b => decide (b.toNat < 16))

/-- A map of the nonzero bytes among `n` at an offset. -/
def byteMap (s : List Byte) (off n : Nat) : SMap Nat :=
  ((sliceBytes s off n).zipIdx.filter (fun e => e.1 != 0)).map (fun e => (e.2, e.1.toNat))

/-- The declarations of a DECL section (R153). -/
def parseDecl (s : List Byte) : Decl where
  rxWords := byteMap s 0 128
  txWords := byteMap s 0x80 128
  accept := spindleRef (leAt s 0x100 4)
  uevt := spindleRef (leAt s 0x104 4)
  stat := ((List.range 8).map (fun j => (j, spindleRef (leAt s (0x108 + 4 * j) 4)))).filter (fun e => e.2.isSome)
  acceptRateMax := leAt s 0x128 2
  winBeforeMax := leAt s 0x12A 2
  winAfterMax := leAt s 0x12C 2
  histMask := byteMap s 0x150 1024
  probeMask := byteMap s 0x550 1024

/-- IMEM_COUNT and DMEM_COUNT of the 64 spindles. -/
def sectCounts (s : List Byte) : List (Nat × Nat) :=
  (List.range 64).map (fun i => (leAt s (8 + 4 * i) 2, leAt s (10 + 4 * i) 2))

/-- The output channels with a slot table. -/
def sectChannels (s : List Byte) : List Nat := (List.range 16).filter (fun ch => (leAt s 4 2).testBit ch)

/-- Where the slot tables of a BILLET section begin. -/
def slotsStart (s : List Byte) : Nat := 0x108 + 8 * ((sectCounts s).map (fun c => c.1 + c.2)).sum

/-- The 16-bit entries of a slot table. -/
def rawSlots (s : List Byte) (off l : Nat) : List Nat := (List.range l).map (fun x => leAt s (off + 2 * x) 2)

/-- Has a slot-table entry its reserved bits zero (R151)? -/
def rawSlotOk (v : Nat) : Bool :=
  if natBits v 15 1 = 0 then v == 0 else natBits v 14 1 == 0 || natBits v 12 2 == 0

/-- The slot-table entry that 16 bits spell (R151), with the parity bit that the loader computes. -/
def slotOf (v : Nat) : SlotEntry :=
  if natBits v 15 1 = 0 then .none
  else ⟨if natBits v 14 1 = 0 then .inject (natBits v 8 6) else .input (natBits v 8 4), natBits v 0 8, false⟩

/-- Is a BILLET section of its length and in its ranges, with its reserved fields and padding zero (R148, R150, R151)? -/
def billetOk (l : Nat) (s : List Byte) : Bool :=
  let chs := sectChannels s
  let at0 := slotsStart s
  zeroAt s 2 2 && zeroAt s 6 2 && decide (0x108 ≤ s.length) &&
  (sectCounts s).all (fun c => decide (c.1 ≤ l) && decide (c.2 ≤ 256)) &&
  s.length == at0 + (2 * l * chs.length + 7) / 8 * 8 &&
  (rawSlots s at0 (l * chs.length)).all rawSlotOk &&
  zeroAt s (at0 + 2 * l * chs.length) 6

/-- Cut words into pieces of the given lengths. -/
def splitWords : List Nat → List Word → List (List Word)
  | [], _ => []
  | n :: l, ws => ws.take n :: splitWords l (ws.drop n)

/-- A BILLET section (R150). -/
def parseBillet (l dir : Nat) (s : List Byte) : BilletSect :=
  let counts := sectCounts s
  let nI := (counts.map (·.1)).sum
  let nD := (counts.map (·.2)).sum
  { dir := dir
    b := (sectBillet s).getD 0
    imem := splitWords (counts.map (·.1)) (wordsOf nI (s.drop 0x108))
    dmem := splitWords (counts.map (·.2)) (wordsOf nD (s.drop (0x108 + 8 * nI)))
    slots := (sectChannels s).zipIdx.map (fun e => (e.1, (rawSlots s (slotsStart s + 2 * l * e.2) l).map slotOf)) }

/-- The runs of a TABLE section; none when its bytes do not hold exactly `n` runs, or a reserved field is not zero. -/
def takeRuns : Nat → List Byte → Option (List (Nat × Nat × List Word))
  | 0, s => if s.isEmpty then some [] else none
  | n + 1, s =>
    let cnt := leAt s 2 2
    if s.length < 8 + 8 * cnt ∨ leAt s 4 4 ≠ 0 then none
    else (takeRuns n (s.drop (8 + 8 * cnt))).map (fun l => (leAt s 0 2, cnt, wordsOf cnt (s.drop 8)) :: l)

/-- Is a TABLE section of its length and in its ranges (R148, R152)? -/
def tableOk (s : List Byte) : Bool :=
  let n := leAt s 4 4
  decide (8 ≤ s.length) && zeroAt s 2 2 && decide (1 ≤ n) && decide (n ≤ 16384) && (takeRuns n (s.drop 8)).isSome

/-- A TABLE section (R152). -/
def parseTable (dir : Nat) (s : List Byte) : TableSect :=
  ⟨dir, (sectBillet s).getD 0, (takeRuns (leAt s 4 4) (s.drop 8)).getD []⟩

/-- Do two sections overlap? -/
def sectsOverlap (a b : SectEntry) : Bool := decide (a.off < b.off + b.len) && decide (b.off < a.off + a.len)

/-- Does a directory entry keep the rules of R145 and R147 to R155, given the entries before it? -/
def entryOk (img : List Byte) (before : List SectEntry) (e : SectEntry) : Bool :=
  let s := sectBytes img e
  let cv := hdrCv img
  e.rsvOk && e.off % 8 == 0 && decide (e.off + e.len ≤ hdrLen img) &&
  !before.any (fun a => sectsOverlap a e || (a.typ == e.typ && a.inst == e.inst)) &&
  (if e.typ = 1 then e.inst == 0 && travelOk cv s
   else if e.typ = 2 then e.inst == 0 && declOk cv (hdrPartial img) s
   else if e.typ = 0x10 ∨ e.typ = 0x11 then
     decide (e.inst < 32 * cv) &&
     (!hdrPartial img || (decide ((hdrCols img).1 ≤ e.inst / 32) && decide (e.inst / 32 ≤ (hdrCols img).2))) &&
     sectBillet s == some e.inst && (if e.typ = 0x10 then billetOk (hdrL img) s else tableOk s)
   else false)

/-- The first directory entry that breaks a rule. -/
def badEntry (img : List Byte) : Nat → List SectEntry → List SectEntry → Option Nat
  | _, _, [] => none
  | i, before, e :: l => if entryOk img before e then badEntry img (i + 1) (before ++ [e]) l else some i

/-- The section of a type, with its directory index. -/
def sectOfType (img : List Byte) (typ : Nat) : Option (Nat × List Byte) :=
  ((directory img).zipIdx.find? (fun e => e.1.typ == typ)).map (fun e => (e.2, sectBytes img e.1))

/-- The TRAVEL section. -/
def travelOf (img : List Byte) : List Byte := ((sectOfType img 1).map (·.2)).getD []

/-- Its directory index. -/
def travelDir (img : List Byte) : Option Nat := (sectOfType img 1).map (·.1)

/-- The bytes of the DECL section. -/
def declOfImage (img : List Byte) : List Byte := ((sectOfType img 2).map (·.2)).getD []

/-- The BILLET sections, in directory order. -/
def billetSects (img : List Byte) : List BilletSect :=
  ((directory img).zipIdx.filter (fun e => e.1.typ == 0x10)).map (fun e => parseBillet (hdrL img) e.2 (sectBytes img e.1))

/-- The TABLE sections, in directory order. -/
def tableSects (img : List Byte) : List TableSect :=
  ((directory img).zipIdx.filter (fun e => e.1.typ == 0x11)).map (fun e => parseTable e.2 (sectBytes img e.1))

/-! ### Placement and travel -/

/-- The search of R158, from column `n` − 1 westwards: `need` is what each die must still skip. -/
def placeFrom (bad : Nat → Bool) : Nat → List Nat → List Nat → Option (List Nat)
  | 0, need, skipped => if need.all (· == 0) then some skipped else none
  | g + 1, need, skipped =>
    let d := g / 9
    let n := need.getD d 0
    let skip := if 0 < n ∧ skipped.contains (g + 1) = false then placeFrom bad g (need.set d (n - 1)) (g :: skipped) else none
    skip.orElse (fun _ => if bad g = false ∧ n ≤ g % 9 then placeFrom bad g need skipped else none)

/-- The used physical columns of a placement with C columns per die, west to east (R158, R160); none when there is no
placement, or for an A64-class blank on a TN2-B56-17E. -/
def placement (p : Part) (c : Nat) : Option (List Nat) :=
  if c = 8 ∧ isB56 p = true then none
  else (placeFrom (fun g => !colGood p g) 36 (List.replicate 4 (9 - c)) []).map
    (fun sk => (List.range 36).filter (fun g => !sk.contains g))

/-- GRN_CONST (R117). -/
def grnConst : Nat :=
  GRN_L1_DELAY.rst + GRN_L4_DELAY.rst * 2 ^ 4 + GRN_L16_DELAY.rst * 2 ^ 8 + GRN_TURN.rst * 2 ^ 12 +
  GRN_SEAM.rst * 2 ^ 16 + GRN_INJECT.rst * 2 ^ 20 + GRN_EJECT.rst * 2 ^ 24

/-- The single-byte constants of TRAVEL with their offsets (R149). -/
def travelBytes (c : Nat) : List (Nat × Nat) :=
  [(4, c - 1), (5, 2 * c - 1), (6, 3 * c - 1), (8, 2), (9, 1), (10, 3), (11, 8)]

/-- The delay of every segment of the placed grid, in ascending billet and channel (R149, R159): the placement adds no
step (R115). -/
def segDelays (c : Nat) : List Nat :=
  (List.range (4 * c * 32)).flatMap (fun b => (List.range 16).map (fun ch =>
    match segment c (4 * c) (b / 32) (b % 32) ch with | some (_, _, d) => d | none => 0))

/-- The first difference between a TRAVEL section and the placed grid (R159): the byte offset of a constant, or a
billet and channel. -/
def travelDiff (c : Nat) (t : List Byte) : Option (Nat ⊕ Nat × Nat) :=
  if leAt t 0 4 ≠ grnConst then some (.inl 0)
  else match (travelBytes c).find? (fun e => leAt t e.1 1 != e.2) with
    | some e => some (.inl e.1)
    | none => (((segDelays c).zip (t.drop 16)).zipIdx.find? (fun e => e.1.1 != e.1.2.toNat)).map
        (fun e => .inr (e.2 / 16, e.2 % 16))

/-! ### Checks 5 to 12 -/

/-- Does a column lie in the region of a partial blank? -/
def inCols (img : List Byte) (col : Nat) : Bool :=
  decide ((hdrCols img).1 ≤ col) && decide (col ≤ (hdrCols img).2)

/-- The port billet's column of a lane (R135). -/
def laneCol (cv n : Nat) : Nat := if n < 64 then 0 else cv - 1

/-- May a partial blank's port reference stand beside that of the loaded blank (R157)? -/
def refMatches (img : List Byte) (loaded mine : Option Nat) : Bool :=
  match loaded with
  | some s => if inCols img (s / 2048) then mine == loaded else mine.isNone
  | none => mine.isNone

/-- Does the DECL section of a partial blank hold what R157 gives, and nothing else? -/
def partialDeclOk (img : List Byte) (loaded : Decl) : Bool :=
  let s := declOfImage img
  let d := parseDecl s
  let cv := hdrCv img
  d.rxWords.all (fun e => inCols img (laneCol cv e.1)) && d.txWords.all (fun e => inCols img (laneCol cv e.1)) &&
  d.histMask.all (fun e => inCols img (e.1 / 32)) && d.probeMask.all (fun e => inCols img (e.1 / 32)) &&
  refMatches img loaded.accept d.accept && refMatches img loaded.uevt d.uevt &&
  (List.range 8).all (fun j => refMatches img (smapGet (fun _ => none) loaded.stat j) (smapGet (fun _ => none) d.stat j)) &&
  d.acceptRateMax == 0 && d.winBeforeMax == 0 && d.winAfterMax == 0

/-- R156: a partial blank matches its region of the loaded blank. -/
def matchesRegion (p : Part) (c l region first last : Nat) (travel : List Byte) : Bool :=
  match p.blank with
  | none => false
  | some b => b.colsPerDie == c && b.len == l && b.travel == travel && b.regions[region]? == some (first, last)

/-- Does a run of a table, given as START and COUNT, break R152, the run before it having ended at `lo`? -/
def spansBad : Nat → List (Nat × Nat) → Bool
  | _, [] => false
  | lo, (a, n) :: l => decide (n = 0) || decide (16384 < a + n) || decide (a < lo) || spansBad (a + n) l

/-- The runs of a TABLE section as START and COUNT. -/
def tableSpans (t : TableSect) : List (Nat × Nat) := t.runs.map (fun r => (r.1, r.2.1))

/-- The operands of an instruction. -/
def operandsOf : SpInstr → List Opnd
  | .nop => []
  | .bool3 _ a b c _ _ => [a, b, c]
  | .move _ a _ => [a]
  | .sel _ a b c _ _ => [a, b, c]
  | .add _ a b c _ _ _ => [a, b] ++ c.toList
  | .sub _ a b _ _ _ => [a, b]
  | .cmp _ a b _ _ _ => [a, b]
  | .min _ a b _ _ _ => [a, b]
  | .max _ a b _ _ _ => [a, b]
  | .cmpxPairs _ a _ _ _ _ _ => [a]
  | .cmpxSide _ a b c _ _ _ => [a, b, c]
  | .shf _ a _ _ _ _ _ => [a]
  | .rot _ a _ _ _ _ => [a]
  | .popc _ a m _ _ => [a] ++ m.toList
  | .prio _ a _ _ _ => [a]
  | .ldi .. => []
  | .ldiInsert .. => []
  | .send _ a _ => [a]
  | .recv _ ch tag _ => [.grain ch tag]
  | .bpub a => [a]
  | .tblr .. => []
  | .tblw .. => []
  | .pin .. => []
  | .pout a _ _ => [a]
  | .hist a _ => [a]
  | .probe a _ => [a]
  | .accept a => [a]
  | .uevt a => [a]
  | .stat a _ => [a]

/-- The instructions of a BILLET section with spindle and entry, in order. -/
def sectInstrs (s : BilletSect) : List (Nat × Nat × Option SpInstr) :=
  s.imem.zipIdx.flatMap (fun im => im.1.zipIdx.map (fun w => (im.2, w.2, decodeSp w.1)))

/-- The first instruction of a section that a check refuses. -/
def instrFail (check : Nat) (bad : Nat → Nat → Option SpInstr → Bool) (s : BilletSect) : Option LoadFail :=
  ((sectInstrs s).find? (fun i => bad i.1 i.2.1 i.2.2)).map
    (fun i => paramFail check (itemDetail s.b i.1 i.2.1) (some s.dir))

/-- Does a channel exist at a billet (R110, R111)? -/
def channelAt (c cv b ch : Nat) : Bool :=
  (segment c cv (b / 32) (b % 32) ch).isSome || edgeAt cv (b / 32) (b % 32) ch

/-- Is a channel with a tag fit to be named at a billet (R111, R140)? -/
def namesChannel (c cv b ch tag : Nat) : Bool :=
  channelAt c cv b ch && (!edgeAt cv (b / 32) (b % 32) ch || decide (tag < 16))

/-- Does an instruction break R111, R119 or R140? `slot` reads the slot tables: billet, channel, step index. -/
def instrBad (c cv l : Nat) (slot : Nat → Nat → Nat → SlotEntry) (b i e : Nat) (x : Option SpInstr) : Bool :=
  match x with
  | none => false
  | some x =>
    (operandsOf x).any (fun o => match o with | .grain ch tag => !namesChannel c cv b ch tag | _ => false) ||
    (match x with
     | .send tag _ ch =>
       !namesChannel c cv b ch tag || decide (l ≤ e + 1) ||
       (slot b ch (e + 1)).owner != .inject i || (slot b ch (e + 1)).tag != tag
     | _ => false)

/-- SENDs of a section at an entry that name a channel. -/
def sendCount (s : BilletSect) (x ch : Nat) : Nat :=
  (s.imem.filter (fun im => match decodeSp (im.getD x 0) with | some (.send _ _ c) => c == ch | _ => false)).length

/-- Does an owned entry with an input-channel source disagree with the slot that feeds it, or send back where its
source comes from (R119)? -/
def sourceBad (c cv : Nat) (slot : Nat → Nat → Nat → SlotEntry) (b ch x chIn tag : Nat) : Bool :=
  match segment c cv (b / 32) (b % 32) chIn with
  | none => true
  | some (c', r', d) =>
    let back := if goesStraight chIn ch then d else d + 1
    let e := if x < back then SlotEntry.none else slot (c' * 32 + r') (farChannel chIn) (x - back)
    chIn / 4 == ch / 4 || e.owner == .empty || e.tag != tag

/-- Does the entry of output channel `ch` at step index `x` break R111 or R119? A slot table of a channel that does not
exist passes when every entry is empty (DESIGN CHOICE, log 64). -/
def slotBad (c cv l : Nat) (slot : Nat → Nat → Nat → SlotEntry) (s : BilletSect) (ch x : Nat) (e : SlotEntry) : Bool :=
  let late := match segment c cv (s.b / 32) (s.b % 32) ch with
    | some (_, _, d) => decide (l ≤ x + d + 1)
    | none => false
  match e.owner with
  | .empty => false
  | .inject _ => !channelAt c cv s.b ch || late || x == 0 || sendCount s (x - 1) ch != 1
  | .input chIn => !channelAt c cv s.b ch || late || sourceBad c cv slot s.b ch x chIn e.tag

/-- Check 9 of one section: its instructions, then its slot tables (R205). -/
def gridFail (c cv l : Nat) (slot : Nat → Nat → Nat → SlotEntry) (s : BilletSect) : Option LoadFail :=
  (instrFail 9 (instrBad c cv l slot s.b) s).orElse fun _ =>
    ((s.slots.flatMap (fun t => t.2.zipIdx.map (fun e => (t.1, e.2, e.1)))).find?
      (fun e => slotBad c cv l slot s e.1 e.2.1 e.2.2)).map
      (fun e => paramFail 9 (itemDetail s.b e.1 e.2.1) (some s.dir))

/-- Key of a slot-table entry. -/
def slotKey (b ch x : Nat) : Nat := (b * 16 + ch) * 512 + x

/-- The slot tables of an image. -/
def imageSlots (img : List Byte) : SMap SlotEntry :=
  (billetSects img).foldl (fun m s => s.slots.foldl (fun m t =>
    smapSetMany (fun _ => SlotEntry.none) m (t.2.zipIdx.map (fun e => (slotKey s.b t.1 e.2, e.1)))) m) []

/-- The slot tables that check 9 reads: the image's, and beside a partial blank those in force (R213). -/
def slotsSeen (p : Part) (img : List Byte) (m : SMap SlotEntry) (b ch x : Nat) : SlotEntry :=
  if hdrPartial img && !inCols img (b / 32) then smapGet (fun _ => SlotEntry.none) p.gr.slots (slotKey b ch x)
  else smapGet (fun _ => SlotEntry.none) m (slotKey b ch x)

/-- The first slot outside a partial blank's region, fed from inside it, that check 9 refuses (R205, R213). -/
def outsideFail (p : Part) (img : List Byte) (slot : Nat → Nat → Nat → SlotEntry) : Option LoadFail :=
  if !hdrPartial img then none
  else
    let c := hdrC img
    let cv := hdrCv img
    (p.gr.slots.find? (fun e =>
      let b := e.1 / 8192
      let ch := e.1 / 512 % 16
      if inCols img (b / 32) then false
      else match e.2.owner with
        | .input chIn => match segment c cv (b / 32) (b % 32) chIn with
          | some (c', _, _) => inCols img c' && sourceBad c cv slot b ch (e.1 % 512) chIn e.2.tag
          | none => false
        | _ => false)).map (fun e => paramFail 9 (itemDetail (e.1 / 8192) (e.1 / 512 % 16) (e.1 % 512)) none)

/-- Check 10: PIN and POUT (R99, R138). -/
def portBad (cv : Nat) (d : Decl) (b : Nat) (x : Option SpInstr) : Bool :=
  let lane (ln : Nat) : Option Nat :=
    if b / 32 = 0 then some (2 * (b % 32) + ln) else if b / 32 + 1 = cv then some (64 + 2 * (b % 32) + ln) else none
  match x with
  | some (.pin _ ln wix _) => match lane ln with
    | some n => decide (smapGet (fun _ => 0) d.rxWords n ≤ wix)
    | none => true
  | some (.pout _ ln wix) => match lane ln with
    | some n => decide (smapGet (fun _ => 0) d.txWords n ≤ wix)
    | none => true
  | _ => false

/-- Check 11: ACCEPT, UEVT and STAT (R101). -/
def declaredBad (d : Decl) (sp : Nat) (x : Option SpInstr) : Bool :=
  match x with
  | some (.accept _) => d.accept != some sp
  | some (.uevt _) => d.uevt != some sp
  | some (.stat _ six) => smapGet (fun _ => none) d.stat six != some sp
  | _ => false

/-- Check 12: HIST and PROBE (R100, R153). -/
def maskBad (d : Decl) (b : Nat) (x : Option SpInstr) : Bool :=
  match x with
  | some (.hist _ hix) => !(smapGet (fun _ => 0) d.histMask b).testBit hix
  | some (.probe _ pix) => !(smapGet (fun _ => 0) d.probeMask b).testBit pix
  | _ => false

/-- Check 1 (R146). -/
def versionFail (p : Part) (img : List Byte) : Option LoadFail :=
  if leAt img 0 4 = 0x42324E54 ∧ leAt img 4 2 = 2 ∧ leAt img 6 2 ≤ Config.fmtMinor (fld p HST_FW) then none
  else some ⟨1, .errVersion, 0, 0, none⟩

/-- Check 2 (R146, R162). -/
def digestFail (job : LoadJob) : Option LoadFail :=
  let m := job.image.take (hdrLen job.image)
  if lengthGiven job ∧ sha256 (m.take 0x40 ++ List.replicate 32 0 ++ m.drop 0x60) ≠ sliceBytes m 0x40 32 then
    some ⟨2, .errIntegrity, 0, 0, none⟩
  else none

/-- Check 3. -/
def formFail (job : LoadJob) : Option LoadFail :=
  let img := job.image
  if !headerOk job then some (paramFail 3 0 none)
  else match badEntry img 0 [] (directory img) with
    | some i => some (paramFail 3 0 (some i))
    | none => if (sectOfType img 1).isNone || (sectOfType img 2).isNone then some (paramFail 3 0 none) else none

/-- Check 5 (R156, R157): a difference in TRAVEL or DECL reports that section, one in the header none (DEDUCED,
log 32). -/
def matchFail (p : Part) (img : List Byte) : Option LoadFail :=
  let fits (t : List Byte) : Bool :=
    matchesRegion p (hdrC img) (hdrL img) (hdrRegion img) (hdrCols img).1 (hdrCols img).2 t
  if !hdrPartial img then none
  else if !fits (travelOf img) then
    some (admFail 5 0x0B 0 (match p.blank with | some b => if fits b.travel then travelDir img else none | none => none))
  else if partialDeclOk img (declOf p) then none
  else some (admFail 5 0x0B 0 ((sectOfType img 2).map (·.1)))

/-- Check 6 (R159). -/
def travelFail (img : List Byte) : Option LoadFail :=
  (travelDiff (hdrC img) (travelOf img)).map fun d => match d with
    | .inl off => admFail 6 0x02 (2 ^ 26 + off * 2 ^ 16) (travelDir img)
    | .inr (b, ch) => admFail 6 0x02 (itemDetail b ch 0) (travelDir img)

/-- Checks 1 to 12 of R162, in order: the first refusal. A table-run failure (R152), which the table of R205 does not
list, reports its billet with spindle 0 and index 0 (DESIGN CHOICE, log 32). -/
def imageFail (p : Part) (job : LoadJob) : Option LoadFail :=
  let img := job.image
  let c := hdrC img
  let cv := hdrCv img
  let d := parseDecl (declOfImage img)
  let sects := billetSects img
  let m := imageSlots img
  (versionFail p img).orElse fun _ => (digestFail job).orElse fun _ => (formFail job).orElse fun _ =>
  (if (placement p c).isNone then some (admFail 4 0x03 0 none) else none).orElse fun _ =>
  (matchFail p img).orElse fun _ =>
  (travelFail img).orElse fun _ =>
  (((tableSects img).find? (fun t => spansBad 0 (tableSpans t))).map
    (fun t => admFail 7 0x0C (itemDetail t.b 0 0) (some t.dir))).orElse fun _ =>
  (sects.findSome? (instrFail 8 (fun _ _ x => x.isNone))).orElse fun _ =>
  (sects.findSome? (gridFail c cv (hdrL img) (slotsSeen p img m))).orElse fun _ =>
  (outsideFail p img (slotsSeen p img m)).orElse fun _ =>
  (sects.findSome? (fun s => instrFail 10 (fun _ _ x => portBad cv d s.b x) s)).orElse fun _ =>
  (sects.findSome? (fun s => instrFail 11 (fun i _ x => declaredBad d (s.b * 64 + i) x) s)).orElse fun _ =>
  (sects.findSome? (fun s => instrFail 12 (fun _ _ x => maskBad d s.b x) s))

/-- What the part keeps of an image beside its memory words. -/
def imageInfo (img : List Byte) : BlankInfo where
  colsPerDie := hdrC img
  len := hdrL img
  stages := leAt img 0x12 2
  minFw := leAt img 0x14 4
  steppings := leAt img 0x18 4
  energyNj := leAt img 0x1C 4
  firstCol := (hdrCols img).1
  lastCol := (hdrCols img).2
  region := hdrRegion img
  travel := travelOf img
  decl := parseDecl (declOfImage img)
  regions := declRegions (declOfImage img)
  runs := (tableSects img).map (fun t => (t.b, tableSpans t))

/-- The memory words that an image gives (R48, R134, R150, R152). -/
def imageWords (img : List Byte) : BlankImages where
  imem := (billetSects img).flatMap (fun s => s.imem.zipIdx.flatMap (fun im =>
    im.1.zipIdx.map (fun w => ((s.b * 64 + im.2) * 512 + w.2, w.1))))
  dmem := (billetSects img).flatMap (fun s => s.dmem.zipIdx.flatMap (fun dm =>
    dm.1.zipIdx.map (fun w => ((s.b * 64 + dm.2) * 256 + w.2, w.1))))
  table := (tableSects img).flatMap (fun t => t.runs.flatMap (fun r =>
    r.2.2.zipIdx.map (fun w => (t.b * 16384 + r.1 + w.2, w.1))))
  slots := imageSlots img

end Sys2Proof.Machine
end

