-- ==== Sys2Proof/Machine/Frame.lean ====
section
/-!
DEFINITION. The Hugemund frame, bit by bit (R188, R228 to R236): scrambling, the CRC trailer, stuffing and the tail,
and a receiver's checks of them (R237).
-/
namespace Sys2Proof.Machine

/-- Bits of a number, bit 0 first. -/
def bitsOf : Nat → Nat → List Bool
  | 0, _ => []
  | n + 1, v => (v % 2 == 1) :: bitsOf n (v / 2)

/-- The number whose bits, bit 0 first, are given. -/
def ofBits : List Bool → Nat
  | [] => 0
  | b :: l => (if b then 1 else 0) + 2 * ofBits l

/-- F = T × R line bits of a tick of T units of 2^−32 ns at a rate code (R222, R223); none when it is not whole. -/
def frameBits (t rate : Nat) : Option Nat :=
  if (t * 50) % (2 ^ rate * 2 ^ 32) = 0 then some (t * 50 / (2 ^ rate * 2 ^ 32)) else none

/-- Q = ceil(F / 25) (R188). -/
def frameQ (f : Nat) : Nat := (f + 24) / 25

/-- P = min(128, floor((F − 56 − Q) / 64)) (R188). -/
def frameP (f : Nat) : Nat := min 128 ((f - 56 - frameQ f) / 64)

/-- Content bits of a frame, C = F − Q (R228). -/
def frameC (f : Nat) : Nat := f - frameQ f

/-- Can a group with this T and rate be framed (R470)? -/
def framableAt (t rate : Nat) : Bool :=
  decide (12 * 2 ^ 32 ≤ t) && (match frameBits t rate with | some f => decide (56 + frameQ f ≤ f) | none => false)

/-- The scrambler (R232) from a state of its 31 bits: each bit is sent with the key bit added. The same operation
descrambles. -/
def scrambleFrom : BitVec 31 → List Bool → List Bool
  | _, [] => []
  | s, x :: l =>
    let k := s.getLsbD 30 != s.getLsbD 27
    (x != k) :: scrambleFrom ((s <<< 1) ||| (if k then 1#31 else 0#31)) l

/-- Scramble payload and fill from the state at the first payload bit. -/
def scramble (l : List Bool) : List Bool := scrambleFrom 0x7FFFFFFF#31 l

/-- One bit of the CRC-24 (R233). -/
def crc24Bit (c : BitVec 24) (x : Bool) : BitVec 24 :=
  if c.getLsbD 23 != x then (c <<< 1) ^^^ 0x864CFB#24 else c <<< 1

/-- The CRC-24 of bits in line order. -/
def crc24 (l : List Bool) : BitVec 24 := l.foldl crc24Bit 0xB704CE#24

/-- The trailer on the line: bit 23 first (R231). -/
def trailerBits (c : BitVec 24) : List Bool := (bitsOf 24 c.toNat).reverse

/-- The 32 header bits (R229 to R231). -/
def headerBits (seq ctrl : Nat) : List Bool := bitsOf 16 0x4E79 ++ bitsOf 8 seq ++ bitsOf 8 ctrl

/-- Payload bits, word 0 first. -/
def payloadBits (ws : List Word) : List Bool := ws.flatMap (fun w => bitsOf 64 w.toNat)

/-- The content of a frame of F line bits (R228, R232, R233). -/
def contentBits (f seq ctrl : Nat) (ws : List Word) : List Bool :=
  let pay := payloadBits ws
  let hdr := headerBits seq ctrl
  let fill := List.replicate (frameC f - 56 - pay.length) false
  hdr ++ scramble (pay ++ fill) ++ trailerBits (crc24 (hdr ++ pay))

/-- Insert stuffed bits (R234): `last` is the value of the run in progress and `n` its length. -/
def stuffFrom (last : Bool) (n : Nat) : List Bool → List Bool
  | [] => []
  | x :: l =>
    let m := if n ≠ 0 ∧ x = last then n + 1 else 1
    if m = 24 then x :: (!x) :: stuffFrom x 0 l else x :: stuffFrom x m l

/-- Stuff a content from its first bit. -/
def stuff (l : List Bool) : List Bool := stuffFrom false 0 l

/-- Remove stuffed bits (R234, R237) until `c` content bits have been found; the flag says that a stuffed bit was
missing where 24 identical bits asked for one. -/
def destuffFrom (c : Nat) (last : Bool) (n : Nat) (bad : Bool) : List Bool → List Bool × Bool
  | [] => ([], bad)
  | x :: l =>
    if n = 24 then destuffFrom c x 0 (bad || x == last) l
    else if c = 0 then ([], bad)
    else
      let m := if n ≠ 0 ∧ x = last then n + 1 else 1
      let r := destuffFrom (c - 1) x m bad l
      (x :: r.1, r.2)

/-- The content bits of a received frame, and whether its stuffing is wrong. -/
def destuff (c : Nat) (l : List Bool) : List Bool × Bool := destuffFrom c false 0 false l

/-- The tail (R235): it alternates, and begins with the complement of the line bit before it. -/
def tailBits : Nat → Bool → List Bool
  | 0, _ => []
  | n + 1, b => (!b) :: tailBits n (!b)

/-- The F line bits of a frame (R228, R235). -/
def encodeFrame (f seq ctrl : Nat) (ws : List Word) : List Bool :=
  let s := stuff (contentBits f seq ctrl ws)
  s ++ tailBits (f - s.length) (s.getLast?.getD false)

/-- What a receiver reads in a frame: SYNC, SEQ, CTRL, the payload words, and whether the stuffing and the CRC check. -/
structure Decoded where
  sync : Nat
  seq : Nat
  ctrl : Nat
  words : List Word
  stuffOk : Bool
  crcOk : Bool
  deriving DecidableEq, Repr

/-- Words of 64 bits, bit 0 first. -/
def wordsOfBits : Nat → List Bool → List Word
  | 0, _ => []
  | n + 1, l => BitVec.ofNat 64 (ofBits (l.take 64)) :: wordsOfBits n (l.drop 64)

/-- A receiver reads a frame of F line bits with P payload words. -/
def decodeFrame (f : Nat) (bits : List Bool) : Decoded :=
  let c := frameC f
  let (content, bad) := destuff c bits
  let p := frameP f
  let hdr := content.take 32
  let pay := (scramble ((content.drop 32).take (c - 56))).take (64 * p)
  { sync := ofBits (hdr.take 16)
    seq := ofBits ((hdr.drop 16).take 8)
    ctrl := ofBits (hdr.drop 24)
    words := wordsOfBits p pay
    stuffOk := !bad && content.length == c
    crcOk := (content.drop (c - 24)) == trailerBits (crc24 (hdr ++ pay)) }

end Sys2Proof.Machine
end

