-- ==== Sys2Proof/Machine/Time.lean ====
section
/-!
DEFINITION. Device time (chapter 12): the increment and the servo, software increment mode, steps and slews, the alarm
and the second pins. Rates are held in units of 2^−48 ppb and times in units of 2^−32 ns, so that the arithmetic of
R350 is exact.
-/
namespace Sys2Proof.Machine

/-- An integer clamped to ±m. -/
def clampTo (m x : Int) : Int := if x < -m then -m else if m < x then m else x

/-- Whole picoseconds, rounded down, of a time in units of 2^−32 ns. -/
def psOfUnits (x : Int) : Int := (x * 1000) / 2 ^ 32

/-- A time in units of 2^−32 ns from picoseconds, rounded down. -/
def unitsOfPs (x : Int) : Int := (x * 2 ^ 32) / 1000

/-- A register of picoseconds, two's complement, in units of 2^−32 ns. -/
def psField (p : Part) (f : FieldRow) (i : Nat) : Int := unitsOfPs (signedOf f.width (fldI p f i))

/-- INC_BASE in units of 2^−32 ns. -/
def incBase (p : Part) : Nat := fld64 p TIM_BASE_F TIM_BASE_N

/-- Units of the rate account: a rate in units of 2^−48 ppb times INC_BASE. -/
def rateDen : Nat := 10 ^ 9 * 2 ^ 48

/-- The limit of R346 on the rate account. -/
def rateMax (p : Part) : Int := (fld p TIM_YMAX_PPB * 2 ^ 48 * incBase p : Nat)

/-- The part of y that the mode gives (R348), times INC_BASE. The y of SOFTWARE mode is the one that the last
TIME_INCREMENT gave, with the INC_BASE of that time (R352). -/
def modeRate (p : Part) : Int :=
  match fld p TIM_MODE with
  | 1 => p.tim.y * incBase p
  | 2 => match p.tim.softInc with
    | some (i, base) => ((base : Int) - i) * rateDen * incBase p / (base : Int)
    | none => 0
  | _ => 0

/-- The part of y that the mode asks for, times INC_BASE: the servo's output before the clamp of R350. -/
def askedRate (p : Part) : Int := if fld p TIM_MODE = 1 then p.tim.yAsked * incBase p else modeRate p

/-- Does a slew act now? In SERVO mode y is the servo's output alone (R348), and a slew under way waits (DESIGN CHOICE,
log 50). -/
def slewActs (p : Part) : Bool := p.tim.slewing && fld p TIM_MODE != 1 && p.tim.slewLeft != 0

/-- The slew term of R355, times INC_BASE: TIM_SLEW, with the sign that moves device time towards what remains. -/
def slewRate (p : Part) : Int :=
  if slewActs p then
    let s : Int := (fld p TIM_SLEW_PPB * 2 ^ 48 * incBase p : Nat)
    if 0 < p.tim.slewLeft then -s else s
  else 0

/-- The rate in force, times INC_BASE: clamped (R346). -/
def totalRate (p : Part) : Int := clampTo (rateMax p) (clampTo (rateMax p) (modeRate p) + slewRate p)

/-- INC for a rate (R346). -/
def incOf (p : Part) (rate : Int) : Nat :=
  let num := ((incBase p * rateDen : Nat) - rate).toNat
  num / rateDen + (if num % rateDen ≠ 0 ∧ Config.incRound num = true then 1 else 0)

/-- INC without the slew. -/
def modeInc (p : Part) : Nat := incOf p (clampTo (rateMax p) (modeRate p))

/-- What one edge absorbs of the slew, in units of 2^−32 ns: towards what remains, and never past it (R355). -/
def slewStep (p : Part) : Int :=
  let per : Int := (incOf p (totalRate p) : Int) - modeInc p
  if !slewActs p || decide (0 < per) != decide (0 < p.tim.slewLeft) then 0
  else if p.tim.slewLeft.natAbs < per.natAbs then p.tim.slewLeft else per

/-- INC in force (R346, R355). -/
def incNow (p : Part) : Nat := ((modeInc p : Int) + slewStep p).toNat

/-- The largest device time plus one: SEC has 48 bits. -/
def timeSpan : Nat := 2 ^ 48 * 10 ^ 9 * nsUnit

/-- Run `n` edges of the time clock with the INC in force, which is constant over them. -/
def runEdges (p : Part) (n : Nat) : Part :=
  { p with now := (p.now + n * incNow p) % timeSpan, tim := { p.tim with slewLeft := p.tim.slewLeft - n * slewStep p } }

/-- Edges over which the slew goes on at the same rate. -/
def slewEdges (p : Part) : Nat :=
  let per := (slewStep p).natAbs
  if per = 0 then 0 else p.tim.slewLeft.natAbs / per

/-- Run edges until device time reaches `target`, in at most `k` stretches of constant rate. -/
def runUntil : Nat → Part → Nat → Part
  | 0, p, _ => p
  | k + 1, p, target =>
    if target ≤ p.now ∨ incNow p = 0 then p
    else
      let need := (target - p.now + incNow p - 1) / incNow p
      let full := slewEdges p
      if slewStep p = 0 then runEdges p need
      else if need ≤ full then runEdges p need
      else runUntil k (runEdges p full) target

/-- Device time runs to the first edge at or after an instant (DESIGN CHOICE, log 54). -/
def advanceTo (p : Part) (target : Nat) : Part := if p.tim.run then runUntil 4 p target else p

/-- One edge of the 250 MHz time clock (R344). -/
def timeEdge (p : Part) : Part := if p.tim.run then runEdges p 1 else p

/-- Entering the clamp (R346): event source 139, once for each entry. -/
def checkClamp (p : Part) : Part :=
  let want := askedRate p + slewRate p
  let at' := decide (totalRate p ≠ want)
  let q := { p with tim := { p.tim with atLimit := at' } }
  if at' && !p.tim.atLimit then raise q 139 [(4, satCode 32 (want / (2 ^ 48 * incBase p : Nat)))] else q

/-- The code of TIM_SRV_STATE. -/
def srvCode : SrvState → Nat
  | .free => 0 | .acquire => 1 | .locked => 2 | .holdover => 3 | .software => 4

/-- The servo state changes: event source 136 (R351). -/
def setSrv (p : Part) (s : SrvState) : Part :=
  if p.tim.srv = s then p
  else raise { p with tim := { p.tim with srv := s, inRun := 0, outRun := 0 } } 136
    [(1, srvCode p.tim.srv), (1, srvCode s), (4, satCode 32 (psOfUnits p.tim.theta))]

/-- TIM_MODE has been written (R348, R351). -/
def modeWritten (p : Part) : Part :=
  let p := { p with tim := { p.tim with swSum := 0, swCount := 0 } }
  match fld p TIM_MODE with
  | 0 => checkClamp (setSrv p .free)
  | 1 => checkClamp (if p.tim.srv = .free ∨ p.tim.srv = .software then setSrv p .acquire else p)
  | _ => checkClamp (setSrv p .software)

/-- The ticks from which limits over 1,024 ticks are counted (R269, R289) move with the numbering of ticks, so that they stay as
many ticks past (DESIGN CHOICE, log 44). -/
def renumberHis (h : HisState) (d : Int) : HisState :=
  { h with takesBlank := h.takesBlank.map (· + d), takesExt := h.takesExt.map (· + d),
           lastEvt := h.lastEvt.map (fun e => (e.1, e.2.map (· + d))) }

/-- The tick counter follows device time (R172, R354): floor((device time − E) / T), or 0 before E (DEDUCED, log 55). -/
def retick (p : Part) : Part :=
  let p := { p with his := renumberHis p.his ((tickAt p p.now : Int) - p.tk.tick) }
  { p with tk := { p.tk with tick := tickAt p p.now, reached := ticksOn p && decide (epochE p ≤ p.now) } }

/-- Every transmit lane ends its current frame, and sends the next one from the first boundary after the set on (R354). -/
def cutFrames (p : Part) : Part :=
  let sent := if p.tk.reached then some p.tk.tick else none
  { p with lanes := { p.lanes with
      tx := smapSetMany (fun _ => TxLane.init) []
        ((List.range 128).map (fun n => (n, { smapGet (fun _ => TxLane.init) p.lanes.tx n with sentTick := sent, bits := [] }))) } }

/-- The width of a PPS_OUT pulse, in units of 2^−32 ns (R365). -/
def ppsWidth (p : Part) : Nat := fld p TIM_PPSO_WIDTH * 10 ^ 6 * nsUnit

/-- A step of device time leaves pulses that are over behind, and one under way keeps what is left of its width (R364, R365)
(DESIGN CHOICE, log 58). -/
def movePulses (p : Part) (step : Int) : Part :=
  let t := p.tim
  let now : Int := p.now
  let pps := match t.ppsRise with
    | some r => if now < r + ppsWidth p then some (r + step) else none
    | none => none
  { p with tim := { t with tickRise := (if now < t.tickFall then t.tickRise.map (· + step) else none)
                           tickFall := t.tickFall + step, ppsRise := pps } }

/-- Device time is stepped (R350, R354, R355): cause 0 servo, 1 TIME_SET, 2 TIME_ADJ. -/
def stepTime (p : Part) (tgt : Int) (cause : Nat) : Part :=
  let step : Int := tgt - p.now
  let p := movePulses p step
  let loss := p.trc.lossAt.map (fun e => (e.1, e.2.map (· + step / (nsUnit : Int))))
  let checks := p.mon.checks.map (fun e => (e.1, e.2.map (fun w => { w with since := w.since + step })))
  let p := { p with trc := { p.trc with lossAt := loss }, mon := { p.mon with checks := checks } }
  let p := cutFrames (retick { p with now := (tgt % timeSpan).toNat })
  raise p 138 [(1, cause), (8, wrapCode 64 (step / (nsUnit : Int)))]

/-- Is a START pending? -/
def startPending (p : Part) : Bool := p.tk.start.isSome

/-- The lock states of R351 after a measurement. -/
def lockState (p : Part) (theta : Int) : Part :=
  let inside := decide ((theta.natAbs : Nat) * 1000 ≤ fld p TIM_LOCK_PS * 2 ^ 32)
  let p := { p with tim := { p.tim with inRun := if inside then p.tim.inRun + 1 else 0,
                                        outRun := if inside then 0 else p.tim.outRun + 1 } }
  match p.tim.srv with
  | .acquire => if 16 ≤ p.tim.inRun then setSrv p .locked else p
  | .locked => if 4 ≤ p.tim.outRun then setSrv p .acquire else p
  | _ => p

/-- One measurement of the servo (R350, R351) (DESIGN CHOICE, log 50). -/
def servo (p : Part) (theta : Int) : Part :=
  let held := p.tim.srv == .holdover
  let p := if held then setSrv p .acquire else p
  if !held && decide (fld p TIM_STEP_NS * 2 ^ 32 < theta.natAbs) && fldOn p TIM_STEP_EN && !running p && !startPending p then
    lockState { stepTime p (p.now - theta) 0 with tim := { p.tim with integ := 0 } } theta
  else
    let ymax : Int := (fld p TIM_YMAX_PPB * 2 ^ 48 : Nat)
    let integ := clampTo ymax (p.tim.integ + fld p TIM_KI_VAL * theta)
    let y := fld p TIM_KP_VAL * theta + integ
    let q := checkClamp { p with tim := { p.tim with integ := integ, y := clampTo ymax y, yAsked := y } }
    lockState q theta

/-- A measurement from the selected source (R349 to R353), taken at device time `at'`. -/
def takeTheta (p : Part) (theta : Int) (at' : Nat) : Part :=
  let p := { p with tim := { p.tim with theta := theta } }
  match fld p TIM_MODE with
  | 1 => servo p theta
  | 2 =>
    let sum := p.tim.swSum + theta
    let n := p.tim.swCount + 1
    if n < fld p TIM_SW_AVG then { p with tim := { p.tim with swSum := sum, swCount := n } }
    else raise { p with tim := { p.tim with swSum := 0, swCount := 0 } } 137
      [(1, fld p TIM_SRC), (2, n), (4, satCode 32 (psOfUnits (sum / n))), (8, timeStamp at')]
  | _ => p

/-- HOLDOVER_TIMEOUT (R351): no measurement for TIM_HOLD_MS. -/
def holdoverTimeout (p : Part) : Part :=
  if p.tim.srv = .acquire ∨ p.tim.srv = .locked then
    checkClamp (setSrv { p with tim := { p.tim with y := p.tim.integ, yAsked := p.tim.integ } } .holdover)
  else p

/-! ### The time commands -/

/-- TIME_SET (R354, R356). -/
def timeSet (h : Hdr) (p : Part) : Part :=
  beginRaw p h 0x30 false fun p =>
    let sec := h.par 0x08 6
    let ns := h.par 0x10 4
    let frac := h.par 0x14 4
    if running p || startPending p then completeSt p h .errState
    else if h.rsv = true ∨ 10 ^ 9 ≤ ns then completeSt p h .errParam
    else completeSt (stepTime p (((sec * 10 ^ 9 + ns) * nsUnit + frac : Nat) : Int) 1) h .ok

/-- TIME_ADJ (R355, R356): a step, or a slew while the fabric or a slew runs. -/
def timeAdj (h : Hdr) (p : Part) : Part :=
  beginRaw p h 0x31 false fun p =>
    let delta : Int := signedOf 64 (h.par 0x08 8) * 2 ^ 32 + h.par 0x10 4
    let slew := h.desc.getLsbD 160
    if fld p TIM_MODE = 1 then completeSt p h .errState
    else if h.rsv then completeSt p h .errParam
    else if !running p && !startPending p && !slew && !p.tim.slewing then completeSt (stepTime p (p.now + delta) 2) h .ok
    else
      let t := p.tim
      let p := { p with tim := { t with slewing := true, slewLeft := t.slewLeft + delta,
                                        slewTotal := (if t.slewing then t.slewTotal else 0) + delta } }
      completeSt (checkClamp p) h .ok

/-- Edges until the slew has nothing left, in at most `k` stretches. -/
def finishSlew : Nat → Part → Part
  | 0, p => p
  | k + 1, p => if slewStep p = 0 then p else finishSlew k (runEdges p (max 1 (slewEdges p)))

/-- SLEW_END (R355): device time runs until exactly Δ has been absorbed; event source 140. -/
def slewEnd (p : Part) : Part :=
  if !p.tim.slewing || !p.tim.run then p
  else
    let p := finishSlew 3 p
    if p.tim.slewLeft = 0 then
      raise (checkClamp { p with tim := { p.tim with slewing := false, slewTotal := 0 } }) 140
        [(8, wrapCode 64 (p.tim.slewTotal / (nsUnit : Int)))]
    else p

/-- TIME_INCREMENT (R352, R356). -/
def timeIncrement (h : Hdr) (p : Part) : Part :=
  beginRaw p h 0x32 false fun p =>
    let inc := h.par 0x14 1 % 16 * nsUnit + h.par 0x10 4
    let u := h.par 0x08 8
    let off : Int := ((incBase p : Int) - inc) * rateDen
    if fld p TIM_MODE ≠ 2 then completeSt p h .errState
    else if h.rsv = true ∨ (u ≠ 0 ∧ (u < p.tk.tick + 1 ∨ p.tk.tick + 2 ^ 24 < u)) ∨ rateMax p < off.natAbs then
      completeSt p h .errParam
    else { p with tim := { p.tim with incWaits := p.tim.incWaits ++ [⟨h, u, inc⟩] } }

/-- The first TIME_INCREMENT to apply: the one with the least u0, of equals the first picked up. -/
def firstWait : List IncWait → Option IncWait
  | [] => none
  | w :: l => match firstWait l with
    | none => some w
    | some v => if v.u0 < w.u0 then some v else some w

/-- INCREMENT_APPLY (R352): the INC takes effect at the first edge at or after B(u0), or at the next edge, and the completion
carries the tick in which it did. -/
def incrementApply (p : Part) : Part :=
  match firstWait p.tim.incWaits with
  | none => p
  | some w =>
    let p := if w.u0 = 0 then timeEdge p else advanceTo p (boundaryAt p w.u0)
    let q := { p with tim := { p.tim with softInc := some (w.inc, incBase p), incWaits := p.tim.incWaits.erase w } }
    complete (checkClamp q) w.hdr .ok 0 (tickAt p p.now)

/-! ### Pins and the alarm -/

/-- The instant `k` times 1/512 of a time-clock cycle after the last edge, to which time stamps are resolved (R357). -/
def gridInstant (p : Part) (k : Nat) : Nat := p.now + incNow p * k / 512

/-- The instant of an edge at a ball (R357). -/
def instant (p : Part) (frac : Fin 512) : Nat := gridInstant p frac.val

/-- PPS_IN_EDGE (R349, R357, R358). -/
def ppsInEdge (frac : Fin 512) (p : Part) : Part :=
  if !fldOn p TIM_PPSI_EN then p
  else
    let stamp : Int := (instant p frac : Int) - psField p TIM_PPSI_ING_PS 0
    let sec : Int := (10 ^ 9 * nsUnit : Nat)
    let at' := (stamp % (timeSpan : Int)).toNat
    let p := setFld (setFld p TIM_PPSI_N (nsOf at')) TIM_PPSI_S (secOf at')
    let r := stamp % sec
    let off := if 2 * r ≤ sec then r else r - sec
    let win := fld p TIM_PPSI_WIN_US * 1000 * nsUnit
    if win ≠ 0 ∧ win < off.natAbs then raise p 142 [(4, satCode 32 (off / (nsUnit : Int)))]
    else if fld p TIM_SRC = 2 then takeTheta p off at' else p

/-- PPS_OUT_PULSE (R365): device time reaches the next whole second that has not given a pulse, and PPS_OUT rises. -/
def ppsOutPulse (p : Part) : Part :=
  if fldOn p TIM_PPSO_EN && p.tim.run then
    let sec := 10 ^ 9 * nsUnit
    let whole := (p.now + sec - 1) / sec * sec
    let rise := if p.now = whole ∧ p.tim.ppsRise = some (whole : Int) then whole + sec else whole
    let p := advanceTo p rise
    { p with tim := { p.tim with ppsPulses := p.tim.ppsPulses + 1, ppsRise := some (rise : Int) } }
  else p

/-- The level of PPS_OUT at an instant of device time (R365): high for TIM_PPSO_WIDTH ms from its last rise. -/
def ppsOutLevel (p : Part) (x : Nat) : Bool :=
  match p.tim.ppsRise with
  | some r => decide (r ≤ (x : Int)) && decide ((x : Int) < r + ppsWidth p)
  | none => false

/-- The alarm in units of 2^−32 ns. -/
def alarmAt (p : Part) : Nat := ((fld64 p TIM_ALARM_S_L TIM_ALARM_S_H) * 10 ^ 9 + fld p TIM_ALARM_N) * nsUnit

/-- The alarm fires (R367): event source 141, the enable clears, and it wakes the part from D3hot. -/
def fireAlarm (p : Part) : Part := wakeBy 2 0 (raise (setFld p TIM_ALARM_EN 0) 141 [(8, timeStamp (alarmAt p))])

/-- TIME_ALARM (R367): device time reaches the alarm. -/
def timeAlarm (p : Part) : Part := if fldOn p TIM_ALARM_EN then fireAlarm (advanceTo p (alarmAt p)) else p

/-- An alarm written with a time already passed fires at once (R367). -/
def alarmWritten (p : Part) : Part := if fldOn p TIM_ALARM_EN && decide (alarmAt p ≤ p.now) then fireAlarm p else p

end Sys2Proof.Machine
end

