-- ==== Sys2Proof/Machine/Lanes.lean ====
section
/-!
DEFINITION. The lanes (chapter 08): transmit and receive lane states, received frames and what they present, the side
channel, the frames sent, and LINK_CTRL.
-/
namespace Sys2Proof.Machine

/-- The code of a lane state (R255). -/
def laneCode : LaneSt → Nat
  | .down => 0 | .detect => 1 | .train => 2 | .lock => 3 | .exchange => 4 | .active => 5 | .fail => 6

/-- A receive lane. -/
def rxLane (p : Part) (n : Nat) : RxLane := smapGet (fun _ => RxLane.init) p.lanes.rx n

/-- Replace a receive lane. -/
def setRx (p : Part) (n : Nat) (l : RxLane) : Part :=
  { p with lanes := { p.lanes with rx := smapSet (fun _ => RxLane.init) p.lanes.rx n l } }

/-- A transmit lane. -/
def txLane (p : Part) (n : Nat) : TxLane := smapGet (fun _ => TxLane.init) p.lanes.tx n

/-- Replace a transmit lane. -/
def setTx (p : Part) (n : Nat) (l : TxLane) : Part :=
  { p with lanes := { p.lanes with tx := smapSet (fun _ => TxLane.init) p.lanes.tx n l } }

/-- Is a receive lane enabled: its group and its own bit (R245), with the lanes' supplies present (R430)? -/
def rxEnabled (p : Part) (n : Nat) : Bool :=
  unitPowered p 8 && fldI p LNK_RX_EN (n / 8) == 1 && (fldI p LNK_RX_LANE_EN (n / 8)).testBit (n % 8)

/-- Is a transmit lane enabled (R244)? -/
def txEnabled (p : Part) (n : Nat) : Bool :=
  unitPowered p 8 && fldI p LNK_TX_EN (n / 8) == 1 && (fldI p LNK_TX_LANE_EN (n / 8)).testBit (n % 8)

/-- Is a transmit lane assigned to readout (R224)? -/
def rdoLane (p : Part) (n : Nat) : Bool := (fldI p LNK_RDO_ASSIGN (n / 32)).testBit (n % 32)

/-- Is receive group `g` framable (R470)? -/
def rxFramable (p : Part) (g : Nat) : Bool := framableAt (tickT p) (fldI p LNK_RX_RATE g)

/-- Is transmit group `g` framable? -/
def txFramable (p : Part) (g : Nat) : Bool := framableAt (tickT p) (fldI p LNK_TX_RATE g)

/-- F of a receive lane; 0 while its group is not framable. -/
def rxF (p : Part) (n : Nat) : Nat := (frameBits (tickT p) (fldI p LNK_RX_RATE (n / 8))).getD 0

/-- F of a transmit lane. -/
def txF (p : Part) (n : Nat) : Nat := (frameBits (tickT p) (fldI p LNK_TX_RATE (n / 8))).getD 0

/-- Is the part in STANDBY? -/
def inStandby (p : Part) : Bool := p.boot.ps == .standby

/-- Event source g: a receive lane changes state (R256). -/
def rxEvent (p : Part) (n : Nat) (s : LaneSt) (cause : Nat) : Part :=
  raise p (n / 8) [(1, n / 8), (1, n % 8), (1, laneCode s), (1, cause)]

/-- Event source 16 + g: a transmit lane changes state. -/
def txEvent (p : Part) (n : Nat) (s : LaneSt) (cause : Nat) : Part :=
  raise p (16 + n / 8) [(1, n / 8), (1, n % 8), (1, laneCode s), (1, cause)]

/-- A receive lane as it enters a state outside ACTIVE: its runs, slack record and message under way end (R194, R237,
R248); that its slack lay outside stays noted, for R197 counts frames presented. LNK_RX_CAUSE keeps the cause of an
exit from ACTIVE and of an entry to FAIL or DOWN. What the lane presented in the current tick stands until the next
boundary (R239, R248). -/
def rxLeave (l : RxLane) (s : LaneSt) (cause : Nat) : RxLane :=
  { l with st := s, cause := if l.st = .active ∨ s = .fail ∨ s = .down then cause else l.cause, frame := none,
           frames := 0, run := 0, syncFails := 0, lost := 0, seq := none, frags := [], inMsg := true, bitLock := false,
           lockRun := 0, slacks := [], capWait := none, tmWait := none }

/-- A receive lane goes back to DETECT with a cause; `back` counts an attempt. -/
def rxToDetect (p : Part) (n cause : Nat) (back : Bool) : Part :=
  let l := rxLane p n
  setRx p n { rxLeave l .detect cause with attempts := if back then min (l.attempts + 1) 255 else l.attempts }

/-- A receive lane goes to FAIL with a cause (R245). -/
def rxToFail (p : Part) (n cause : Nat) : Part := rxEvent (setRx p n (rxLeave (rxLane p n) .fail cause)) n .fail cause

/-- A receive lane goes DOWN with cause 14 (R245). -/
def rxToDown (p : Part) (n : Nat) : Part :=
  if (rxLane p n).st = .down then setRx p n { rxLane p n with cause := 14 }
  else rxEvent (setRx p n (rxLeave (rxLane p n) .down 14)) n .down 14

/-- A transmit lane goes DOWN with cause 14 (R244). -/
def txToDown (p : Part) (n : Nat) : Part :=
  let l := txLane p n
  if l.st = .down then setTx p n { l with cause := 14 }
  else txEvent (setTx p n { l with st := .down, cause := 14, pat := .tp1, sentTick := none, halt := false }) n .down 14

/-! ### Transmit lanes -/

/-- RECEIVER_DETECTION (R244): a far-end termination is sensed. -/
def receiverDetection (n : Fin 128) (p : Part) : Part :=
  let l := txLane p n.val
  if l.st = .detect then setTx p n.val { l with st := .train, pat := .tp1 } else p

/-- TP1_TIME_END (R243). -/
def tp1TimeEnd (n : Fin 128) (p : Part) : Part :=
  let l := txLane p n.val
  if l.st = .train ∧ l.pat = .tp1 then setTx p n.val { l with pat := .tp2 } else p

/-- TP2_TIME_END (R243). -/
def tp2TimeEnd (n : Fin 128) (p : Part) : Part :=
  let l := txLane p n.val
  if l.st = .train ∧ l.pat = .tp2 then setTx p n.val { l with pat := .tp2Done } else p

/-- TX_ENTER_ACTIVE (R243, R470): at a boundary at or after the epoch, with the group framable. -/
def txEnterActive (n : Fin 128) (p : Part) : Part :=
  let l := txLane p n.val
  if l.st = .train ∧ l.pat = .tp2Done ∧ p.tk.reached = true ∧ txFramable p (n.val / 8) = true then
    txEvent (setTx p n.val { l with st := .active, sentTick := none, halt := false }) n.val .active 0
  else p

/-- An ACTIVE transmit lane returns to TRAIN (R244, R470), with a cause of R255 in the event. -/
def txToTrain (p : Part) (n : Nat) (pat : TrainPat) (cause : Nat) : Part :=
  let l := txLane p n
  if l.st = .active then
    txEvent (setTx p n { l with st := .train, pat := pat, sentTick := none, halt := false }) n .train cause
  else p

/-- ACTIVE transmit lanes whose group has ceased to be framable return to TRAIN, sending TP2 (R470). -/
def dropUnframable (p : Part) : Part :=
  (List.range 128).foldl (fun p n => if txFramable p (n / 8) then p else txToTrain p n .tp2Done 0) p

/-- LINE_CLOCK_PLL_LOSS (R244). -/
def lineClockPllLoss (g : Fin 16) (p : Part) : Part :=
  (List.range 8).foldl (fun p j =>
    let n := 8 * g.val + j
    let l := txLane p n
    if l.st = .down ∨ l.st = .fail then p
    else txEvent (setTx p n { l with st := .fail, cause := 13, sentTick := none, halt := false }) n .fail 13) p

/-! ### Receive lanes -/

/-- FORWARDED_CLOCK_DETECT (R245): the forwarded clock runs at the rate with this code, and a signal is present. -/
def forwardedClockDetect (n : Fin 128) (rate : Fin 4) (p : Part) : Part :=
  let l := rxLane p n.val
  if l.st ≠ .detect ∨ inStandby p = true then p
  else if fldI p LNK_RX_RATE (n.val / 8) = rate.val then setRx p n.val { l with st := .train }
  else rxToFail p n.val 6

/-- SAMPLING_POINT_CENTRED (R225, R245). -/
def samplingPointCentred (n : Fin 128) (p : Part) : Part :=
  let l := rxLane p n.val
  if l.st = .train then setRx p n.val { l with st := .lock, bitLock := false, lockRun := 0 } else p

/-- BIT_LOCK (R245). -/
def bitLock (n : Fin 128) (p : Part) : Part :=
  let l := rxLane p n.val
  if l.st = .lock then setRx p n.val { l with bitLock := true } else p

/-- TRAIN_TIMEOUT (R245). -/
def trainTimeout (n : Fin 128) (p : Part) : Part :=
  if (rxLane p n.val).st = .train then rxToDetect p n.val 8 true else p

/-- LOCK_TIMEOUT (R245). -/
def lockTimeout (n : Fin 128) (p : Part) : Part :=
  if (rxLane p n.val).st = .lock then rxToDetect p n.val 9 true else p

/-- EXCHANGE_TIMEOUT (R245) (DESIGN CHOICE, log 52). -/
def exchangeTimeout (n : Fin 128) (p : Part) : Part :=
  if (rxLane p n.val).st = .exchange then rxEvent (rxToDetect p n.val 10 true) n.val .detect 10 else p

/-- ATTEMPTS_LIMIT (R245). It acts on a lane held in DETECT by STANDBY too (DESIGN CHOICE, log 52). -/
def attemptsLimit (n : Fin 128) (p : Part) : Part :=
  let l := rxLane p n.val
  let lim := fld p LNK_RETRY_MAX
  if lim ≠ 0 ∧ lim ≤ l.attempts ∧ (l.st = .detect ∨ l.st = .train ∨ l.st = .lock ∨ l.st = .exchange) then
    rxToFail p n.val 12
  else p

/-- A loss condition takes an ACTIVE receive lane to DETECT (R247, R248). -/
def rxLoss (p : Part) (n cause : Nat) : Part :=
  if (rxLane p n).st = .active then rxEvent (rxToDetect p n cause false) n .detect cause else p

/-- SIGNAL_LOSS (R247). -/
def signalLoss (n : Fin 128) (p : Part) : Part := rxLoss p n.val 1

/-- FORWARDED_CLOCK_LOSS (R247). -/
def forwardedClockLoss (n : Fin 128) (p : Part) : Part := rxLoss p n.val 2

/-- TRACKING_LIMIT (R225, R247). -/
def trackingLimit (n : Fin 128) (p : Part) : Part := rxLoss p n.val 3

/-- LOSS_FRAMES_EXPIRY (R247). -/
def lossFramesExpiry (n : Fin 128) (p : Part) : Part :=
  if fld p LNK_LOSS_FRAMES ≤ (rxLane p n.val).lost then rxLoss p n.val 5 else p

/-- Errors of a receive lane found together, of kinds 0 CRC, 1 SYNC, 2 order and 3 stuffing: each is counted, and event
source 32 + g reports them under the hold-off (R255, R256). -/
def laneErrors (p : Part) (n : Nat) (kinds : List Nat) : Part :=
  if kinds.isEmpty then p
  else
    let p := kinds.foldl (fun p k => bumpFldI p (match k with
      | 0 => LNK_ERR_CRC | 1 => LNK_ERR_SYNC | 2 => LNK_ERR_ORDER | _ => LNK_ERR_STUFF) n 1) p
    let g := n / 8
    let bits := kinds.foldl (fun b k => b ||| 2 ^ (4 * (n % 8) + k)) (smapGet (fun _ => 0) p.lanes.errs g)
    let quiet := match smapGet (fun _ => none) p.lanes.errAt g with
      | some t => decide (t ≤ timeNs p.now) && decide (timeNs p.now < t + fld p LNK_HOLDOFF * 1000)
      | none => false
    if quiet then { p with lanes := { p.lanes with errs := smapSet (fun _ => 0) p.lanes.errs g bits } }
    else
      raise { p with lanes := { p.lanes with errs := smapSet (fun _ => 0) p.lanes.errs g 0,
                                             errAt := smapSet (fun _ => none) p.lanes.errAt g (some (timeNs p.now)) } }
        (32 + g) [(1, g), (8, p.tk.tick), (4, bits)]

/-- A detection instant on the grid of 1/512 of a time-clock cycle to which stamps are resolved (R357). -/
def onGrid (p : Part) (x : Nat) : Int :=
  let inc : Int := incNow p
  if inc = 0 then x else p.now + inc * (((x : Int) - p.now) * 512 / inc) / 512

/-- Take the fragment of a frame (R250): its byte, marked when the frame is not good. Fragments are numbered from the first
frame with TMF = 1 after one with TMF = 0. After 16 the message, when all
were good, waits to be acted on (R251, R252: TYPE 2 capability, 1 time). `first` is the detection of the frame's first
line bit; fragment 0 stamps it. -/
def takeFragment (p : Part) (n : Nat) (d : Decoded) (good : Bool) (first : Nat) : Part :=
  let l := rxLane p n
  if d.ctrl.testBit 7 = false then setRx p n { l with inMsg := false, frags := [] }
  else
    let starts := !l.inMsg
    let v := d.seq + (if good then 0 else 256)
    let frags := if starts then [v] else if l.frags.isEmpty then [] else l.frags ++ [v]
    let stamp := (onGrid p first - psField p TIM_LRX_ING_PS (n / 8)) % (timeSpan : Int)
    let l := { l with inMsg := true, frags := frags, rxs := if starts then stamp.toNat else l.rxs }
    if frags.length < 16 then setRx p n l
    else
      let whole := frags.all (fun b => decide (b < 256))
      let msg := leNat (frags.map (fun b => BitVec.ofNat 8 b))
      let l := { l with frags := [] }
      setRx p n (if whole ∧ msg % 16 = 2 then { l with capWait := some msg }
                 else if whole ∧ msg % 16 = 1 then { l with tmWait := some msg } else l)

/-- Does the lane receive frames: in LOCK once it has bit lock, in EXCHANGE and in ACTIVE (R245) (DESIGN CHOICE,
log 52)? -/
def rxSees (l : RxLane) : Bool := (l.st == .lock && l.bitLock) || l.st == .exchange || l.st == .active

/-- RECEIVE_FRAME (R226, R227, R237): a frame reaches the path end of a receive lane. `posOk` says that it lies F bits
after the previous frame's start, `first` is the detection of its first line bit in device time, and `slack` the time
in ps from its path end to the next boundary. With no previous frame, the SEQ byte of the first counts as expected, in a
fragment frame too, though it carries a fragment (DESIGN CHOICE, log 52). -/
def receiveFrame (n : Fin 128) (bits : List Bool) (posOk : Bool) (first slack : Nat) (p : Part) : Part :=
  let l := rxLane p n.val
  if rxSees l = false ∨ rxFramable p (n.val / 8) = false then p
  else
    let d := decodeFrame (rxF p n.val) bits
    let tmf := d.ctrl.testBit 7
    let syncOk := d.sync == 0x4E79 && (posOk || l.seq.isNone)
    let next := match l.seq with
      | some s => (s + 1) % 256
      | none => d.seq
    let seqOk := tmf || d.seq == next
    let good := syncOk && d.stuffOk && d.crcOk && seqOk
    let bad := (if d.crcOk then [] else [0]) ++ (if syncOk then [] else [1]) ++ (if seqOk then [] else [2]) ++
      (if d.stuffOk then [] else [3])
    let p := laneErrors p n.val bad
    let p := takeFragment p n.val d good first
    let l := rxLane p n.val
    let fr : RxFrame := ⟨d.words, d.ctrl.testBit 0, d.ctrl.testBit 1, good, slack⟩
    let p := setRx p n.val { l with
      seq := some (if tmf then next else d.seq)
      frame := some fr
      frames := l.frames + 1
      run := if l.st = .active then (if good then l.run + 1 else 0) else 0
      syncFails := if d.sync = 0x4E79 then 0 else l.syncFails + 1 }
    if 4 ≤ (rxLane p n.val).syncFails then rxLoss p n.val 4 else p

/-- The slack of a presented frame (R194, R197): recorded for the last 256; outside [g, T − g] while RUNNING it raises
event source 57 once, until it has been inside for 16 frames. -/
def takeSlack (p : Part) (n s : Nat) : Part :=
  let l := rxLane p n
  let g := fld p FAB_ADM_GUARD * 100
  let out := decide (s < g) || decide (tickT p * 1000 < (s + g) * 2 ^ 32)
  let armed := l.slipRun.isNone
  let run := match l.slipRun with
    | none => if out && running p then some 0 else none
    | some k => if out then some 0 else if k + 1 < 16 then some (k + 1) else none
  let p := setRx p n { l with slacks := (s :: l.slacks).take 256, slipRun := run }
  if out && running p && armed then
    raise (bumpFld p FAB_SLIPS 1) 57 [(1, 1), (1, n), (4, s), (8, p.tk.tick)]
  else p

/-- What receive lane `n` presents in the tick that begins (R136, R227, R238, R239): the window words, with
lane-valid, of the one frame whose path end lay in the interval (DESIGN CHOICE, log 52). -/
def presentLane (p : Part) (n : Nat) : Part :=
  let l := rxLane p n
  if l.st = .down ∨ l.st = .fail ∨ l.st = .detect ∨ l.st = .train then
    setRx p n { l with valid := false, halt := false, frame := none, frames := 0 }
  else
    let act := l.st == .active
    let p := if l.frames ≠ 1 ∧ rxSees l = true then laneErrors p n [2] else p
    let p := match l.frame with
      | some f => if act then takeSlack p n f.slack else p
      | none => p
    let l := rxLane p n
    let good := match l.frame with | some f => f.good | none => false
    let valid := act && decide (l.frames = 1) && decide (17 ≤ l.run) &&
      (match l.frame with | some f => f.good && f.pv && !f.halt | none => false)
    let halt := match l.frame with | some f => f.good && f.halt | none => false
    let words := match l.frame with | some f => f.words | none => []
    let shown := smapSetMany (fun _ => 0) p.gr.rxVisible (words.zipIdx.map (fun (w, i) => (n * 128 + i, w)))
    let p := if valid then { p with gr := { p.gr with rxVisible := shown } } else p
    let lockRun := if l.frame.isNone then l.lockRun else if good then l.lockRun + 1 else 0
    let toExch := l.st == .lock && l.bitLock && decide (4 ≤ lockRun)
    setRx p n { l with valid := valid, halt := halt, frame := none, frames := 0,
                       lost := if good then 0 else l.lost + 1, lockRun := lockRun,
                       st := if toExch then .exchange else l.st }

/-- A stamp of a time message (R252): nanoseconds mod 2^32 with 16 fraction bits. -/
def laneStamp (t : Nat) : Nat := t / 2 ^ 16 % 2 ^ 48

/-- NUM and RXS of the latest time message that a receive lane has received complete (R253). -/
def latestTime (l : RxLane) : Nat × Option Nat :=
  match l.tmWait with
  | some m => (natBits m 8 8, some (laneStamp l.rxs))
  | none => (l.tmNum, l.tmStamp)

/-- The receive lanes at a boundary: every word is zero but those of the lanes with lane-valid, and the time messages
received before it are those that an outgoing message may report (R253). -/
def presentLanes (p : Part) : Part :=
  (List.range 128).foldl (fun p n =>
    if p.lanes.rx.any (fun e => e.1 == n) then
      let p := presentLane p n
      setRx p n { rxLane p n with tmHeld := latestTime (rxLane p n) }
    else p)
    { p with gr := { p.gr with rxVisible := [] } }

/-- CAPABILITY_MESSAGE (R245, R246, R251): a complete capability message is taken. A frame that the lane has yet to present
is the first it presents in ACTIVE (R248). -/
def capabilityMessage (n : Fin 128) (p : Part) : Part :=
  let l := rxLane p n.val
  match l.capWait with
  | none => p
  | some m =>
    let l := { l with capWait := none }
    let peer := { l with peerLane := natBits m 8 7, peerIdent := natBits m 32 32, peerValid := true }
    if l.st = .exchange then
      if natBits m 20 2 ≠ fldI p LNK_RX_RATE (n.val / 8) then rxToFail (setRx p n.val l) n.val 6
      else if natBits m 64 22 ≠ fld p FAB_T_NS ∨ natBits m 86 26 ≠ fld p FAB_T_FRAC / 64 then
        rxToFail (setRx p n.val l) n.val 7
      else
        let run := match l.frame with | some f => if f.good then 1 else 0 | none => 0
        rxEvent (setRx p n.val { peer with st := .active, attempts := 0, run := run, syncFails := 0, lost := 0,
                                           slacks := [] }) n.val .active 0
    else if l.st = .active then setRx p n.val peer
    else setRx p n.val l

/-- The difference of two stamps, taken mod 2^32 ns, as a signed value in units of 2^−16 ns (R254). -/
def stampDiff (a b : Nat) : Int := signedOf 48 ((a + 2 ^ 48 - b) % 2 ^ 48)

/-- The offset of R254, in units of 2^−32 ns, from t1 to t4. -/
def laneOffset (t1 t2 t3 t4 : Nat) : Int := (stampDiff t2 t1 - stampDiff t4 t3) * 2 ^ 16 / 2

/-- The delay of R254, in units of 2^−32 ns. -/
def laneDelay (t1 t2 t3 t4 : Nat) : Int := (stampDiff t2 t1 + stampDiff t4 t3) * 2 ^ 16 / 2

/-- TIME_MESSAGE (R253, R254, R349, R363): a complete time message is taken; when it answers a message of this part, its
offset and delay go to the time unit, whose servo takes the offset when this is its lane. -/
def timeMessage (n : Fin 128) (p : Part) : Part :=
  let l := rxLane p n.val
  match l.tmWait with
  | none => p
  | some m =>
    let t2 := laneStamp l.rxs
    let p := setRx p n.val { l with tmWait := none, tmNum := natBits m 8 8, tmStamp := some t2 }
    let sent := (txLane p n.val).txs.find? (fun x => x.1 == natBits m 16 8)
    match sent with
    | some (_, t3) =>
      if fldI p LNK_RX_TM_EN (n.val / 8) = 1 ∧ natBits m 24 1 = 1 then
        let t1 := natBits m 32 48
        let t4 := natBits m 80 48
        let off := laneOffset t1 t2 t3 t4
        let p := { p with tim := { p.tim with laneFigures := some (n.val, laneDelay t1 t2 t3 t4, off) } }
        if fld p TIM_SRC = 1 ∧ fld p TIM_SRC_LANE = n.val then
          takeTheta p (off - psField p TIM_LASYM_PS (n.val / 8)) p.now
        else p
      else p
    | none => p

/-! ### What a transmit lane sends -/

/-- Number of words that the blank declares for a transmit lane. -/
def txDeclared (p : Part) (n : Nat) : Nat := smapGet (fun _ => 0) (declOf p).txWords n

/-- Does a halt with this first covered tick cover tick `n`? -/
def haltCovers (m : Option Nat) (n : Nat) : Bool := match m with | some k => decide (k ≤ n) | none => false

/-- A readout lane's buffer. -/
def laneBuf (p : Part) (n : Nat) : LaneBuf := smapGet (fun _ => (⟨[], 0⟩ : LaneBuf)) p.rdo.lanes n

/-- The payload of a readout frame with P words, the buffer after it, and whether it holds record words (R288). -/
def rdoPayload (b : LaneBuf) (pw : Nat) : List Word × LaneBuf × Bool :=
  if pw = 0 then ([], { b with lseq := (b.lseq + 1) % 2 ^ 32 }, false)
  else
    let used := b.words.take (pw - 1)
    let first := match used.findIdx? (fun w => w.1) with | some i => i + 1 | none => 0
    let head : Word := BitVec.ofNat 64 (first + used.length * 2 ^ 16 + b.lseq % 2 ^ 32 * 2 ^ 32)
    (head :: used.map (·.2) ++ List.replicate (pw - 1 - used.length) 0,
     ⟨b.words.drop (pw - 1), (b.lseq + 1) % 2 ^ 32⟩, !used.isEmpty)

/-- The capability message of a transmit lane (R251). -/
def capMsg (p : Part) (n : Nat) : Nat :=
  2 + 1 * 2 ^ 4 + n * 2 ^ 8 + 15 * 2 ^ 16 + fldI p LNK_TX_RATE (n / 8) * 2 ^ 20 + 2 ^ 22 +
  frameP (txF p n) * 2 ^ 24 + (otpField p.boot.otpRead 0 0 8 0 % 2 ^ 32) * 2 ^ 32 + fld p FAB_T_NS * 2 ^ 64 +
  fld p FAB_T_FRAC / 64 * 2 ^ 86

/-- TXS of a message whose fragment 0 goes in tick `n` (R252): B(n) + 26 ns. -/
def txsOf (p : Part) (n : Nat) : Nat := laneStamp (boundaryAt p n + 26 * nsUnit)

/-- The time message of a transmit lane whose fragment 0 goes in tick `t` (R252, R253). -/
def timeMsg (p : Part) (n t : Nat) : Nat :=
  let r := rxLane p n
  let (num, stamp, ok) := match r.tmHeld with | (num, some s) => (num, s, 1) | _ => (0, 0, 0)
  1 + 1 * 2 ^ 4 + t / 1024 % 256 * 2 ^ 8 + num * 2 ^ 16 + ok * 2 ^ 24 + (if p.tim.srv = .locked then 1 else 0) * 2 ^ 25 +
  txsOf p t * 2 ^ 32 + stamp * 2 ^ 80

/-- The message whose fragments the frames of a tick carry on a lane, with the tick of its fragment 0 (R250). -/
def msgAt (p : Part) (n t : Nat) : Option Nat :=
  let k := t % 1024
  if 512 ≤ k ∧ k < 528 then some (t - (k - 512))
  else if k < 16 ∧ fldI p LNK_TX_TM_EN (n / 8) = 1 then some (t - k) else none

/-- CTRL without TMF, and the payload words, of the frame of tick `t` (R240); the part after it. -/
def frameBody (p : Part) (n t : Nat) : Part × Nat × List Word :=
  let pw := frameP (txF p n)
  let zero := List.replicate pw (0 : Word)
  let rdo := rdoLane p n
  let decl := decide (0 < txDeclared p n)
  let live := if n < 64 then p.tk.pvWest else p.tk.pvEast
  if haltCovers p.tk.partHaltFrom t then (p, 2 + (if rdo then 4 else 0), zero)
  else if haltCovers p.tk.fabHaltFrom t && decl then (p, 2, zero)
  else if rdo then
    let (ws, b, any) := rdoPayload (laneBuf p n) pw
    ({ p with rdo := { p.rdo with lanes := smapSet (fun _ => (⟨[], 0⟩ : LaneBuf)) p.rdo.lanes n b } },
     4 + (if any then 1 else 0), ws)
  else if decl && live then (p, 1, (List.range pw).map (fun i => smapGet (fun _ => 0) p.gr.txCommit (n * 128 + i)))
  else (p, 0, zero)

/-- FRAME_TRANSMIT (R223, R228 to R235, R240, R250 to R252, R358): an ACTIVE transmit lane sends the frame of the present
tick, once, its launch shifted by the trim of its group. -/
def frameTransmit (n : Fin 128) (p : Part) : Part :=
  let l := txLane p n.val
  let t := p.tk.tick
  if l.st ≠ .active ∨ p.tk.reached = false ∨ l.sentTick = some t ∨ txFramable p (n.val / 8) = false then p
  else
    let (p, ctrl, ws) := frameBody p n.val t
    let msg0 := msgAt p n.val t
    let l := match msg0 with
      | none => l
      | some t0 =>
        if t0 = t ∨ l.sentTick ≠ some (t - 1) then
          let cap := decide (512 ≤ t % 1024)
          let num := t0 / 1024 % 256
          { l with msg := if cap then capMsg p n.val else timeMsg p n.val t0,
                   txs := if cap then l.txs else (num, txsOf p t0) :: l.txs.filter (fun x => x.1 != num) }
        else l
    let (seq, ctrl) := match msg0 with
      | none => (t % 256, ctrl)
      | some t0 => (l.msg / 2 ^ (8 * (t - t0)) % 256, ctrl + 128)
    setTx p n.val { l with bits := encodeFrame (txF p n.val) seq ctrl ws, sentTick := some t, halt := ctrl.testBit 1,
                           launch := (boundaryAt p t : Int) + 26 * nsUnit + psField p TIM_LTX_TRIM_PS (n.val / 8) }

/-! ### Enables, STANDBY and LINK_CTRL -/

/-- LNK_RX_CTRL or LNK_TX_CTRL has been written (R244, R245): lanes newly enabled enter DETECT, in STANDBY too (DESIGN
CHOICE, log 52), lanes no longer enabled go DOWN. -/
def lanesWritten (before p : Part) : Part :=
  (List.range 128).foldl (fun p n =>
    let p := match rxEnabled before n, rxEnabled p n with
      | false, true => if (rxLane p n).st = .down then setRx p n { rxLane p n with st := .detect } else p
      | true, false => rxToDown p n
      | _, _ => p
    match txEnabled before n, txEnabled p n with
    | false, true => if (txLane p n).st = .down then setTx p n { txLane p n with st := .detect } else p
    | true, false => txToDown p n
    | _, _ => p) p

/-- A receive lane as the part enters STANDBY (R245): one that is enabled, or not DOWN, goes to DETECT; from TRAIN, LOCK or
EXCHANGE that is an attempt (DESIGN CHOICE, log 52). -/
def rxStandby (p : Part) (n : Nat) : Part :=
  let l := rxLane p n
  if l.st = .down ∧ rxEnabled p n = false then p
  else rxToDetect p n 0 (l.st == .train || l.st == .lock || l.st == .exchange)

/-- The part enters STANDBY (R244, R245, R393): receive lanes are held in DETECT, transmit lanes go DOWN. -/
def lanesStandby (p : Part) : Part :=
  (List.range 128).foldl (fun p n =>
    let p := rxStandby p n
    if (txLane p n).st = .down then p else txToDown p n) p

/-- The part leaves STANDBY, for D0 or for HALTED (R244, R245, R394, R425): the enabled lanes that are DOWN resume bring-up. -/
def lanesResume (p : Part) : Part :=
  (List.range 128).foldl (fun p n =>
    let p := if (rxLane p n).st = .down ∧ rxEnabled p n = true then setRx p n { rxLane p n with st := .detect } else p
    if (txLane p n).st = .down ∧ txEnabled p n = true then setTx p n { txLane p n with st := .detect } else p) p

/-- A LINK_CTRL command (R249, R380), as the row `i` of one action: ERR_PARAM for an action, direction or group that does
not exist and for a lane or group that is not enabled; otherwise `act` on each lane of the mask. -/
def linkCtrl (i : Instr) (h : Hdr) (action : Nat) (rx tx : Part → Nat → Part) (p : Part) : Part :=
  let a := h.par 0x0B 1
  if a ≠ action ∧ a < 4 then p
  else beginUnit p i h 0x10 8 fun p =>
    let d := h.par 0x08 1
    let g := h.par 0x09 1
    let lanes := (List.range 8).filter (fun j => (h.par 0x0A 1).testBit j)
    let on := if d = 0 then fldI p LNK_RX_EN g == 1 else fldI p LNK_TX_EN g == 1
    let lanesOn := lanes.all (fun j => if d = 0 then rxEnabled p (8 * g + j) else txEnabled p (8 * g + j))
    if 3 < a ∨ 1 < d ∨ 15 < g ∨ on = false ∨ lanesOn = false then completeSt p h .errParam
    else completeSt (lanes.foldl (fun p j => if d = 0 then rx p (8 * g + j) else tx p (8 * g + j)) p) h .ok

/-- Retrain a receive lane (R245, R249). -/
def rxRetrain (p : Part) (n : Nat) : Part :=
  let l := rxLane p n
  if l.st = .down ∨ l.st = .fail then p
  else rxEvent (setRx p n { rxLeave l .detect 11 with attempts := 0 }) n .detect 11

/-- LINK_RETRAIN: LINK_CTRL action 0 (R249). -/
def linkRetrain (h : Hdr) (p : Part) : Part :=
  linkCtrl (.linkRetrain h) h 0 rxRetrain (fun p n => txToTrain p n .tp1 11) p

/-- LINK_TAKE_DOWN: LINK_CTRL action 1 (R249). -/
def linkTakeDown (h : Hdr) (p : Part) : Part := linkCtrl (.linkTakeDown h) h 1 rxToDown txToDown p

/-- Bring a receive lane up (R245). -/
def rxBringUp (p : Part) (n : Nat) : Part :=
  let l := rxLane p n
  if l.st = .down ∨ l.st = .fail then setRx p n { l with st := .detect } else p

/-- Bring a transmit lane up (R244). -/
def txBringUp (p : Part) (n : Nat) : Part :=
  let l := txLane p n
  if l.st = .down ∨ l.st = .fail then setTx p n { l with st := .detect, pat := .tp1 } else p

/-- LINK_BRING_UP: LINK_CTRL action 2 (R249). -/
def linkBringUp (h : Hdr) (p : Part) : Part := linkCtrl (.linkBringUp h) h 2 rxBringUp txBringUp p

/-- Clear the error counts, attempts and slack record of a receive lane (R194, R249). -/
def rxClear (p : Part) (n : Nat) : Part :=
  let p := setFldI (setFldI (setFldI (setFldI p LNK_ERR_CRC n 0) LNK_ERR_SYNC n 0) LNK_ERR_ORDER n 0) LNK_ERR_STUFF n 0
  setRx p n { rxLane p n with attempts := 0, slacks := [] }

/-- LINK_CLEAR: LINK_CTRL action 3 (R249). -/
def linkClear (h : Hdr) (p : Part) : Part := linkCtrl (.linkClear h) h 3 rxClear (fun p _ => p) p

end Sys2Proof.Machine
end

