-- ==== Sys2Proof/Machine/Admission.lean ====
section
/-!
DEFINITION. Admission (R185 to R195), with ADMIT, START and STOP (R180 to R183).
-/
namespace Sys2Proof.Machine

/-- Outcome of a check of admission: none when it passes, else its code and detail (R185). -/
abbrev AdmResult := Option (Nat × Nat)

/-- Fail with a code and detail when a condition holds. -/
def admIf (c : Bool) (code detail : Nat) : AdmResult := if c then some (code, detail) else none

/-- The declarations after the release of a partial blank (R157): its entries replace those of the region. -/
def mergeDecl (cv first last : Nat) (d q : Decl) : Decl :=
  let inside (col : Nat) : Bool := decide (first ≤ col) && decide (col ≤ last)
  let lanes (a b : SMap Nat) : SMap Nat := smapSetMany (fun _ => 0) (smapFilter (fun n => !inside (laneCol cv n)) a) b
  let billets (a b : SMap Nat) : SMap Nat := smapSetMany (fun _ => 0) (smapFilter (fun n => !inside (n / 32)) a) b
  { d with rxWords := lanes d.rxWords q.rxWords, txWords := lanes d.txWords q.txWords,
           histMask := billets d.histMask q.histMask, probeMask := billets d.probeMask q.probeMask }

/-- The declarations that a partial blank puts in force at its release (R157). -/
def declAfter (p : Part) (q : BlankInfo) : Decl := mergeDecl (blankCv p) q.firstCol q.lastCol (declOf p) q.decl

/-- The declarations in force at tick `u` before region `k` is released: those of the regions that are HELD for a release
by then have joined (R191) (DEDUCED, log 40). -/
def declBy (p : Part) (k u : Nat) : Decl :=
  (List.range 8).foldl (fun d j =>
    match (regionAt p j).coming, (regionAt p j).release with
    | some q, some v =>
      if j ≠ k ∧ (regionAt p j).state = .held ∧ v ≤ u then mergeDecl (blankCv p) q.firstCol q.lastCol d q.decl else d
    | _, _ => d) (declOf p)

/-- The release tick of region `k`, or the earliest one it can have (R210): `u0` is that of its partial blank. -/
def earliestRelease (p : Part) (k u0 : Nat) : Nat :=
  match (regionAt p k).release with
  | some u => u
  | none => max (p.tk.tick + fld p CFG_REL_LEAD) u0

/-! ### The checks -/

/-- ADM_VERSION (R186): in restricted operation every admission fails with cause 3 (R436). -/
def admVersion (p : Part) (b : BlankInfo) : AdmResult :=
  if fldOn p SYS_RESTRICTED then some (0x0A, 3)
  else if fld p HST_FW < b.minFw then some (0x0A, 1)
  else admIf (b.steppings.testBit 0 == false) 0x0A 2

/-- ADM_GRID (R160). -/
def admGrid (p : Part) (b : BlankInfo) : AdmResult := admIf (placement p b.colsPerDie).isNone 0x03 0

/-- ADM_TRAVEL (R159). -/
def admTravel (b : BlankInfo) : AdmResult :=
  (travelDiff b.colsPerDie b.travel).map fun d => match d with
    | .inl off => (0x02, 2 ^ 20 + off * 2 ^ 24)
    | .inr (bil, ch) => (0x02, bil + ch * 2 ^ 16)

/-- ADM_TABLE (R152): a table run that is empty, passes the end of table memory, or begins below the end of the run before
it. -/
def admTable (b : BlankInfo) : AdmResult := (b.runs.find? (fun t => spansBad 0 t.2)).map (fun t => (0x0C, t.1))

/-- The maximum step clock of the ordering number, in MHz (R3). -/
def maxStepClock (p : Part) : Nat := if orderOf p = 1 then 2000 else 1750

/-- ADM_STEPS (R187): the detail has a bit for each condition that fails. -/
def admSteps (p : Part) (l : Nat) : AdmResult :=
  let n := tickN p
  let t := tickT p
  let long := decide (n < l + 8)
  let count := decide (n < 24) || decide (1048576 < n)
  let clock := decide (2 * n * 2 ^ 32 < t) || decide (maxStepClock p * t < n * 2 ^ 32 * 1000)
  admIf (long || count || clock) 0x01 ((if long then 1 else 0) + (if count then 2 else 0) + (if clock then 4 else 0))

/-- Is a group of a direction enabled, and one of its lanes (R188)? -/
def groupOn (p : Part) (tx : Bool) (g : Nat) : Bool := fldI p (if tx then LNK_TX_EN else LNK_RX_EN) g == 1

/-- Does a lane's own enable bit stand? -/
def ownOn (p : Part) (tx : Bool) (n : Nat) : Bool :=
  (fldI p (if tx then LNK_TX_LANE_EN else LNK_RX_LANE_EN) (n / 8)).testBit (n % 8)

/-- The rate code of a group. -/
def groupRate (p : Part) (tx : Bool) (g : Nat) : Nat := fldI p (if tx then LNK_TX_RATE else LNK_RX_RATE) g

/-- The declared words of a lane. -/
def declaredWords (d : Decl) (tx : Bool) (n : Nat) : Nat := smapGet (fun _ => 0) (if tx then d.txWords else d.rxWords) n

/-- The lanes in the order in which ADM_LANE_FRAME takes them: receive, then transmit (DESIGN CHOICE,
log 40). -/
def allLanes : List (Bool × Nat) := (List.range 128).map (fun n => (false, n)) ++ (List.range 128).map (fun n => (true, n))

/-- One lane of an enabled group (R188, R224). -/
def laneFrameFail (p : Part) (d : Decl) (x : Bool × Nat) : AdmResult :=
  let at' := x.2 + (if x.1 then 2 ^ 8 else 0)
  if !groupOn p x.1 (x.2 / 8) then none
  else match frameBits (tickT p) (groupRate p x.1 (x.2 / 8)) with
    | none => some (0x04, at' + 2 ^ 9)
    | some f =>
      if f < 56 + frameQ f then some (0x04, at' + 2 ^ 11)
      else
        let words := if x.1 && rdoLane p x.2 then 0 else frameP f
        admIf (decide (words < declaredWords d x.1 x.2)) 0x04 (at' + 2 ^ 10)

/-- ADM_LANE_FRAME (R188). -/
def admLaneFrame (p : Part) (d : Decl) : AdmResult :=
  (allLanes.findSome? (laneFrameFail p d)).orElse fun _ =>
    allLanes.findSome? (fun x =>
      admIf (!(groupOn p x.1 (x.2 / 8) && ownOn p x.1 x.2) && decide (0 < declaredWords d x.1 x.2)) 0x04
        (x.2 + (if x.1 then 2 ^ 8 else 0) + 2 ^ 10))

/-- Set bits of a mask map. -/
def maskCount (width : Nat) (m : SMap Nat) : Nat := (declaredSlots width m).length

/-- ADM_HISTORY (R189, R263). -/
def admHistory (p : Part) (d : Decl) : AdmResult :=
  let h := maskCount 8 d.histMask
  let k := ticksPerPage h
  let gRet := fld p HIS_HW_COUNT - fld p HIS_PIN_COUNT - 16
  if 2048 < h then some (0x06, 1)
  else if fld p HIS_SPILL * tickT p < h * 8 * 2 ^ 32 then some (0x06, 2)
  else admIf (decide (0 < h) && decide (gRet < (fld p HIS_RET + k - 1) / k)) 0x06 3

/-- ADM_PROBE (R190). -/
def admProbe (d : Decl) : AdmResult := admIf (decide (256 < maskCount 4 d.probeMask)) 0x07 (maskCount 4 d.probeMask)

/-- ADM_ACCEPT (R192). -/
def admAccept (p : Part) (d : Decl) : AdmResult :=
  let a := d.acceptRateMax + fld p HIS_EXT_MAX
  let h := maskCount 8 d.histMask
  let k := ticksPerPage h
  let w := if h = 0 then 1 else (d.winBeforeMax + d.winAfterMax + 1 + k - 1) / k + 1
  let cost := match p.rdo.graph with | some g => g.cost | none => 0
  if 0 < a ∧ p.rdo.graph.isNone = true then some (0x09, 3)
  else if 32 * fld p RDO_RHO * 1024 * tickT p < a * cost * 2 ^ 32 * 100 then some (0x09, 1)
  else admIf (decide (fld p HIS_PIN_COUNT < 1024 * w)) 0x09 2

/-- Lane power of a rate code, in units of 10 mW (R193). -/
def lanePower : Nat → Nat
  | 0 => FAB_PWR_L50.rst
  | 1 => FAB_PWR_L25.rst
  | 2 => FAB_PWR_L12.rst
  | _ => FAB_PWR_L6.rst

/-- The terms of P_est that do not depend on the blank, in units of 10 mW (R193). -/
def fixedPower (p : Part) : Nat :=
  10 * (FAB_PWR_LEAK.rst + FAB_PWR_IOD.rst + FAB_PWR_HBM.rst) +
  ([false, true].map (fun tx => ((List.range 16).map (fun g =>
    if groupOn p tx g then 8 * lanePower (groupRate p tx g) else 0)).sum)).sum

/-- P_est times T, in units of 10 mW × 2^−32 ns (R193), for an E_fab in nJ. -/
def powerTimesT (p : Part) (energy : Nat) : Nat := energy * 2 ^ 32 * 100 + fixedPower p * tickT p

/-- P_est in units of 0.1 W, rounded up. -/
def powerEstimate (p : Part) (energy : Nat) : Nat :=
  if tickT p = 0 then 0 else (powerTimesT p energy + 10 * tickT p - 1) / (10 * tickT p)

/-- ADM_POWER (R193), on the exact estimate. -/
def admPower (p : Part) (energy : Nat) : AdmResult :=
  admIf (decide (fld p SYS_PWR_LIMIT * 10 * tickT p < powerTimesT p energy)) 0x08 (min (powerEstimate p energy) (2 ^ 32 - 1))

/-- ENERGY_NJ of the newest partial blank of a region: the one being loaded, else the one loaded last (R191)
(DEDUCED, log 40). -/
def regionEnergy (r : Region) : Nat := match r.coming with | some q => q.energyNj | none => r.energy

/-- E_fab: the full blank and the newest partial blank of each region reloaded since (R191, R193). -/
def fabricEnergy (p : Part) : Nat :=
  (match p.blank with | some b => b.energyNj | none => 0) + (p.regions.map regionEnergy).sum

/-- E_fab with the partial blank of region `k` as its newest. -/
def energyWith (p : Part) (k e : Nat) : Nat := fabricEnergy p - regionEnergy (regionAt p k) + e

/-- The checks that R191 recomputes for a partial blank: the code of the first that fails. -/
def regionChecks (p : Part) (k u0 : Nat) (q : BlankInfo) : AdmResult :=
  let d := mergeDecl (blankCv p) q.firstCol q.lastCol (declBy p k (earliestRelease p k u0)) q.decl
  (admLaneFrame p d).orElse fun _ => (admHistory p d).orElse fun _ => (admProbe d).orElse fun _ =>
  admPower p (energyWith p k q.energyNj)

/-- ADM_REGION at an admission (R191): every region that is LOADING or HELD, in order. -/
def admRegion (p : Part) : AdmResult :=
  (List.range 8).findSome? fun k =>
    let r := regionAt p k
    if r.state = .loading ∨ r.state = .held then
      match r.coming with
      | some q => admIf (!(matchesRegion p q.colsPerDie q.len k q.firstCol q.lastCol q.travel) ||
                         (regionChecks p k r.u0 q).isSome) 0x0B k
      | none => none
    else none

/-- One receive lane with declared words (R194, R195). A record with slacks on both sides of the guard reports the one
below it (DESIGN CHOICE, log 40). -/
def laneMarginFail (p : Part) (n : Nat) : AdmResult :=
  let l := rxLane p n
  let g := fld p FAB_ADM_GUARD * 100
  if l.st ≠ .active ∨ l.slacks.isEmpty = true then admIf (fldOn p FAB_LANE_REQUIRE) 0x05 (n + 2 ^ 8)
  else if l.slacks.any (fun s => decide (s < g)) then some (0x05, n + 2 ^ 9)
  else admIf (l.slacks.any (fun s => decide (tickT p * 1000 < (s + g) * 2 ^ 32))) 0x05 (n + 2 ^ 10)

/-- ADM_LANE_MARGIN (R194). -/
def admLaneMargin (p : Part) (d : Decl) : AdmResult := d.rxWords.findSome? (fun e => laneMarginFail p e.1)

/-- The step clock takes its ratio from N and T (R173). -/
def takeRatio (p : Part) : Part := { p with tk := { p.tk with pllN := tickN p, pllT := tickT p } }

/-- Admission of the loaded blank (R185): a pass of ADM_STEPS gives the step clock its ratio (R173), and FAB_PWR_EST is
written once ADM_POWER is reached. An estimate too large for its field saturates there (DESIGN CHOICE, log 40). -/
def admissionOf (p : Part) (b : BlankInfo) : Part × AdmResult :=
  let early := (admVersion p b).orElse fun _ => (admGrid p b).orElse fun _ => (admTravel b).orElse fun _ =>
    (admTable b).orElse fun _ => (admRegion p).orElse fun _ => admSteps p b.len
  match early with
  | some f => (p, some f)
  | none =>
    let p := takeRatio p
    let mid := (admLaneFrame p b.decl).orElse fun _ => (admHistory p b.decl).orElse fun _ =>
      (admProbe b.decl).orElse fun _ => admAccept p b.decl
    match mid with
    | some f => (p, some f)
    | none =>
      let e := fabricEnergy p
      let p := setFld p FAB_PWR_ESTIMATE (min (powerEstimate p e) 65535)
      (p, (admPower p e).orElse fun _ => admLaneMargin p b.decl)

/-- Run admission and report it (R185). -/
def runAdmission (p : Part) : Part × AdmResult :=
  match p.blank with
  | none => (p, none)
  | some b =>
    let (p, r) := admissionOf p b
    let (code, info) := r.getD (0, 0)
    (setFld (setFld (setFld p FAB_ADM_CODE code) FAB_ADM_DONE 1) FAB_ADM_INFO info, r)

/-- Complete ADMIT or START with ERR_ADMIT (R384). -/
def completeAdm (p : Part) (h : Hdr) (f : Nat × Nat) : Part :=
  complete p h .errAdmit (Status.errAdmit.code + f.1 * 256) f.2

/-! ### ADMIT, START, STOP -/

/-- Set the fabric state. -/
def setFab (p : Part) (s : FabState) : Part := { p with tk := { p.tk with fab := s } }

/-- ADMIT (R180, R185, R203). -/
def admitCmd (h : Hdr) (p : Part) : Part :=
  beginCmd p h 0x04 false fun p =>
    let ok := p.tk.fab == .loaded || p.tk.fab == .admitted || p.tk.fab == .stopped || running p
    if !ok || p.loader.writing.isSome then completeSt p h .errState
    else
      let (p, r) := runAdmission p
      match r with
      | some f => completeAdm p h f
      | none => completeSt (if p.tk.fab = .loaded then setFab p .admitted else p) h .ok

/-- START (R180 to R182, R203): admission, then u0 against the tick of its passing, then the lock. -/
def startCmd (h : Hdr) (p : Part) : Part :=
  beginCmd p h 0x05 false fun p =>
    let u0 := h.par 0x08 8
    let ok := p.tk.fab == .loaded || p.tk.fab == .admitted || p.tk.fab == .stopped
    if !ok || startPending p || p.loader.writing.isSome then completeSt p h .errState
    else
      let (p, r) := runAdmission p
      match r with
      | some f => completeAdm (if p.tk.fab = .admitted then setFab p .loaded else p) h f
      | none =>
        let first := p.tk.tick + fld p FAB_LEAD
        if u0 ≠ 0 ∧ (u0 < first ∨ first + 2 ^ 24 < u0) then completeSt p h .errParam
        else
          let p := setFld p FAB_LOCKED 1
          let p := if p.boot.ps = .ready then setPartState p .operating else p
          { p with tk := { p.tk with start := some (h, max first u0) } }

/-- STOP (R180, R182, R183): u1 is held against the tick of its pickup. One that begins later, its last tick past, stops
with the present tick (DESIGN CHOICE, log 27). -/
def stopCmd (h : Hdr) (p : Part) : Part :=
  beginCmd p h 0x06 false fun p =>
    let u1 := h.par 0x08 8
    if running p then
      let v := pickupTick p h
      if u1 ≠ 0 ∧ u1 < v then completeSt p h .errParam
      else
        let last := max p.tk.tick (if u1 = 0 then v else u1)
        let last := match p.tk.stopAt with | some w => min w last | none => last
        { p with tk := { p.tk with stopAt := some last, stopCmds := p.tk.stopCmds ++ [h] } }
    else match p.tk.start with
      | some (s, _) =>
        complete (completeSt { p with tk := { p.tk with start := none } } s .errAborted) h .ok 0 0
      | none => completeSt p h .errState

end Sys2Proof.Machine
end

