-- ==== Sys2Proof/Machine/Ed25519.lean ====
section
/-!
DEFINITION. The check of an Ed25519 signature (RFC 8032), as AUTH (R318) and firmware images (R438) use it.
-/
namespace Sys2Proof.Machine

/-- The field's modulus, 2^255 − 19. -/
def edP : Nat := 2 ^ 255 - 19

/-- The order of the base point. -/
def edL : Nat := 2 ^ 252 + 27742317777372353535851937790883648493

/-- A power modulo `m`; the first argument counts the bits of the exponent still to take. -/
def powMod (m : Nat) : Nat → Nat → Nat → Nat
  | 0, _, _ => 1 % m
  | n + 1, b, e => (if e % 2 = 1 then b else 1) * powMod m n (b * b % m) (e / 2) % m

/-- A power in the field. -/
def edPow (b e : Nat) : Nat := powMod edP 255 b e

/-- The inverse in the field. -/
def edInv (x : Nat) : Nat := edPow x (edP - 2)

/-- The difference in the field. -/
def edSub (x y : Nat) : Nat := (x + edP - y % edP) % edP

/-- The constant d of the curve −x² + y² = 1 + d x² y², −121665 / 121666. -/
def edD : Nat := edSub 0 (121665 * edInv 121666 % edP)

/-- A point in extended coordinates. -/
structure EdPoint where
  x : Nat
  y : Nat
  z : Nat
  t : Nat
  deriving DecidableEq, Repr

/-- The neutral point. -/
def EdPoint.zero : EdPoint := ⟨0, 1, 1, 0⟩

/-- The sum of two points. -/
def EdPoint.add (p q : EdPoint) : EdPoint :=
  let a := edSub p.y p.x * edSub q.y q.x % edP
  let b := (p.y + p.x) * (q.y + q.x) % edP
  let c := 2 * p.t * q.t * edD % edP
  let d := 2 * p.z * q.z % edP
  let e := edSub b a
  let f := edSub d c
  let g := d + c
  let h := b + a
  ⟨e * f % edP, g * h % edP, f * g % edP, e * h % edP⟩

/-- A multiple of a point; the first argument counts the bits of the factor still to take. -/
def EdPoint.times : Nat → Nat → EdPoint → EdPoint
  | 0, _, _ => .zero
  | n + 1, k, p => let q := EdPoint.times n (k / 2) (p.add p); if k % 2 = 1 then q.add p else q

/-- Are two points equal? -/
def EdPoint.same (p q : EdPoint) : Bool := p.x * q.z % edP == q.x * p.z % edP && p.y * q.z % edP == q.y * p.z % edP

/-- The point that 32 bytes encode: y, and the low bit of x in the highest bit. -/
def edPointOf (b : List Byte) : Option EdPoint :=
  let n := leNat (b.take 32)
  let y := n % 2 ^ 255
  let u := edSub (y * y) 1
  let v := (edD * (y * y % edP) + 1) % edP
  let r := u * edPow v 3 % edP * edPow (u * edPow v 7 % edP) ((edP - 5) / 8) % edP
  let root := if v * r % edP * r % edP = u then some r
              else if v * r % edP * r % edP = edSub 0 u then some (r * edPow 2 ((edP - 1) / 4) % edP) else none
  if edP ≤ y then none
  else match root with
    | none => none
    | some x =>
      if x = 0 ∧ 2 ^ 255 ≤ n then none
      else
        let x := if x % 2 = n / 2 ^ 255 then x else edSub 0 x
        some ⟨x, y, 1, x * y % edP⟩

/-- The base point: y is 4/5, x even. -/
def edBase : EdPoint := (edPointOf ((List.range 32).map (fun i => BitVec.ofNat 8 (4 * edInv 5 % edP / 256 ^ i)))).getD .zero

/-- Does a signature of 64 bytes over a message check under a public key of 32 bytes? -/
def ed25519Ok (key msg sig : List Byte) : Bool :=
  let s := leNat ((sig.drop 32).take 32)
  let k := leNat (sha512 (sig.take 32 ++ key.take 32 ++ msg)) % edL
  match edPointOf key, edPointOf (sig.take 32) with
  | some a, some r => decide (s < edL) && decide (sig.length = 64) && decide (key.length = 32) &&
      (EdPoint.times 256 (8 * s) edBase).same ((EdPoint.times 4 8 r).add (EdPoint.times 256 (8 * k) a))
  | _, _ => false

end Sys2Proof.Machine
end

