-- ==== Sys2Proof/Machine/Trace.lean ====
section
/-!
DEFINITION. Trace (R308 to R319): the chute and its sinks, the stop, the fabric groups' CHANGE shavings, TRACE_CTRL
and authorisation.
-/
namespace Sys2Proof.Machine

/-- Stream bytes written since START. -/
def wptr (p : Part) : Nat := fld64 p TRC_WPTR_L TRC_WPTR_H

/-- Is the sink the host ring (R315)? -/
def ringSink (p : Part) : Bool := fldOn p TRC_SINK

/-- The readout ring of the host-ring sink and of DRAIN. -/
def trcRing (p : Part) : Fin 32 := Fin.ofNat 32 (fld p TRC_RING)

/-- Bytes of the HBM buffer. -/
def trcBufBytes (p : Part) : Nat := fld p TRC_SIZE_MIB * mib

/-- A chunk record (R315): its header and its stream bytes, filled up to a multiple of 8 (DESIGN CHOICE, log 42). -/
def chunkRecord (drain : Bool) (offset : Nat) (bytes : List Byte) : List Byte :=
  let n := (bytes.length + 7) / 8 * 8
  leBytes 2 3 ++ leBytes 2 (if drain then 1 else 0) ++ leBytes 4 (32 + bytes.length) ++ leBytes 8 offset ++
  List.replicate 16 0 ++ fitBytes n bytes

/-- Write the first gathered bytes, at most 4,096, as a chunk into the host ring; false while the ring lacks room. A
chunk that the ring can never hold is discarded (R389). -/
def putChunk (p : Part) : Part × Bool :=
  let here := p.trc.gather.take 4096
  let rest (p : Part) : Part := { p with trc := { p.trc with gather := p.trc.gather.drop 4096 } }
  match rdoPut p (trcRing p) 3 (chunkRecord false (wptr p - p.trc.gather.length) here) with
  | .written p => (rest p, true)
  | .tooLong p => (rest p, true)
  | .waits => (p, false)

/-- Write every chunk of 4,096 bytes that has gathered. -/
def putChunks : Nat → Part → Part
  | 0, p => p
  | n + 1, p => if p.trc.gather.length < 4096 then p else
    match putChunk p with
    | (p, true) => putChunks n p
    | (p, false) => p

/-- Bytes of the trace buffer in sealed memory, in pieces that do not cross its end (R315). -/
def bufPieces (p : Part) (ofs len : Nat) : List (Nat × Nat) :=
  let size := trcBufBytes p
  let at0 := if size = 0 then 0 else ofs % size
  let base := fld p TRC_BASE_MIB * mib
  if at0 + len ≤ size then [(base + at0, len)] else [(base + at0, size - at0), (base, len - (size - at0))]

/-- Write bytes to the HBM buffer at a stream offset; false when the sealing engine does not take them. Where no region
allows one of the pieces, none is written (R325). -/
def bufWrite (p : Part) (ofs : Nat) (bytes : List Byte) : Part × Bool :=
  let pieces := bufPieces p ofs bytes.length
  let put (l : List (Nat × Nat)) : Part × List Byte × Bool := l.foldl
    (fun (acc : Part × List Byte × Bool) piece =>
      let w := sealWrite acc.1 .trace piece.1 (acc.2.1.take piece.2)
      (w.1, acc.2.1.drop piece.2, acc.2.2 && w.2 == .ok)) (p, bytes, true)
  let barred := pieces.filter (fun e => (rgnFor p .trace e.1 e.2).isNone)
  let r := put (if barred.isEmpty then pieces else barred)
  (r.1, r.2.2)

/-- Read bytes of the HBM buffer from a stream offset. -/
def bufRead (p : Part) (ofs len : Nat) : Part × Status × List Byte :=
  (bufPieces p ofs len).foldl
    (fun (acc : Part × Status × List Byte) piece =>
      let r := sealRead acc.1 .trace piece.1 piece.2
      (r.1, if acc.2.1 = .ok then r.2.1 else acc.2.1, acc.2.2 ++ r.2.2)) (p, .ok, [])

/-- Is a shaving the chute's TRIGGER? -/
def isTrigger (b : List Byte) : Bool := leAt b 0 2 % 128 == 33 && leAt b 0 2 / 256 % 16 == 2

/-- The chute writes a whole shaving of a source to the sink and counts it in TRC_WPTR (R314, R315). A shaving that
sealed memory does not take is dropped and counted (DESIGN CHOICE, log 41). -/
def sinkShaving (p : Part) (src : Nat) (b : List Byte) : Part :=
  let ofs := wptr p
  let r : Part × Bool :=
    if ringSink p then ({ p with trc := { p.trc with gather := p.trc.gather ++ b } }, true) else bufWrite p ofs b
  if r.2 then
    let p := if isTrigger b then setFld64 r.1 TRC_TRIG_OFS_L TRC_TRIG_OFS_H ofs else r.1
    setFld64 p TRC_WPTR_L TRC_WPTR_H ((ofs + b.length) % 2 ^ 64)
  else dropShaving r.1 src b.length

/-- The next source in round-robin order whose input holds a shaving (R314). -/
def nextSource (p : Part) : Option Nat :=
  ((List.range 128).map (fun k => (p.trc.served + 1 + k) % 128)).find? (fun s => !(trcSource p s).queue.isEmpty)

/-- The chute takes one whole shaving from the next input; the room lets a LOSS and a stalled core's shavings in. -/
def takeOne (p : Part) : Part :=
  match nextSource p with
  | none => p
  | some s =>
    let t := trcSource p s
    match t.queue with
    | [] => p
    | b :: rest =>
      let p := setTrcSource p s { t with queue := rest }
      let p := sinkShaving { p with trc := { p.trc with served := s } } s b
      resumeStalled t.stalled.length (reportLoss p s) s

/-- Does trace still write its sink? -/
def trcLive (p : Part) : Bool := p.trc.st == .running || p.trc.st == .triggered

/-- A MSG of the runtime of core `j`, or for 32 of the firmware (R308, R311): 4 to 1,024 bytes, while the program that
writes it runs. -/
def emitMsg (p : Part) (src : Nat) (payload : List Byte) : Part :=
  let runs := if src < 32 then fldOn p SYS_RDO_STARTED && !coreStalled p src else fldOn p HST_FW_RUN
  if runs && decide (4 ≤ payload.length) && decide (payload.length ≤ 1024) && decide (payload.length % 4 = 0) then
    shave p src 6 payload
  else p

/-- CHUTE_TAKE (R314, R315): one shaving, unless the host ring keeps a full chunk waiting. `msgs` are the MSG shavings
that the runtimes and the firmware have written since the row before (DESIGN CHOICE, log 57). -/
def chuteTake (msgs : List (Fin 33 × List Byte)) (p : Part) : Part :=
  if !trcLive p then p
  else
    let p := putChunks 2 (msgs.foldl (fun p m => emitMsg p m.1.val m.2) p)
    if ringSink p && decide (4096 ≤ p.trc.gather.length) then p else putChunks 2 (takeOne p)

/-- What monitor `m` has counted since its last COUNTER on VC `vc`, with what the row adds for the traffic of the units' own
rows (DESIGN CHOICE, log 28): flits forwarded, or cycles stalled. It saturates (R14). -/
def monitorCount (p : Part) (m : Nat) (stalled : Bool) (more : BitVec 128) (vc : Nat) : Nat :=
  let own := smapGet (fun _ => 0) p.svn.net.counts (m * 8 + (if stalled then 4 else 0) + vc)
  min (own + natBits more.toNat (32 * vc) 32) (2 ^ 32 - 1)

/-- COUNTER_SHAVING (R308, R311): monitor `m` emits the counts since its last COUNTER, and begins anew; while trace does not
take from it, it goes on counting. `flits` and `stalls` are what the traffic of the units' own rows, which enters no router
of the model, adds: VC0 in the low 32 bits. -/
def counterShaving (m : Fin 8) (flits stalls : BitVec 128) (p : Part) : Part :=
  let count (stalled : Bool) (more : BitVec 128) : List Byte :=
    (List.range 4).flatMap (fun vc => leBytes 4 (monitorCount p m.val stalled more vc))
  let net := p.svn.net
  if trcTaking p && trcEnabled p (40 + m.val) then
    shave { p with svn := { p.svn with net := { net with counts := smapFilter (fun k => k / 8 != m.val) net.counts } } }
      (40 + m.val) 7 (count false flits ++ count true stalls)
  else p

/-- CHUNK_TIMEOUT (R315): the oldest gathered byte is 10 µs old. -/
def chunkTimeout (p : Part) : Part := if p.trc.gather.isEmpty then p else (putChunk p).1

/-- SINK_FULL_TIMEOUT (R319): the host-ring sink has been full for 1 ms. -/
def sinkFullTimeout (p : Part) : Part :=
  if trcLive p && ringSink p && !p.trc.gather.isEmpty && !(putChunk p).2 then raise p 117 [(1, fld p TRC_RING)] else p

/-- Take everything that waits in the inputs. -/
def takeAll : Nat → Part → Part
  | 0, p => p
  | n + 1, p => takeAll n (takeOne p)

/-- Shavings that wait in the inputs, with those of stalled cores and what may go before each. -/
def shavingsWaiting (p : Part) : Nat := (p.trc.sources.map (fun e => e.2.queue.length + 3 * e.2.stalled.length + 2)).sum

/-- The chute writes STOP and trace freezes (R316, R317): event source 112. -/
def freezeTrace (p : Part) (cause : Nat) : Part :=
  let t := trcSource p 33
  let led := emitLead p 33 { t with queue := [] }
  let stop := emitRaw led (shavingBytes 33 3 (trcTime p - led.last) []) (trcTime p) false
  let p := stop.queue.foldl (fun p b => sinkShaving p 33 b) (setTrcSource p 33 { stop with queue := [] })
  let still := p.trc.sources.map (fun e => (e.1, { e.2 with stalled := [] }))
  raise { p with trc := { p.trc with st := .frozen, sources := smapSetMany (fun _ => TrcSource.init) [] still } } 112 [(1, cause), (8, wptr p)]

/-- TRACE_STOP_INSTANT (R316): device time reaches the stop instant; the shavings generated by then are written. -/
def traceStopInstant (p : Part) : Part :=
  if p.trc.st = .triggered then
    let p := if p.now < p.trc.stopAt * nsUnit then advanceTo p (p.trc.stopAt * nsUnit) else p
    freezeTrace (takeAll (shavingsWaiting p) p) 1
  else p

/-! ### CHANGE shavings of the fabric groups -/

/-- The watched slots of group `g`, by bit p = 8i + j (R312). -/
def watchedBits (p : Part) (g : Nat) : List Nat :=
  (List.range 128).filter (fun b => (fldI p TRC_FAB_MASK (g * 4 + b / 32)).testBit (b % 32))

/-- What history slot `b` of group `g` handed over. -/
def groupValue (m : SMap Word) (g b : Nat) : Word := smapGet (fun _ => 0) m (g * 128 + b)

/-- The CHANGE of one group for tick `t` (R312): the slots that changed, or every watched slot in the first tick after
the fabric enters RUNNING and after a LOSS. -/
def groupChange (t : Nat) (cur : SMap Word) (p : Part) (g : Nat) : Part :=
  let watched := watchedBits p g
  if watched.isEmpty || decide (blankCv p * 32 ≤ 16 * g) then p
  else
    let p := reportLoss p (64 + g)
    let t0 := trcSource p (64 + g)
    let full := p.trc.full || t0.afterLoss
    let p := if t0.afterLoss then setTrcSource p (64 + g) { t0 with afterLoss := false } else p
    let marked := watched.filter (fun b => full || groupValue cur g b != groupValue p.trc.prev g b)
    if marked.isEmpty then p
    else shave p (64 + g) 8 (leBytes 8 t ++ leBytes 16 (bitMap 128 (fun b => marked.contains b)) ++
      marked.flatMap (fun b => leBytes 8 (groupValue cur g b).toNat))

/-- The fabric groups compare the history words of an executed tick (R312). -/
def changeShavings (p : Part) (t : Nat) (cur : SMap Word) : Part :=
  let p := if trcTaking p then (List.range 64).foldl (groupChange t cur) p else p
  { p with trc := { p.trc with prev := cur, full := false } }

/-! ### TRACE_CTRL -/

/-- A TRACE_CTRL command begins, as the row `i` of one action (R317, R433): ERR_PARAM for an action that does not exist. -/
def traceCtrl (i : Instr) (h : Hdr) (action : Nat) (act : Part → Part) (p : Part) : Part :=
  if h.traceAction ≠ action ∧ h.traceAction < 6 then p
  else beginUnit p i h 0x28 12 fun p => if 5 < h.traceAction then completeSt p h .errParam else act p

/-- TRACE_START (R317). -/
def traceStart (h : Hdr) (p : Part) : Part :=
  traceCtrl (.traceStart h) h 0 (fun p =>
    if trcLive p then completeSt p h .errState
    else
      let drains := p.trc.drains.map (·.1)
      let p := setFld64 (setFld64 p TRC_WPTR_L TRC_WPTR_H 0) TRC_TRIG_OFS_L TRC_TRIG_OFS_H 0
      let p := { p with trc := { p.trc with st := .running, stopAt := 0, sources := [], served := 127, gather := [],
                                            drains := [] } }
      completeSt (completeAll p drains .errAborted 0) h .ok) p

/-- TRACE_STOP (R317). -/
def traceStop (h : Hdr) (p : Part) : Part :=
  traceCtrl (.traceStop h) h 1 (fun p => if trcLive p then completeSt (freezeTrace p 0) h .ok else completeSt p h .errState) p

/-- TRACE_TRIGGER (R316, R317): the trigger was taken at the pickup of the command, or, where trace began to run between its
pickup and now, is taken now (DESIGN CHOICE, log 42). -/
def traceTriggerCmd (h : Hdr) (p : Part) : Part :=
  traceCtrl (.traceTrigger h) h 2 (fun p =>
    if (foundOf p h).triggered then completeSt p h .ok
    else if trcLive p then completeSt (traceTrigger p 3 0 p.tk.tick) h .ok else completeSt p h .errState) p

/-- SET_SOURCES (R313, R317, R318): a source that becomes enabled begins with SYNC. -/
def setSources (h : Hdr) (p : Part) : Part :=
  traceCtrl (.setSources h) h 3 (fun p =>
    let mask := BitVec.ofNat 128 (h.par 0x10 16)
    if mask.getLsbD 32 && !fldOn p TRC_AUTH then completeSt p h .errAuth
    else
      let added := (List.range 128).filter (fun s => mask.getLsbD s && !(fldI p TRC_SRC_EN (s / 32)).testBit (s % 32))
      let p := added.foldl (fun p s => setTrcSource p s { trcSource p s with needSync := true }) p
      let p := (List.range 4).foldl (fun p k => setFldI p TRC_SRC_EN k (natBits mask.toNat (32 * k) 32)) p
      completeSt p h .ok) p

/-- DRAIN (R317): it starts at the oldest byte of the frozen HBM buffer; a further one follows it (DESIGN CHOICE,
log 42). -/
def drain (h : Hdr) (p : Part) : Part :=
  traceCtrl (.drain h) h 4 (fun p =>
    if p.trc.st = .frozen ∧ ringSink p = false then
      { p with trc := { p.trc with drains := p.trc.drains ++ [(h, wptr p - trcBufBytes p)] } }
    else completeSt p h .errState) p

/-- The first DRAIN has ended. -/
def dropDrain (p : Part) : Part := { p with trc := { p.trc with drains := p.trc.drains.drop 1 } }

/-- Copy chunks of the first DRAIN while the ring has room. -/
def drainChunks : Nat → Part → Hdr → Nat → Part
  | 0, p, _, _ => p
  | n + 1, p, h, ofs =>
    if wptr p ≤ ofs then
      completeSt (raise (dropDrain p) 116 [(8, min (wptr p) (trcBufBytes p))]) h .ok
    else
      let len := min 4096 (wptr p - ofs)
      match bufRead p ofs len with
      | (p, .ok, b) =>
        let next (p : Part) : Part := { p with trc := { p.trc with drains := (h, ofs + len) :: p.trc.drains.drop 1 } }
        match rdoPut p (trcRing p) 3 (chunkRecord true ofs b) with
        | .written p => drainChunks n (next p) h (ofs + len)
        | .tooLong p => drainChunks n (next p) h (ofs + len)
        | .waits => p
      | (p, st, _) => completeSt (dropDrain p) h st

/-- DRAIN_END (R317, R319): the copy runs to TRC_WPTR; while the ring lacks room it goes on at the next such event. -/
def drainEnd (p : Part) : Part :=
  match p.trc.drains with
  | [] => p
  | (h, ofs) :: _ => drainChunks (trcBufBytes p / 4096 + 2) p h ofs

/-! ### Authorisation -/

/-- The 32 bytes of the challenge (R318). -/
def challengeBytes (p : Part) : List Byte := (List.range 32).map (Config.challenge p.trc.chal)

/-- Does a buffer of a public key and a signature authorise (R318)? -/
def authorises (p : Part) (buf : List Byte) : Bool :=
  let key := buf.take 32
  let serial := leBytes 8 (otpField p.boot.otpRead 0 0 8 0)
  otpPayload p.boot.otpRead 3 == some (sha256 key) && ed25519Ok key (challengeBytes p ++ serial) (buf.drop 32)

/-- The part draws a new challenge (R318). -/
def drawChallenge (p : Part) : Part := { p with free := p.free + 1, trc := { p.trc with chal := p.free } }

/-- AUTH (R318), with the 96 bytes of the buffer: whatever its end, a new challenge is drawn. -/
def auth (h : Hdr) (buf : List Byte) (p : Part) : Part :=
  let i : Instr := .auth h buf
  traceCtrl i h 5 (fun p =>
    let addr := h.par 0x10 8
    if !inWindow p .read addr 96 then refuseWindow (drawChallenge p) h h.op addr 96
    else withBuffer p i h .read addr 96 fun p =>
      if authorises p (fitBytes 96 buf) then
        completeSt (raise (setFld (drawChallenge p) TRC_AUTH 1) 114 []) h .ok
      else completeSt (raise (drawChallenge p) 115 []) h .errAuth) p

/-- TRC_CHALk (R318): four bytes of the challenge. -/
def challengeWord (p : Part) (k : Nat) : Nat :=
  leNat ((List.range 4).map (fun i => Config.challenge p.trc.chal (4 * k + i)))

end Sys2Proof.Machine
end

