-- ==== Sys2Proof/Machine/Capture.lean ====
section
/-!
DEFINITION. Capture (R290 to R307): the units, their trigger condition and segments, delivery, and the trigger bus.
-/
namespace Sys2Proof.Machine

/-- The declared probe slots in the order of R154, as keys billet × 4 + slot. -/
def probeSlots (p : Part) : List Nat := declaredSlots 4 (declOf p).probeMask

/-- The probe words as they are handed over (R154, R290). -/
def probeWords (p : Part) : List Word :=
  (probeSlots p).map (fun k => (smapGet (fun _ => Staged.none) p.gr.probe k).val)

/-- A capture unit; none when it has never been armed. -/
def capUnit (p : Part) (u : Nat) : Option CapUnit := smapGet (fun _ => none) p.cap.units u

/-- Replace a capture unit. -/
def setCap (p : Part) (u : Nat) (c : CapUnit) : Part :=
  { p with cap := { p.cap with units := smapSet (fun _ => none) p.cap.units u (some c) } }

/-- A unit that is not OFF. -/
def capOn (p : Part) (u : Nat) : Option CapUnit := (capUnit p u).filter (fun c => c.st != .off)

/-- w, the width of the watched field in bits (R293). -/
def capWidth (a : CapArm) : Nat := 16 * 2 ^ a.width.toNat

/-- The slot size S in bytes (R294). -/
def slotBytes (a : CapArm) : Nat :=
  64 * ((64 + (a.pre.toNat + 1 + a.post.toNat) * a.words.toNat * 8 + 63) / 64)

/-- The probe numbers that a unit records. -/
def capWords (a : CapArm) : List Nat := (a.word.take a.words.toNat).map (·.toNat)

/-- Blocks and slots of the capture area held by units that are not OFF. -/
def areaUse (p : Part) (f : CapArm → Nat) : Nat :=
  ((List.range 16).map (fun u => match capOn p u with | some c => f c.cfg | none => 0)).sum

/-! ### The trigger condition -/

/-- The value of the watched field (R296), exact. -/
def fieldValue (a : CapArm) (words : List Word) : Int :=
  let w := capWidth a
  let raw := natBits (words.getD a.probe.toNat 0).toNat a.lsb.toNat w
  if a.sgn then signedOf w raw else raw

/-- LEVEL as a value of the field's type. -/
def levelOf (a : CapArm) : Int := if a.sgn then a.level.toInt else a.level.toNat

/-- Does the own condition hold (R296)? -/
def ownFires (c : CapUnit) (words : List Word) : Bool :=
  let x := fieldValue c.cfg words
  (c.cfg.dir.getLsbD 0 && c.pr && decide (levelOf c.cfg ≤ x)) || (c.cfg.dir.getLsbD 1 && c.pf && decide (x ≤ levelOf c.cfg))

/-- Does a WAITING unit evaluate the next tick? -/
def evaluates (c : CapUnit) : Bool := c.st == .waiting && c.skip == 0 && !c.disarm

/-- The words of a tick that a unit records. -/
def recorded (c : CapUnit) (t : ProbeTick) : Nat × List Word :=
  (t.tick, (capWords c.cfg).map (fun n => t.words.getD n 0))

/-- Event source 96 + u (R304). -/
def capEvent (p : Part) (u cause tick : Nat) : Part := raise p (96 + u) [(1, u), (1, cause), (8, tick)]

/-- A unit whose segments are all delivered and that was disarmed goes OFF, and its commands complete (R297, R301). -/
def finishDisarm (p : Part) (u : Nat) : Part :=
  match capUnit p u with
  | some c =>
    if c.disarm && c.segs.isEmpty && c.cur.isNone then
      completeAll (setCap p u { c with st := .off, disarm := false, cmds := [] }) c.cmds .ok 0
    else p
  | none => p

/-- The segment being recorded is complete (R297): the unit is DEAD, or FULL when no slot is free and MODE is 0. -/
def completeSegment (p : Part) (u : Nat) (mark : Segment → Segment) : Part :=
  match capUnit p u with
  | some c =>
    match c.cur with
    | some s =>
      let segs := c.segs ++ [mark s]
      let last := match s.ticks.getLast? with | some e => e.1 | none => s.trig
      let full := decide (c.cfg.slots.toNat ≤ segs.length) && !c.cfg.wrap && !c.disarm
      let p := setCap p u { c with st := if full then .full else .dead, cur := none, segs := segs, seq := (c.seq + 1) % 2 ^ 32,
                                   deadSince := p.now, deadTicks := 0, doneTick := last }
      let p := { p with cap := { p.cap with delivery := p.cap.delivery ++ [u] } }
      if full then capEvent p u 3 last else p
    | none => p
  | none => p

/-- Does a segment hold all its ticks? -/
def segmentFull (a : CapArm) (s : Segment) : Bool := decide (s.preValid + 1 + a.post.toNat ≤ s.ticks.length)

/-- A unit fires at a tick (R296, R297): the segment begins, and may trigger trace (R316). -/
def fire (p : Part) (u : Nat) (c : CapUnit) (t : ProbeTick) (own bus : Bool) : Part :=
  let s : Segment := {
    trig := t.tick, trigTime := boundaryAt p t.tick, own := own, bus := bus, lines := t.lines,
    value := wrapCode 64 (fieldValue c.cfg t.words), preValid := c.pre.length, ticks := c.pre ++ [recorded c t],
    short := false, disarmed := false, renumbered := false, seq := c.seq, deadNs := c.deadNs, deadTicks := c.deadCount }
  let p := setCap p u { c with st := .recording, pr := false, pf := false, pre := [], cur := some s }
  let p := if (fld p TRC_TRIG_CAP).testBit u then traceTrigger p 0 u t.tick else p
  if segmentFull c.cfg s then completeSegment p u id else p

/-- What a unit does at the decision instant of a tick (R296 to R298). -/
def decideUnit (t : ProbeTick) (p : Part) (u : Nat) : Part :=
  match capOn p u with
  | none => p
  | some c =>
    if 0 < c.skip then setCap p u { c with skip := c.skip - 1 }
    else match c.st with
      | .waiting =>
        let x := fieldValue c.cfg t.words
        let own := ownFires c t.words && c.cfg.src.getLsbD 0
        let bus := decide (c.cfg.tbListen.toNat &&& t.lines ≠ 0) && c.cfg.src.getLsbD 1
        if c.disarm then p
        else if own || bus then fire p u c t own bus
        else
          let pre := c.pre ++ [recorded c t]
          setCap p u { c with
            pr := c.pr || decide (x < levelOf c.cfg - c.cfg.hyst.toNat),
            pf := c.pf || decide (levelOf c.cfg + c.cfg.hyst.toNat < x),
            pre := pre.drop (pre.length - c.cfg.pre.toNat) }
      | .recording =>
        match c.cur with
        | some s =>
          let s := { s with ticks := s.ticks ++ [recorded c t] }
          let p := setCap p u { c with cur := some s }
          if segmentFull c.cfg s then completeSegment p u id else p
        | none => p
      | _ => setCap p u { c with deadTicks := c.deadTicks + 1 }

/-- The lines that trigger trace at a decision instant (R316). -/
def busTriggers (t : ProbeTick) (p : Part) : Part :=
  (List.range 8).foldl (fun p j =>
    if t.lines.testBit j && (fld p TRC_TRIG_TBUS).testBit j then traceTrigger p 1 j t.tick else p) p

/-- Decide the oldest tick. -/
def decideTick (p : Part) : Part :=
  match p.cap.ticks with
  | [] => p
  | t :: rest =>
    busTriggers t ((List.range 16).foldl (decideUnit t) { p with cap := { p.cap with ticks := rest } })

/-- What the units do when the fabric leaves RUNNING, once its last tick is decided (R299). -/
def captureLeaves (p : Part) : Part :=
  (List.range 16).foldl (fun p u =>
    match capOn p u with
    | some c =>
      match c.st with
      | .recording => completeSegment p u (fun s => { s with short := true })
      | .waiting => setCap p u { c with pre := [], pr := false, pf := false }
      | _ => p
    | none => p) p

/-- D(t) (R292). -/
def decisionAt (p : Part) (t : Nat) : Nat := boundaryAt p (t + 1) + 256 * nsUnit

/-- Decide the oldest tick at its instant, and leave RUNNING after the last. -/
def decideOne (p : Part) : Part :=
  match p.cap.ticks with
  | [] => p
  | t :: _ =>
    let p := decideTick (advanceTo p (decisionAt p t.tick))
    if p.cap.ticks.isEmpty && !running p then captureLeaves p else p

/-- DECISION_INSTANT (R292, R296, R299): units stop as they stand in a part halt. -/
def decisionInstant (p : Part) : Part := if partHalted p then p else decideOne p

/-- The ticks whose decision instants have passed are decided (R292), none in a part halt (R299); `n` bounds their
number. -/
def decideDue : Nat → Part → Nat → Part
  | 0, p, _ => p
  | n + 1, p, instant =>
    match p.cap.ticks with
    | [] => p
    | t :: _ => if decisionAt p t.tick ≤ instant ∧ partHalted p = false then decideDue n (decideOne p) instant else p

/-- Every tick handed over is decided, and the units have left the earlier run (R299). -/
def endCapture (p : Part) : Part :=
  if p.cap.ticks.isEmpty then p
  else captureLeaves ((List.range p.cap.ticks.length).foldl (fun p _ => decideTick p) p)

/-- A unit enters WAITING after a segment (R297, R298). -/
def rearm (p : Part) (u : Nat) (c : CapUnit) : Part :=
  let ns := timeNs (p.now - c.deadSince)
  maxFldI (setCap p u { c with st := .waiting, pre := [], pr := false, pf := false, deadNs := min ns (2 ^ 32 - 1), deadCount := c.deadTicks })
    CAP_DEAD_MAX u ns

/-- CAPTURE_REARM (R297): a DEAD or FULL unit with a free slot is WAITING again; under MODE 1 the oldest segment not yet
delivered makes room. -/
def captureRearm (u : Fin 16) (p : Part) : Part :=
  match capOn p u with
  | none => p
  | some c =>
    if partHalted p || c.disarm || !(c.st == .dead || c.st == .full) then p
    else if c.segs.length < c.cfg.slots.toNat then rearm p u c
    else if c.st = .dead ∧ c.cfg.wrap = true then
      match c.segs with
      | s :: rest =>
        let p := capEvent (bumpFldI p CAP_LOST_COUNT u 1) u 2 s.trig
        rearm { p with cap := { p.cap with delivery := p.cap.delivery.erase u.val } } u { c with segs := rest, lost := c.lost + 1 }
      | [] => p
    else p

/-! ### Delivery -/

/-- A capture record (R303); its counts saturate (R14). -/
def captureRecord (u : Nat) (c : CapUnit) (s : Segment) : List Byte :=
  let n := s.ticks.length
  let bit (b : Bool) (v : Nat) : Nat := if b then v else 0
  let flags := bit (decide (s.preValid < c.cfg.pre.toNat)) 1 + bit s.short 2 + bit s.disarmed 4 + bit s.renumbered 8 +
    bit s.own 16 + bit s.bus 32
  leBytes 2 2 ++ leBytes 2 flags ++ leBytes 4 (64 + n * c.cfg.words.toNat * 8) ++ leBytes 8 s.trig ++
  leBytes 8 (secOf s.trigTime) ++ leBytes 4 (nsOf s.trigTime) ++ leBytes 4 (s.trigTime % 2 ^ 32) ++
  leBytes 1 u ++ leBytes 1 c.cfg.words.toNat ++ leBytes 2 s.preValid ++ leBytes 2 (n - s.preValid - 1) ++
  leBytes 2 s.lines ++ leBytes 4 s.seq ++ leBytes 4 s.deadNs ++ leBytes 4 (min s.deadTicks (2 ^ 32 - 1)) ++
  leBytes 4 (min c.lost (2 ^ 32 - 1)) ++
  leBytes 8 s.value ++ s.ticks.flatMap (fun e => e.2.flatMap (fun w => leBytes 8 w.toNat))

/-- The segment to deliver first, with its unit (R302). -/
def firstSegment (p : Part) : Option (Nat × CapUnit × Segment) :=
  match p.cap.delivery with
  | [] => none
  | u :: _ => match capUnit p u with
    | some c => match c.segs with
      | s :: _ => some (u, c, s)
      | [] => none
    | none => none

/-- The first segment has left its slot. -/
def dropSegment (p : Part) (u : Nat) (c : CapUnit) (lost : Nat) : Part :=
  finishDisarm (setCap { p with cap := { p.cap with delivery := p.cap.delivery.drop 1 } } u { c with segs := c.segs.drop 1, lost := lost }) u

/-- SEGMENT_DELIVERY (R302, R389). -/
def segmentDelivery (p : Part) : Part :=
  match firstSegment p with
  | none => p
  | some (u, c, s) =>
    match rdoPut p c.cfg.ring 2 (captureRecord u c s) with
    | .written p => dropSegment (if c.cfg.evtEach then capEvent p u 1 s.trig else p) u c 0
    | .tooLong p => dropSegment p u c c.lost
    | .waits => p

/-- DELIVERY_WAIT_TIMEOUT (R302, R304). -/
def deliveryWaitTimeout (p : Part) : Part :=
  match firstSegment p with
  | none => p
  | some (u, c, s) =>
    match rdoPut p c.cfg.ring 2 (captureRecord u c s) with
    | .waits => if partHalted p then p else capEvent p u 5 s.trig
    | _ => p

/-! ### Arming and disarming -/

/-- Rows 3 and 4 of R295: a probe number that is not declared, or a value that is reserved or out of range. -/
def capBad (p : Part) (a : CapArm) : Bool :=
  let n := (probeSlots p).length
  let w := capWidth a
  decide (n ≤ a.probe.toNat) || (capWords a).any (fun k => decide (n ≤ k)) ||
  a.width == 3 || decide (64 < a.lsb.toNat + w) ||
  (if a.sgn then decide (levelOf a < -(2 ^ (w - 1))) || decide ((2 : Int) ^ (w - 1) ≤ levelOf a) else decide (2 ^ w ≤ a.level.toNat)) ||
  decide (2 ^ w ≤ a.hyst.toNat) || decide (1024 < a.pre.toNat + 1 + a.post.toNat) ||
  a.dir == 0 || a.src == 0 || a.words == 0 || decide (16 < a.words.toNat) || a.slots == 0 || decide (4096 < a.slots.toNat) ||
  (a.word.drop a.words.toNat).any (fun b => b != 0)

/-- Row 5 of R295: the capture area. -/
def areaBad (p : Part) (a : CapArm) : Bool :=
  let lo := 64 * a.base.toNat
  let hi := lo + a.slots.toNat * slotBytes a
  decide (2 ^ 23 < hi) || decide (4096 < areaUse p (fun c => c.slots.toNat) + a.slots.toNat) ||
  (List.range 16).any (fun u => match capOn p u with
    | some c => decide (lo < 64 * c.cfg.base.toNat + c.cfg.slots.toNat * slotBytes c.cfg) && decide (64 * c.cfg.base.toNat < hi)
    | none => false)

/-- The taken-up ticks that a unit armed by a command picked up in tick `v` does not evaluate (R295): those before v + 1. -/
def armSkip (p : Part) (v : Nat) : Nat :=
  if v < p.tk.tick then (p.cap.ticks.filter (fun t => decide (t.tick ≤ v))).length
  else p.cap.ticks.length + (if executing p then 1 else 0)

/-- CAPTURE_ARM (R293 to R295). -/
def captureArm (h : Hdr) (p : Part) : Part :=
  let a := capArmOf h
  let testing (p : Part) : Bool := unitTesting p 11 || unitTesting p 9
  beginRaw p h 0x20 false fun p =>
    if p.tk.halt.isSome then completeSt p h .errHalted
    else if testing p && !h.urgent then holdCmd p (.captureArm h) h
    else if p.tk.fab == .off || !fldOn p HIS_CAP_RESERVE || (capOn p a.unit).isSome || unitAbsent p 11 || unitAbsent p 9 ||
        testing p then
      completeSt p h .errState
    else if h.rsv || capBad p a || areaBad p a then completeSt p h .errParam
    else if a.tbDrive.getLsbD 3 && !(fld p CAP_TB_DRV_EN).testBit (a.tbDrive.toNat % 8) then completeSt p h .errParam
    else
      let v := pickupTick p h
      let p := setCap p a.unit ⟨.waiting, a, armSkip p v, false, false, [], none, [], 0, 0, 0, 0, 0, 0, 0, false, []⟩
      complete p h .ok 0 (v + 1)

/-- A unit is disarmed (R297, R300, R301): a WAITING unit discards its pre-ring, and a RECORDING unit completes its segment
at once. It keeps its state until it goes OFF (DESIGN CHOICE, log 45). -/
def disarmUnit (p : Part) (u : Nat) (mark : Segment → Segment) : Part :=
  match capOn p u with
  | none => p
  | some c =>
    let p := setCap p u { c with disarm := true, pre := [], pr := false, pf := false }
    completeSegment p u mark

/-- CAPTURE_DISARM (R301). -/
def captureDisarm (h : Hdr) (p : Part) : Part :=
  beginUnit p (.captureDisarm h) h 0x21 11 fun p =>
    let u := h.par 0x08 1 % 16
    match capOn p u with
    | none => completeSt p h .errState
    | some _ =>
      let p := disarmUnit p u (fun s => { s with disarmed := true })
      match capUnit p u with
      | some c => finishDisarm (setCap p u { c with cmds := c.cmds ++ [h] }) u
      | none => p

/-- The last segment of a unit carries RENUMBERED (R300). -/
def markLast : List Segment → List Segment
  | [] => []
  | [s] => [{ s with renumbered := true }]
  | s :: l => s :: markLast l

/-- A release at tick `u` has changed the set of declared probe words (R300) (DEDUCED, log 45). -/
def renumber (p : Part) (u : Nat) : Part :=
  (List.range 16).foldl (fun p k =>
    match capOn p k with
    | none => p
    | some _ =>
      let p := disarmUnit p k (fun s => { s with disarmed := true })
      match capUnit p k with
      | some c => finishDisarm (capEvent (setCap p k { c with segs := markLast c.segs }) k 4 u) k
      | none => p) p

/-! ### The trigger bus -/

/-- The part with every tick older than position `n` decided, on the lines sampled so far. -/
def decideAhead : Nat → Part → Part
  | 0, p => p
  | n + 1, p => decideAhead n (decideTick p)

/-- The lines that own fires of a tick drive (R305) (DEDUCED, log 45). -/
def ownLines (p : Part) (t : ProbeTick) : Nat :=
  (List.range 16).foldl (fun m u => match capOn p u with
    | some c => if evaluates c && ownFires c t.words && c.cfg.src.getLsbD 0 && c.cfg.tbDrive.getLsbD 3
      then m ||| 2 ^ (c.cfg.tbDrive.toNat % 8) else m
    | none => m) 0

/-- A(t) (R305). -/
def busInstant (p : Part) (t : Nat) : Nat := boundaryAt p (t + 1) + 128 * nsUnit

/-- W, the time for which a line is driven (R305). -/
def pulseWidth (p : Part) : Nat := min (tickT p) (64 * nsUnit)

/-- A multiple of 100 ps in units of device time (R307), cut to whole units. -/
def tenths (n : Nat) : Nat := n * nsUnit / 10

/-- The trigger-bus lines that the part drives low at an instant of device time (R305): only while the fabric is RUNNING. -/
def tbusLow (p : Part) (instant : Nat) : Nat :=
  if running p && decide (p.cap.driveFrom ≤ instant) && decide (instant < p.cap.driveFrom + pulseWidth p) then p.cap.drive else 0

/-- TBUS_DRIVE (R305, R307): at A(t) + DRV of the oldest tick not yet driven, the part drives the lines of its own fires, for
a time W and only while the fabric is RUNNING. -/
def tbusDrive (p : Part) : Part :=
  match p.cap.ticks.findIdx? (fun t => !t.driven) with
  | none => p
  | some i =>
    match p.cap.ticks[i]? with
    | none => p
    | some t =>
      let lines := if running p then ownLines (decideAhead i p) t &&& fld p CAP_TB_DRV_EN else 0
      let at0 := busInstant p t.tick + tenths p.cap.drv
      let p := advanceTo p at0
      { p with cap := { p.cap with drive := lines, driveFrom := at0, ticks := p.cap.ticks.set i { t with driven := true } } }

/-- TBUS_SAMPLE (R306, R307): the lines found low at A(t) + W / 2 + SMP of the oldest tick not yet sampled. -/
def tbusSample (lines : BitVec 8) (p : Part) : Part :=
  if partHalted p then p
  else match p.cap.ticks.findIdx? (fun t => !t.sampled) with
    | none => p
    | some i =>
      match p.cap.ticks[i]? with
      | none => p
      | some t =>
        let p := advanceTo p (busInstant p t.tick + pulseWidth p / 2 + tenths p.cap.smp)
        let p := { p with cap := { p.cap with ticks := p.cap.ticks.set i { t with sampled := true, lines := lines.toNat } } }
        let low := ((List.range 8).filter (fun j => lines.getLsbD j)).length
        bumpFld (setFld p CAP_TB_LINES lines.toNat) CAP_TB_TRIGGERS low

/-- DRV and SMP as they stand at a tick boundary take effect (R307). -/
def takeDelays (p : Part) : Part :=
  { p with cap := { p.cap with drv := fld p CAP_TB_DRV, smp := fld p CAP_TB_SMP } }

end Sys2Proof.Machine
end

