-- ==== Sys2Proof/Machine/Loader.lean ====
section
/-!
DEFINITION. Loading blanks and regions (R200 to R213) and the configuration port (R214 to R220).
-/
namespace Sys2Proof.Machine

/-! ### Reports -/

/-- CFG_LOAD_RESULT as it stands. -/
def loadResult (p : Part) : Nat := (regAt p CFG_RES_STATUS.off).toNat

/-- CFG_LOAD_DETAIL as it stands. -/
def loadDetail (p : Part) : Nat := (regAt p CFG_DET_BILLET.off).toNat

/-- CFG_LOAD_SECTION as it stands. -/
def loadSection (p : Part) : Nat := (regAt p CFG_DET_SECTION.off).toNat

/-- Write the report of a load (R205): its source, whether it is partial and of which region, and how it ended. -/
def reportLoad (p : Part) (port : Bool) (region : Option Nat) (f : LoadFail) : Part :=
  let res := f.status.code + f.adm * 2 ^ 8 + f.check * 2 ^ 16 + (if port then 2 ^ 20 else 0) +
    (match region with | some k => 2 ^ 21 + k % 8 * 2 ^ 22 | none => 0) + 2 ^ 25
  let p := setRegAt p CFG_RES_STATUS.off (BitVec.ofNat 32 res)
  let p := setRegAt p CFG_DET_BILLET.off (BitVec.ofNat 32 f.detail)
  setRegAt p CFG_DET_SECTION.off (BitVec.ofNat 32 (match f.sect with | some i => i % 2 ^ 12 + 2 ^ 12 | none => 0))

/-- The command of a load ends, unless it has ended before with ERR_ABORTED (R393). -/
def endLoad (p : Part) (h : Hdr) (st : Status) (aux result : Nat) : Part :=
  if p.host.inflight.any (fun e => e.hdr == h && e.begun) then complete p h st aux result else p

/-- A load is refused or cut off (R205, R217, R384): reported, and completed or, from the configuration port, reported
by event source 213. -/
def refuseLoad (p : Part) (hdr : Option Hdr) (region : Option Nat) (f : LoadFail) : Part :=
  let p := reportLoad p hdr.isNone region f
  match hdr with
  | some h => endLoad p h f.status (loadResult p) (loadDetail p + loadSection p * 2 ^ 32)
  | none => raise p 213 [(4, loadResult p), (4, loadDetail p), (4, loadSection p)]

/-- A load succeeds (R203, R211, R217, R384): completed with OK and the release tick, or event source 212 and the
release of CFG_DONE. -/
def acceptLoad (p : Part) (hdr : Option Hdr) (region : Option Nat) (u : Nat) : Part :=
  let p := reportLoad p hdr.isNone region ⟨0, .ok, 0, 0, none⟩
  match hdr with
  | some h => endLoad p h .ok (loadResult p) u
  | none => raise { p with loader := { p.loader with doneLow := false } } 212 [(2, fld p CFG_STREAM_ID)]

/-- The region that a load names. -/
def jobRegion (job : LoadJob) : Option Nat :=
  if (match job.hdr with | some _ => job.region | none => hdrPartial job.image) then some (hdrRegion job.image % 8) else none

/-! ### Taking up a load -/

/-- A host load begins (R200 to R202, R472): the state at its pickup, u0, its length, its window; then it is fetched, first
come first (DESIGN CHOICE, log 32). -/
def takeLoad (p : Part) (i : Instr) (h : Hdr) (region : Bool) (img : List Byte) : Part :=
  let v := pickupTick p h
  let len := h.par 0x10 8
  let u0 := if region then h.par 0x18 8 else 0
  let ok := if region then (foundOf p h).regions.contains (hdrRegion img) else (foundOf p h).blankOk
  if !ok then completeSt p h .errState
  else if u0 ≠ 0 ∧ (u0 < v ∨ v + 2 ^ 24 < u0) then completeSt p h .errParam
  else if 2 ^ 30 < len then refuseLoad p (some h) (if region then some (hdrRegion img % 8) else none) (paramFail 3 0 none)
  else withBuffer p i h .read (h.par 0x08 8) len fun p =>
    { p with loader := { p.loader with jobs := p.loader.jobs ++ [⟨some h, region, u0, fitBytes len img, false⟩] } }

/-- LOAD_BLANK (R200 to R202, R472). -/
def loadBlank (h : Hdr) (img : List Byte) (p : Part) : Part :=
  beginUnit p (.loadBlank h img) h 0x02 1 fun p => takeLoad p (.loadBlank h img) h false img

/-- LOAD_REGION (R200 to R202, R210, R472). -/
def loadRegion (h : Hdr) (img : List Byte) (p : Part) : Part :=
  beginUnit p (.loadRegion h img) h 0x03 1 fun p => takeLoad p (.loadRegion h img) h true img

/-! ### Checks -/

/-- Is the loader writing the fabric, or about to? -/
def loaderWriting (p : Part) : Bool :=
  p.loader.writing.isSome || p.regions.any (fun r => r.coming.isSome && (r.state == .loading || r.waits))

/-- Check 13 (R191, R213). -/
def regionFail (p : Part) (u0 : Nat) (img : List Byte) : Option LoadFail :=
  if hdrPartial img then
    (regionChecks p (hdrRegion img) u0 (imageInfo img)).map (fun r => admFail 13 0x0B r.1 none)
  else none

/-- The state test after the checks (R472, R217). -/
def stateFail (p : Part) (img : List Byte) : Option LoadFail :=
  let bad (st : Status) : Option LoadFail := some ⟨0, st, 0, 0, none⟩
  if partHalted p then bad .errHalted
  else if hdrPartial img then
    if p.tk.fab = .halted then bad .errHalted
    else if regionAllowed p && (regionAt p (hdrRegion img)).state == .live then none else bad .errState
  else if blankAllowed p then none else bad .errState

/-- Change a region. -/
def mapRegion (p : Part) (k : Nat) (f : Region → Region) : Part :=
  { p with regions := p.regions.set k (f (regionAt p k)) }

/-- The bus slots and TR of a range of virtual columns become zero (R49). -/
def zeroBus (p : Part) (inside : Nat → Bool) : Part :=
  { p with sp := { p.sp with bus := smapFilter (fun k => !inside (k / 2048)) p.sp.bus,
                             tr := smapFilter (fun k => !inside (k / 2048)) p.sp.tr } }

/-- A full blank has passed (R203, R419): the fabric enters LOADED, which ends a fabric halt, and the write begins. SVN_HALT,
the halt in effect, then shows none (DEDUCED, log 24). -/
def beginFull (p : Part) (job : LoadJob) : Part :=
  let cols := (placement p (hdrC job.image)).getD []
  let p := setFld (setFld (zeroBus p (fun _ => true)) SVN_HALT_KIND 0) SVN_HALT_CLASS 0
  { p with
    tk := { p.tk with fab := .loaded, halt := none, fabHaltFrom := none }
    loader := { p.loader with writing := some ⟨job, imageInfo job.image, imageWords job.image, cols⟩ } }

/-- A partial blank has passed (R180, R206): ADMITTED becomes LOADED, and its region enters LOADING, while RUNNING at
the next boundary. -/
def beginRegion (p : Part) (job : LoadJob) : Part :=
  let k := hdrRegion job.image
  let p := if p.tk.fab = .admitted then setFab p .loaded else p
  mapRegion p k (fun r => { r with
    state := if running p then r.state else .loading
    waits := running p
    u0 := job.u0
    release := none
    cmd := job.hdr
    coming := some (imageInfo job.image)
    imgs := imageWords job.image })

/-- Write bytes at an offset in the load area (R200, R320). -/
def stageAt (p : Part) (off : Nat) (b : List Byte) : Part × Status := sealWrite p .loader (rgnBase p 0 * mib + off) b

/-- Stage the image of a host load in the load area, and read the staged copy (R200, R320); the segments of a stream
have staged theirs (R216). -/
def stageImage (p : Part) (job : LoadJob) : Part × Status × List Byte :=
  match if job.hdr.isSome then stageAt p 0 job.image else (p, .ok) with
  | (p, .ok) => sealRead p .loader (rgnBase p 0 * mib) job.image.length
  | (p, st) => (p, st, [])

/-- LOAD_CHECK (R162, R200, R472): staging of the first load ends, and its checks run (DESIGN CHOICE, log 33);
they wait for the self-tests of the fabric (R433). -/
def loadCheck (p : Part) : Part :=
  match p.loader.jobs with
  | [] => p
  | job :: rest =>
    if loaderWriting p || unitTesting p 1 then p
    else
      let p := { p with loader := { p.loader with jobs := rest } }
      let refuse (p : Part) (f : LoadFail) : Part := refuseLoad p job.hdr (jobRegion job) f
      match stageImage p job with
      | (p, .ok, img) =>
        let job := { job with image := img }
        let fail := (imageFail p job).orElse fun _ => (regionFail p job.u0 job.image).orElse fun _ => stateFail p job.image
        match fail with
        | some f => refuse p f
        | none => if hdrPartial job.image then beginRegion p job else beginFull p job
      | (p, st, _) => refuse p ⟨0, st, 0, 0, none⟩

/-! ### Writing -/

/-- Words as clean stored words. -/
def eccWords (ws : List (Nat × Word)) : List (Nat × EccWord) := ws.map (fun e => (e.1, cleanWord e.2))

/-- The memories of a range of virtual columns take an image (R48, R134): everything else there becomes zero. -/
def writeImages (p : Part) (inside : Nat → Bool) (w : BlankImages) : Part :=
  let put (m : SMap EccWord) (span : Nat) (ws : List (Nat × Word)) : SMap EccWord :=
    smapSetMany (fun _ => EccWord.zero) (smapFilter (fun k => !inside (k / span)) m) (eccWords ws)
  let queues (m : SMap (List Nat)) (span : Nat) : SMap (List Nat) := smapFilter (fun k => !inside (k / span)) m
  { p with sp := { p.sp with
      imem := put p.sp.imem 1048576 w.imem
      dmem := put p.sp.dmem 524288 w.dmem
      table := put p.sp.table 524288 w.table
      pend := smapFilter (fun k => !inside (k / 2048)) p.sp.pend
      dQueue := queues p.sp.dQueue 2048
      iQueue := queues p.sp.iQueue 2048
      tQueue := queues p.sp.tQueue 32 } }

/-- The slot tables of a range of virtual columns (R118). -/
def putSlots (m : SMap SlotEntry) (inside : Nat → Bool) (new : List (Nat × SlotEntry)) : SMap SlotEntry :=
  smapSetMany (fun _ => SlotEntry.none) (smapFilter (fun k => !inside (k / 262144)) m) new

/-- LOAD_WRITE_END (R203, R206): the write of a full blank ends. -/
def loadWriteEnd (p : Part) : Part :=
  match p.loader.writing with
  | none => p
  | some w =>
    let p := writeImages p (fun _ => true) w.imgs
    let regions := (List.range 8).map (fun k =>
      { Region.empty with state := if k < w.info.regions.length then .live else .empty })
    let p := { p with
      gr := { p.gr with slots := putSlots [] (fun _ => true) w.imgs.slots, slotsNew := [] }
      blank := some w.info
      cols := w.cols
      regions := regions
      loader := { p.loader with writing := none } }
    acceptLoad p w.job.hdr none 0

/-- S2 (R42): the regions that are LIVE. -/
def regionBits (p : Part) : Word := BitVec.ofNat 64 (bitMap 8 (fun k => (regionAt p k).state == .live))

/-- S2 takes its value for the tick that begins (R207, R55). -/
def latchS2 (p : Part) : Part := { p with gr := { p.gr with status := { p.gr.status with s2 := regionBits p } } }

/-- ENTER_LOADING (R206, R207): at the boundary, regions whose partial blank has passed enter LOADING, unless a halt
takes effect at that boundary (R212). -/
def enterLoading (p : Part) : Part :=
  if p.tk.fab = .halted ∨ partHalted p = true ∨ p.tk.haltDue.isSome = true then p
  else
    latchS2 { p with regions := p.regions.map (fun (r : Region) =>
      if r.waits then { r with state := RegionState.loading, waits := false } else r) }

/-- The columns of a partial blank. -/
def inBlankCols (q : BlankInfo) (col : Nat) : Bool := decide (q.firstCol ≤ col) && decide (col ≤ q.lastCol)

/-- A region becomes LIVE (R55, R157, R211): with its release tick, or without one. A load of the configuration port
that was HELD has ended before, with its write (R217). -/
def becomeLive (p : Part) (k : Nat) (u : Option Nat) : Part :=
  let r := regionAt p k
  match r.coming with
  | none => p
  | some q =>
    let before := probeSlots p
    let p := zeroBus p (inBlankCols q)
    let p := { p with
      gr := { p.gr with slots := putSlots p.gr.slots (inBlankCols q) r.imgs.slots,
                        slotsNew := smapFilter (fun key => !inBlankCols q (key / 262144)) p.gr.slotsNew }
      blank := p.blank.map (fun b => { b with
        decl := declAfter p q, runs := b.runs.filter (fun t => !inBlankCols q (t.1 / 32)) ++ q.runs }) }
    let p := mapRegion p k (fun r => { r with state := .live, release := none, relTick := u, cmd := none, coming := none,
                                              imgs := BlankImages.none, waits := false, energy := q.energyNj })
    let n := u.getD 0
    let p := setFld64I p CFG_REL_TICK_L CFG_REL_TICK_H k n
    let p := if probeSlots p = before then p else renumber p n
    let p := raise p (48 + k) [(1, k), (8, n)]
    latchS2 (if r.state = .held ∧ r.cmd = none then p else acceptLoad p r.cmd (some k) n)

/-- ENTER_HELD (R206, R208 to R211): the write and read-back of a region end; a load of the configuration port ends with
them (R217). -/
def enterHeld (k : Fin 8) (p : Part) : Part :=
  let r := regionAt p k.val
  match r.coming with
  | none => p
  | some q =>
    if r.state ≠ .loading ∨ p.tk.fab = .halted ∨ partHalted p = true then p
    else
      let p := writeImages p (inBlankCols q) r.imgs
      let p := { p with gr := { p.gr with slotsNew := putSlots p.gr.slotsNew (inBlankCols q) r.imgs.slots } }
      if running p then
        let p := mapRegion p k.val (fun r =>
          { r with state := .held, release := some (max (p.tk.tick + fld p CFG_REL_LEAD) r.u0) })
        if r.cmd = none then acceptLoad p none (some k.val) 0 else p
      else becomeLive p k.val none

/-- REGION_RELEASE (R55, R211): the release boundary of the regions that are HELD. -/
def regionRelease (p : Part) : Part :=
  if !executing p then p
  else (List.range 8).foldl (fun p k =>
    let r := regionAt p k
    match r.state, r.release with
    | .held, some u => if u ≤ p.tk.tick then becomeLive p k (some p.tk.tick) else p
    | _, _ => p) p

/-- Regions that are HELD become LIVE as the fabric enters STOPPED (R206, R211). -/
def heldToLive (p : Part) : Part :=
  (List.range 8).foldl (fun p k => if (regionAt p k).state = .held then becomeLive p k none else p) p

/-- A halt takes effect (R212, R472): regions LOADING, HELD or waiting end their load with ERR_HALTED; a part halt ends
every load (R416). A load of the configuration port ended as its region became HELD. A region halted while LOADING keeps
its memories as they were, for they are written as one at ENTER_HELD (DESIGN CHOICE, log 33). -/
def haltLoads (p : Part) : Part :=
  let cut (p : Part) (k : Nat) : Part :=
    let r := regionAt p k
    if r.coming.isNone then p
    else
      let p := mapRegion p k (fun r => { r with coming := none, cmd := none, release := none, waits := false,
                                                imgs := BlankImages.none })
      if r.state = .held ∧ r.cmd = none then p else refuseLoad p r.cmd (some k) ⟨0, .errHalted, 0, 0, none⟩
  let p := (List.range 8).foldl cut p
  if partHalted p then
    let jobs := p.loader.jobs ++ (p.loader.writing.map (·.job)).toList
    jobs.foldl (fun p j => refuseLoad p j.hdr (jobRegion j) ⟨0, .errHalted, 0, 0, none⟩)
      { p with loader := { p.loader with jobs := [], writing := none } }
  else p

/-! ### The configuration port -/

/-- A segment as the part takes it (R214): whether it is good, KIND, SEQ, STREAM_ID, ADDR, MASK, OFFSET and the
payload. -/
structure SegHead where
  good : Bool
  kind : Nat
  seq : Nat
  id : Nat
  addr : Nat
  mask : Nat
  off : Nat
  payload : List Byte
  deriving DecidableEq, Repr

/-- The bytes of beats (R8, R214). -/
def beatBytes (beats : List (BitVec 16)) : List Byte := beats.flatMap (fun b => leBytes 2 b.toNat)

/-- Are the fields of a segment header in their ranges (R214)? One that is not counts as a bad CRC (DESIGN CHOICE,
log 34). -/
def segFieldsOk (kind fmt seq off len : Nat) : Bool :=
  fmt == 1 && off % 8 == 0 &&
  (match kind with
   | 1 => seq == 0 && off == 0 && len == 1
   | 2 => decide (1 ≤ len) && decide (len ≤ 4096)
   | 3 => off == 0 && len == 0
   | 4 => off == 0 && len == 0
   | _ => false)

/-- Read a segment from its beats (R214): SYNC, the fields of the header, the payload, and the trailer CRC-32. -/
def readSegment (beats : List (BitVec 16)) : SegHead :=
  let b := beatBytes beats
  let len := leAt b 20 2
  let n := 28 + 8 * len
  let kind := leAt b 2 1
  let rsv := decide (leAt b 10 2 < 4096) && decide (leAt b 12 2 < 4096) && zeroAt b 22 6
  { good := leAt b 0 2 == 0xC5F0 && b.length == n + 4 && leAt b n 4 == crc32 (b.take n) && rsv &&
      segFieldsOk kind (leAt b 3 1) (leAt b 4 4) (leAt b 14 6) len
    kind := kind
    seq := leAt b 4 4
    id := leAt b 8 2
    addr := leAt b 10 2
    mask := leAt b 12 2
    off := leAt b 14 6
    payload := sliceBytes b 28 (8 * len) }

/-- Does the part act on segments (R216)? -/
def portActs (p : Part) : Bool := p.loader.selected && fldOn p CFG_PORT_EN

/-- Does a segment match the part's configuration address (R215)? -/
def segMatches (p : Part) (s : SegHead) : Bool := (cfgAddress p) &&& s.mask == s.addr &&& s.mask

/-- Is the loader busy for the configuration port (R201, R202)? Only host loads
make it so (DESIGN CHOICE, log 34). -/
def portBusy (p : Part) : Bool :=
  !hbmReady p || p.loader.jobs.any (fun j => j.hdr.isSome) ||
  (match p.loader.writing with | some w => w.job.hdr.isSome | none => false) ||
  p.regions.any (fun r => r.cmd.isSome && (r.state == .loading || r.waits))

/-- NACK a segment for a cause, bit `c` of CFG_NACK_CAUSE (R218, R219). -/
def nackSegment (p : Part) (c : Nat) : Part :=
  let p := { p with loader := { p.loader with nackLow := true } }
  let p := bumpFld (bumpFld p CFG_RETRY_SEG 1) CFG_NACKS 1
  let p := maxFldI p CFG_RETRY_MAX 0 (fld p CFG_RETRY_SEG)
  let p := setFld p (match c with | 0 => CFG_CAUSE_CRC | 1 => CFG_CAUSE_GAP | _ => CFG_CAUSE_BUSY) 1
  let t := fld p CFG_THRESH
  if t ≠ 0 ∧ t ≤ fld p CFG_RETRY_SEG ∧ p.loader.evt214 = false then
    raise { p with loader := { p.loader with evt214 := true } } 214 [(4, fld p CFG_SEQ_EXPECT), (2, fld p CFG_RETRY_SEG)]
  else p

/-- The part expects another SEQ (R216, R219). -/
def expectSeq (p : Part) (n : Nat) : Part :=
  setFld (setFld { p with loader := { p.loader with evt214 := false } } CFG_SEQ_EXPECT (n % 2 ^ 32)) CFG_RETRY_SEG 0

/-- Abandon an active stream (R216, R220): event source 215 with its cause. -/
def abandonStream (p : Part) (cause : Nat) : Part :=
  if p.loader.stream.isSome then
    raise { p with loader := { p.loader with stream := none } } 215 [(2, fld p CFG_STREAM_ID), (1, cause)]
  else p

/-- The first rows of R216, which every segment meets; CFG_NACK_N is released at its first beat (R218). After a
deselection the part acts on nothing before a START (R220); a good segment of another KIND than the row's is not that
row's. -/
def segment0 (kind : Nat) (s : SegHead) (p : Part) (act : Part → Part) : Part :=
  let p := { p with loader := { p.loader with nackLow := false } }
  let awaits := p.loader.awaits && !(s.good && s.kind == 1)
  if !portActs p || awaits then p
  else if !s.good then nackSegment p 0
  else if s.kind ≠ kind then p
  else
    let p := { p with loader := { p.loader with awaits := false } }
    if portBusy p then nackSegment p 2 else act p

/-- The rows of R216 for a segment of a stream: discarded without one, a repeat, a gap; otherwise `act`. -/
def streamSegment (kind : Nat) (s : SegHead) (p : Part) (act : Part → CfgStream → Part) : Part :=
  segment0 kind s p fun p =>
    match p.loader.stream with
    | none => p
    | some st =>
      if s.seq < fld p CFG_SEQ_EXPECT then bumpFld p CFG_REPEATS 1
      else if fld p CFG_SEQ_EXPECT < s.seq then nackSegment { p with loader := { p.loader with gap := true } } 1
      else act p st

/-- START_SEGMENT (R216): its payload is the image length. -/
def startSegment (beats : List (BitVec 16)) (p : Part) : Part :=
  let s := readSegment beats
  let len := leNat s.payload
  segment0 1 s p fun p =>
    let p := abandonStream p 0
    if segMatches p s then
      let p := expectSeq (setFld (setFld p CFG_STREAM_ID s.id) CFG_RETRY_MAX 0) 1
      { p with loader := { p.loader with stream := some ⟨len, [], false⟩, gap := false, doneLow := true } }
    else { p with loader := { p.loader with doneLow := false } }

/-- DATA_SEGMENT (R200, R216): a payload that is kept is written at OFFSET in the load area. -/
def dataSegment (beats : List (BitVec 16)) (p : Part) : Part :=
  let s := readSegment beats
  streamSegment 2 s p fun p st =>
    let past := decide (st.len < s.off + s.payload.length)
    let keep := !past && decide (s.off + s.payload.length ≤ 2 ^ 30)
    let p := if segMatches p s && keep then (stageAt p s.off s.payload).1 else p
    let p := expectSeq p (s.seq + 1)
    if !segMatches p s then p
    else
      let bytes := if keep then smapSetMany (fun _ => 0) st.bytes (s.payload.zipIdx.map (fun e => (s.off + e.2, e.1))) else st.bytes
      { p with loader := { p.loader with stream := some ⟨st.len, bytes, st.overLen || past⟩ } }

/-- The bytes of a stream from position `lo` on: those that no segment wrote are zero (R216). -/
def streamBytes : Nat → SMap Byte → List Byte
  | _, [] => []
  | lo, (a, b) :: m => List.replicate (a - lo) 0 ++ b :: streamBytes (a + 1) m

/-- The stretches of a stream's image, from `lo` up to `hi`, that no segment wrote: position and length. -/
def streamGaps (hi : Nat) : Nat → SMap Byte → List (Nat × Nat)
  | lo, [] => if lo < hi then [(lo, hi - lo)] else []
  | lo, (a, _) :: m => (if lo < a then [(lo, a - lo)] else []) ++ streamGaps hi (a + 1) m

/-- END_SEGMENT (R216, R217): the image is complete, what no segment wrote of it is zero in the load area, and it waits
for its checks. -/
def endSegment (beats : List (BitVec 16)) (p : Part) : Part :=
  streamSegment 3 (readSegment beats) p fun p st =>
    let gaps := streamGaps (min st.len (2 ^ 30)) 0 st.bytes
    let p := gaps.foldl (fun p g => (stageAt p g.1 (List.replicate g.2 0)).1) p
    let img := fitBytes (min st.len (2 ^ 30)) (streamBytes 0 st.bytes)
    { p with loader := { p.loader with stream := none, jobs := p.loader.jobs ++ [⟨none, false, 0, img, st.overLen⟩] } }

/-- ABORT_SEGMENT (R216). -/
def abortSegment (beats : List (BitVec 16)) (p : Part) : Part :=
  streamSegment 4 (readSegment beats) p fun p _ =>
    let p := abandonStream p 1
    { p with loader := { p.loader with doneLow := false } }

/-- CFG_SEL_N_HIGH (R220): the stream and a staged image are discarded, and both pins released. -/
def cfgSelHigh (p : Part) : Part :=
  if !p.loader.selected then p
  else
    let staged := p.loader.stream.isNone && p.loader.jobs.any (fun j => j.hdr.isNone)
    let p := abandonStream p 2
    let p := if staged then raise p 215 [(2, fld p CFG_STREAM_ID), (1, 2)] else p
    { p with loader := { p.loader with selected := false, nackLow := false, doneLow := false, awaits := true,
                                       jobs := p.loader.jobs.filter (fun j => j.hdr.isSome) } }

/-- CFG_SEL_N_LOW (R216, R220). -/
def cfgSelLow (p : Part) : Part := { p with loader := { p.loader with selected := true } }

end Sys2Proof.Machine
end

