-- ==== Sys2Proof/Machine/Net.lean ====
section
/-!
DEFINITION. The packets of the service network and its central routers (R397 to R403): packet format, stored flits,
virtual channels with their buffers and credits, arbitration, and the source route and X-then-Y route.
-/
namespace Sys2Proof.Machine

/-! ### Packets -/

/-- Fields side by side from bit 0, each given as width and value. -/
def packBits : List (Nat × Nat) → Nat
  | [] => 0
  | (w, v) :: l => v % 2 ^ w + 2 ^ w * packBits l

/-- The fields of given widths that a number holds from bit 0. -/
def cutBits : List Nat → Nat → List Nat
  | [], _ => []
  | w :: l, x => x % 2 ^ w :: cutBits l (x / 2 ^ w)

/-- The 256 bits of a header (R398). -/
def netHeaderBits (h : NetHeader) : Nat :=
  packBits [(2, h.cls), (6, h.dst), (6, h.src), (4, h.op), (12, h.tag), (7, h.len), (8, h.status), (64, h.addr),
            (20, h.route)]

/-- The header that 256 bits spell; none with a reserved bit set (R16, R398). -/
def readHeader (x : Nat) : Option NetHeader :=
  match cutBits [2, 6, 6, 4, 12, 7, 8, 64, 20, 127] x with
  | [cls, dst, src, op, tag, len, status, addr, route, rsv] =>
    if rsv = 0 then some ⟨cls, dst, src, op, tag, len, status, addr, route⟩ else none
  | _ => none

/-- A flit without upset bits. -/
def flitOf (x : Nat) : Flit := ⟨BitVec.ofNat 128 x, 0⟩

/-- Data flits for bytes, 16 in each. -/
def dataFlits : Nat → List Byte → List Flit
  | 0, _ => []
  | n + 1, b => if b.isEmpty then [] else flitOf (leNat (b.take 16)) :: dataFlits n (b.drop 16)

/-- The flits of a packet: the header's two, then the data. -/
def packetFlits (h : NetHeader) (data : List Flit) : List Flit :=
  flitOf (netHeaderBits h % 2 ^ 128) :: flitOf (netHeaderBits h / 2 ^ 128) :: data

/-- The stored form of the halves of a flit: 64 bits with 8 check bits each (R398). -/
def flitHalves (f : Flit) : List EccWord :=
  [⟨f.bits.setWidth 64, f.flips.setWidth 72⟩, ⟨(f.bits >>> 64).setWidth 64, (f.flips >>> 72).setWidth 72⟩]

/-- Does a flit have an uncorrectable error? -/
def flitPoisoned (f : Flit) : Bool := (flitHalves f).any (fun c => eccKind c == EccKind.double)

/-- The corrected errors of flits (R408). -/
def flitErrors (fs : List Flit) : Nat :=
  ((fs.flatMap flitHalves).filter (fun c => match eccKind c with | .corrected _ => true | _ => false)).length

/-- The data of a flit after correction, as bytes (R8). -/
def flitBytes (f : Flit) : List Byte := (flitHalves f).flatMap (fun c => leBytes 8 (eccData c).toNat)

/-- The packet that a unit's flits spell (R398): its header and as many data flits as LEN says, 64 at most. -/
def readPacket (flits : List Flit) : Option NetHeader :=
  match flits with
  | a :: b :: data =>
    match readHeader (a.bits.toNat + b.bits.toNat * 2 ^ 128) with
    | some h => if h.len = data.length ∧ h.len ≤ 64 then some h else none
    | none => none
  | _ => none

/-! ### Routes -/

/-- One hop from a central router: 0 north, 1 east, 2 south, 3 west (R401); none when it leaves the mesh. -/
def hopFrom (r hop : Nat) : Option Nat :=
  match hop with
  | 0 => if 4 ≤ r then some (r - 4) else none
  | 1 => if r % 4 < 3 then some (r + 1) else none
  | 2 => if r < 4 then some (r + 4) else none
  | 3 => if 0 < r % 4 then some (r - 1) else none
  | _ => none

/-- The router that a list of hops leads to; none when some hop leaves the mesh. -/
def hopsEnd (r : Nat) : List Nat → Option Nat
  | [] => some r
  | h :: l => match hopFrom r h with
    | some r' => hopsEnd r' l
    | none => none

/-- The turn rule on the order of hops (R402): every west hop before every other, and no hop reverses the one before
it. -/
def turnsOk : List Nat → Bool
  | [] => true
  | [_] => true
  | a :: b :: l => (b != 3 || a == 3) && decide ((a + 2) % 4 ≠ b) && turnsOk (b :: l)

/-- The hops of a route register value: hop k in bits [2k + 1 : 2k], as many as SVN_HOP_COUNT says (R401). -/
def routeHops (v : Nat) : List Nat := (List.range (natBits v 16 4)).map (fun k => natBits v (2 * k) 2)

/-- Does a route meet R402 for NI `n` and destination router `d`? A reserved identity joins no router. -/
def routeOk (n d v : Nat) : Bool :=
  match niRouter n with
  | none => false
  | some r => decide (natBits v 16 4 ≤ 8) && turnsOk (routeHops v) && (hopsEnd r (routeHops v) == some d)

/-- Is a virtual channel of the control class (R399)? -/
def controlVc (cls : Nat) : Bool := decide (cls < 2)

/-- The central router of an NI; 0 for a reserved identity, which sends and takes no packet. -/
def routerOf (ni : Nat) : Nat := (niRouter ni).getD 0

/-- The source route that an NI's table gives for a router (R401). -/
def tableRoute (p : Part) (ni router : Nat) : Nat := (regAt p (SVN_HOPS.at (ni * 8 + router))).toNat % 2 ^ 20

/-- The hops of a packet: its source route in the control class, X then Y in the data class (R401, R403). -/
def packetHops (h : NetHeader) : List Nat :=
  if controlVc h.cls then routeHops h.route else xyHops (routerOf h.src) (routerOf h.dst)

/-- The header with the ROUTE that the source NI gives it (R398, R401). -/
def withRoute (p : Part) (h : NetHeader) : NetHeader :=
  { h with route := if controlVc h.cls then tableRoute p h.src (routerOf h.dst) else 0 }

/-! ### The routers and bridges

Input port 0 to 3 of a router comes from its neighbour north, east, south, west; port 4 + ni from an NI. Outputs are
numbered alike. The bridge of die d is router 8 + d: its input port 0 comes from central router d and port 1 from the die, its
output 0 goes to that router and output 4 + ni into the die (R397, R399). -/

/-- A queue of flits. -/
def flitQueue (m : SMap (List NetFlit)) (k : Nat) : List NetFlit := smapGet (fun _ => []) m k

/-- The key of an input buffer, or of an output's lock: router, port, virtual channel. -/
def portKey (router port vc : Nat) : Nat := (router * 64 + port) * 4 + vc

/-- The input port at which an NI's packets enter: that of its router, or of its bridge. -/
def entryPort (ni : Nat) : Nat × Nat := if 4 ≤ ni ∧ ni < 8 then (4 + ni, 1) else (routerOf ni, 4 + ni)

/-- Where a link from a router's output ends: a router or bridge and its input port; none at an NI. -/
def linkEnd (router out : Nat) : Option (Nat × Nat) :=
  if 8 ≤ router then (if out = 0 then some (router - 8, router) else none)
  else if out < 4 then (hopFrom router out).map (fun r => (r, (out + 2) % 4))
  else if 8 ≤ out ∧ out < 12 then some (out, 0) else none

/-- Does a buffer stand at the end of a link that an asynchronous bridge crosses (R411)? -/
def bridgeLink (key : Nat) : Bool :=
  if 8 ≤ key / 256 then key / 4 % 64 == 0 else decide (8 ≤ key / 4 % 64) && decide (key / 4 % 64 < 12)

/-- The credits that the sender of a link has left on a virtual channel (R399, R411): of 8, less the flits in the buffer and
the credits on their way back. -/
def linkCredits (n : NetState) (key : Nat) : Nat :=
  8 - (flitQueue n.buffers key).length - (smapGet (fun _ => []) n.returning key).length

/-- The front flit leaves a buffer, and its credit goes back: at once, or over a bridge after at most 6 cycles, a number that
the manual leaves open (R411) (DESIGN CHOICE, log 60). -/
def leaveBuffer (n : NetState) (key : Nat) : NetState :=
  let n := { n with buffers := smapSet (fun _ => []) n.buffers key ((flitQueue n.buffers key).drop 1) }
  if bridgeLink key then
    let back := smapGet (fun _ => []) n.returning key ++ [n.cycle + Config.bridgeCycles n.cycle % 7]
    { n with returning := smapSet (fun _ => []) n.returning key back }
  else n

/-- The credits that have crossed a bridge by now are with their sender. -/
def creditsArrive (n : NetState) : NetState :=
  let out := n.returning.map (fun e => (e.1, e.2.filter (fun c => decide (n.cycle < c))))
  { n with returning := out.filter (fun e => !e.2.isEmpty) }

/-- Add to a monitor's count. -/
def bumpCount (n : NetState) (k d : Nat) : NetState :=
  { n with counts := smapSet (fun _ => 0) n.counts k (smapGet (fun _ => 0) n.counts k + d) }

/-- A packet goes to its NI's entry queue. -/
def netEnter (n : NetState) (pk : NetPacket) : NetState :=
  let k := pk.head.src * 4 + pk.head.cls
  let count := pk.flits.length
  let fs := pk.flits.zipIdx.map (fun (f, i) =>
    NetFlit.mk f n.next (i == 0) (i + 1 == count) (if i = 0 then packetHops pk.head else []) n.cycle)
  { n with entry := smapSet (fun _ => []) n.entry k (flitQueue n.entry k ++ fs)
           packets := n.packets ++ [(n.next, pk)], next := n.next + 1 }

/-- Flits enter the routers from the NIs while there is room (R399). -/
def netFromNis (n : NetState) : NetState :=
  n.entry.foldl (fun n e =>
    match e.2 with
    | [] => n
    | f :: rest =>
      let at0 := entryPort (e.1 / 4)
      let k := portKey at0.1 at0.2 (e.1 % 4)
      if 0 < linkCredits n k then
        { n with entry := smapSet (fun _ => []) n.entry e.1 rest
                 buffers := smapSet (fun _ => []) n.buffers k (flitQueue n.buffers k ++ [{ f with since := n.cycle }]) }
      else n) n

/-- The output that a header in a buffer wants: in a bridge from its die the router, else its next hop, or the NI that it
is for. -/
def headerOut (n : NetState) (key : Nat) (f : NetFlit) : Option Nat :=
  if 8 ≤ key / 256 ∧ key / 4 % 64 = 1 then some 0
  else match f.hops with
  | h :: _ => some h
  | [] => (n.packets.find? (fun e => e.1 == f.pkt)).map (fun e => 4 + e.2.head.dst)

/-- The output that the flit at the front of an input buffer goes to: a header's own, or the one its packet holds. -/
def frontOut (n : NetState) (key : Nat) (f : NetFlit) : Option Nat :=
  if f.first then headerOut n key f
  else (n.locks.find? (fun e => e.1 / 256 == key / 256 && e.1 % 4 == key % 4 && e.2 == some (key / 4 % 64))).map
    (fun e => e.1 / 4 % 64)

/-- The flit that may move from an input port in this cycle. -/
def frontFlit (n : NetState) (router port vc : Nat) : Option NetFlit :=
  match flitQueue n.buffers (portKey router port vc) with
  | f :: _ => if f.since < n.cycle then some f else none
  | [] => none

/-- The oldest waiting header for an output on a virtual channel, by arrival at the router; of equals the lowest port
(R400) (DESIGN CHOICE, log 60). -/
def oldestHeader (n : NetState) (router out vc : Nat) : Option Nat :=
  let ready := n.buffers.filterMap (fun e =>
    match frontFlit n router (e.1 / 4 % 64) vc with
    | some f => if e.1 / 256 = router ∧ e.1 % 4 = vc ∧ f.first = true ∧ headerOut n e.1 f = some out then
        some (f.since, e.1 / 4 % 64) else none
    | none => none)
  (ready.foldl (fun (best : Option (Nat × Nat)) c =>
    match best with
    | some b => if c.1 < b.1 then some c else some b
    | none => some c) none).map (·.2)

/-- The input port whose flit an output would take on a virtual channel: that of the packet that holds the output, else
that of the oldest waiting header; none without a credit downstream (R398 to R400). -/
def outputTakes (n : NetState) (router out vc : Nat) : Option Nat :=
  let room : Bool := match linkEnd router out with
    | some (r, port) => decide (0 < linkCredits n (portKey r port vc))
    | none => true
  if !room then none
  else match smapGet (fun _ => none) n.locks (portKey router out vc) with
    | some port => if (frontFlit n router port vc).isSome then some port else none
    | none => oldestHeader n router out vc

/-- A flit crosses a router to an output: to the buffer at the end of the link, or out at the NI. The packet holds the output
on its virtual channel until its last flit (R398), and the router's monitor counts the flit (R311). The packets that are whole
at their NI are answered. -/
def netMove (n : NetState) (router out vc port : Nat) (f : NetFlit) : NetState × List NetPacket :=
  let k := portKey router port vc
  let n := bumpCount (leaveBuffer n k) (router * 8 + vc) 1
  let n := { n with locks := smapSet (fun _ => none) n.locks (portKey router out vc) (if f.last then none else some port)
                    served := smapSet (fun _ => 3) n.served (router * 64 + out) vc }
  match linkEnd router out with
  | some (r, port) =>
    let k := portKey r port vc
    let f := { f with hops := if router < 8 then f.hops.drop 1 else f.hops, since := n.cycle }
    ({ n with buffers := smapSet (fun _ => []) n.buffers k (flitQueue n.buffers k ++ [f]) }, [])
  | none =>
    let k := (out - 4) * 4 + vc
    let got := smapGet (fun _ => []) n.leaving k ++ [f.flit]
    if f.last then
      let whole := (n.packets.filter (fun e => e.1 == f.pkt)).map (fun e => { e.2 with flits := got })
      ({ n with leaving := smapSet (fun _ => []) n.leaving k [], packets := n.packets.filter (fun e => e.1 != f.pkt) }, whole)
    else ({ n with leaving := smapSet (fun _ => []) n.leaving k got }, [])

/-- One output in one cycle: it serves its virtual channels in round-robin order (R400). -/
def netOutput (n : NetState) (router out : Nat) : NetState × List NetPacket :=
  let last := smapGet (fun _ => 3) n.served (router * 64 + out)
  let takes := ((List.range 4).map (fun i => (last + 1 + i) % 4)).findSome? (fun vc =>
    (outputTakes n router out vc).bind (fun port => (frontFlit n router port vc).map (fun f => (vc, port, f))))
  match takes with
  | some (vc, port, f) => netMove n router out vc port f
  | none => (n, [])

/-- The outputs for which a flit waits at the front of some buffer, as router and output. -/
def wantedOuts (n : NetState) : List (Nat × Nat) :=
  (n.buffers.filterMap (fun e =>
    match e.2 with
    | f :: _ => (frontOut n e.1 f).map (fun o => (e.1 / 256, o))
    | [] => none)).eraseDups

/-- The monitors count the cycle as stalled on each virtual channel of which a flit stood at the front of a buffer of their
router and has not moved (R311) (DESIGN CHOICE, log 60). -/
def countStalls (before after : NetState) : NetState :=
  let stuck := before.buffers.filterMap (fun e =>
    match e.2 with
    | f :: _ => if f.since < before.cycle ∧ (flitQueue after.buffers e.1).head? = some f then
        some (e.1 / 256 * 8 + 4 + e.1 % 4) else none
    | [] => none)
  stuck.eraseDups.foldl (fun n k => bumpCount n k 1) after

/-- One cycle of the network. -/
def netCycle (n : NetState) : NetState × List NetPacket :=
  let n := netFromNis (creditsArrive { n with cycle := n.cycle + 1 })
  let r := (wantedOuts n).foldl (fun r o => let s := netOutput r.1 o.1 o.2; (s.1, r.2 ++ s.2)) (n, [])
  (countStalls n r.1, r.2)

/-- The network runs until it is empty (R409), at most as many cycles as the first argument says (DESIGN CHOICE, log
60). Answers the packets in the order in which they are whole at their NI. -/
def netRun : Nat → NetState → NetState × List NetPacket
  | 0, n => (n, [])
  | k + 1, n =>
    if n.packets.isEmpty then (n, [])
    else
      let r := netCycle n
      let s := netRun k r.1
      (s.1, r.2 ++ s.2)

/-- The packets under way are delivered: each flit needs at most twelve moves, and a cycle in which none moves waits for a
credit, for at most 6 cycles. Credits on their way back then are with their senders before the next row (DESIGN CHOICE,
log 60). -/
def netSettle (p : Part) : Part × List NetPacket :=
  if p.svn.net.packets.isEmpty then (p, [])
  else
    let r := netRun (96 * (p.svn.net.packets.map (fun e => e.2.flits.length)).sum + 96) p.svn.net
    ({ p with svn := { p.svn with net := { r.1 with returning := [] } } }, r.2)

/-- A packet enters the network at its source NI, which gives a control packet its route and keeps the stored bits upset
on the way. -/
def netLaunch (p : Part) (pk : NetPacket) : Part :=
  let h := withRoute p pk.head
  let flips := pk.flits.map (·.flips)
  let bits := packetFlits h (pk.flits.drop 2)
  let pk := { pk with head := h, flits := bits.zip flips |>.map (fun x => { x.1 with flips := x.2 }) }
  { p with svn := { p.svn with net := netEnter p.svn.net pk } }

end Sys2Proof.Machine
end

