-- ==== Sys2Proof/Machine/Svn.lean ====
section
/-!
DEFINITION. The service network (R402 to R411): the route tables, deadlock modes and response room, failed posted writes
and their notices, responses, timeouts and the error log.
-/
namespace Sys2Proof.Machine

/-- ROUTE_WRITE (R402): a write of SVN_NIn_ROUTEd; nothing while the tables are locked (R9). -/
def routeWrite (n : Fin 64) (d : Fin 8) (v : Reg32) (p : Part) : Part :=
  if locked p then p
  else if routeOk n.val d.val v.toNat then
    setFld (setRegAt p (SVN_HOPS.at (n.val * 8 + d.val)) (v &&& 0xFFFFF#32)) SVN_ROUTE_ERR 0
  else setFld p SVN_ROUTE_ERR 1

/-- Is any request that is not posted outstanding (R404)? -/
def svnBusy (p : Part) : Bool := !p.svn.outstanding.isEmpty

/-- SVN_MODE_WRITE (R404): the mode that the write selects waits for the NIs to drain. -/
def svnModeWrite (sink : Bool) (p : Part) : Part :=
  if locked p then p
  else
    let p := setFld p SVN_MODE (if sink then 1 else 0)
    let change := p.svn.sink != sink
    setFld { p with svn := { p.svn with switching := change } } SVN_SWITCHING (if change then 1 else 0)

/-! ### Requests in their initiator's NI -/

/-- Is a packet a request that its source NI sends (R397 to R399): SRC and DST listed identities; a read without data,
a write with one flit of data in the control class and at least one in the data class; STATUS and ROUTE 0 (DESIGN
CHOICE, log 60)? -/
def requestOk (h : NetHeader) : Bool :=
  (niRouter h.src).isSome && (niRouter h.dst).isSome && (h.cls == 0 || h.cls == 2) && decide (h.op ≤ 2) &&
  h.status == 0 && h.route == 0 &&
  (if h.op = 0 then h.len == 0 else if h.cls = 0 then h.len == 1 else decide (1 ≤ h.len))

/-- The flits of the longest response to a request: two of header, and what a read brings (DESIGN CHOICE, log 60). -/
def responseFlits (h : NetHeader) : Nat := if h.op ≠ 0 then 2 else if h.cls = 0 then 3 else 66

/-- The response buffer of an NI, in flits (R404, R411). -/
def niBuffer (ni : Nat) : Nat := 66 + Config.niRoom ni

/-- The requests outstanding of an NI. -/
def outstandingOf (p : Part) (ni : Nat) : List SvnRequest := p.svn.outstanding.filter (fun q => q.ni == ni)

/-- The response room of an NI that outstanding requests hold (R404, R411). -/
def reservedRoom (p : Part) (ni : Nat) : Nat := ((outstandingOf p ni).map (·.room)).sum

/-- Does its class carry a new request? In a part halt the data class carries only those that the sealing engine answers
(R416). -/
def classOpen (p : Part) (h : NetHeader) : Bool := h.cls == 0 || !partHalted p || h.dst == 43 || h.dst == 44

/-- May an NI send a request now? A posted write always may. Another waits while a mode change waits, and while the responses
outstanding leave no room for its own in the NI's response buffer: in mode RESERVE no room can be reserved, in mode SINK the
buffer limits what is outstanding (R404, R411). -/
def maySend (p : Part) (h : NetHeader) : Bool :=
  classOpen p h &&
  (h.op == 2 || (!p.svn.switching && decide (reservedRoom p h.src + responseFlits h ≤ niBuffer h.src)))

/-- Does an NI hold an earlier request that goes before one: of its class, or of any class where both wait for the one
response buffer, which is given by age (R410)? -/
def heldBefore (p : Part) (h : NetHeader) : Bool :=
  p.svn.held.any (fun q => q.head.src == h.src &&
    (q.head.cls == h.cls || (q.head.op != 2 && h.op != 2 && classOpen p q.head)))

/-- A request enters the network; one that is not posted is outstanding from then on, with its response room (R404,
R405). -/
def sendRequest (p : Part) (pk : NetPacket) : Part :=
  let h := pk.head
  let p := netLaunch p pk
  if h.op = 2 then p
  else
    { p with svn := { p.svn with
        outstanding := p.svn.outstanding ++ [⟨h.src, h.tag, h.dst, h.addr, h.cls == 0, h.op == 0, responseFlits h⟩] } }

/-- Send a request, or hold it in its NI behind the earlier ones (R404). -/
def offerRequest (p : Part) (pk : NetPacket) : Part :=
  if maySend p pk.head && !heldBefore p pk.head then sendRequest p pk
  else { p with svn := { p.svn with held := p.svn.held ++ [pk] } }

/-- The held requests are offered again, oldest first. -/
def offerHeld (p : Part) : Part :=
  p.svn.held.foldl offerRequest { p with svn := { p.svn with held := [] } }

/-- The mode changes once no request is outstanding (R404). -/
def switchMode (p : Part) : Part :=
  if p.svn.switching && !svnBusy p then
    let sink := fldOn p SVN_MODE
    let p := { p with svn := { p.svn with sink := sink, switching := false } }
    setFld (setFld p SVN_SWITCHING 0) SVN_MODE_NOW (if sink then 1 else 0)
  else p

/-! ### Failed posted writes and the error log -/

/-- Keep an error record, or count it once the log is full (R406, R407). -/
def logError (p : Part) (r : ErrorRecord) : Part :=
  if p.svn.errorLog.length < 64 then { p with svn := { p.svn with errorLog := p.svn.errorLog ++ [r] } }
  else bumpFld p SVN_EREC_OVF 1

/-- A posted write fails at its target (R406): record, event source 152, and a notice on its way to the initiator. -/
def postedFails (p : Part) (src dst addr cause : Nat) : Part :=
  let p := logError p ⟨src, dst, cause, addr, nsOf p.now⟩
  let p := raise p 152 [(2, src), (1, cause), (8, addr)]
  { p with svn := { p.svn with notices := p.svn.notices ++ [(dst, src)] } }

/-- SVN_EREC_CLR (R407): empties the error log and its overflow count. -/
def svnErecClr (p : Part) : Part := setFld { p with svn := { p.svn with errorLog := [] } } SVN_EREC_OVF 0

/-- A packet of response or notice. -/
def replyPacket (src dst op cls tag status : Nat) (data : List Byte) (flips : List (BitVec 144)) : NetPacket :=
  let ds := dataFlits 64 data
  let h : NetHeader := ⟨cls, dst, src, op, tag, ds.length, status, 0, 0⟩
  let fs := (packetFlits h ds).zipIdx.map (fun x => { x.1 with flips := flips.getD x.2 0 })
  ⟨h, fs, false, [], 0⟩

/-- ERROR_NOTICE (R406, R407): the oldest notice crosses the network to its initiator's NI and sets the sticky bit. -/
def errorNotice (p : Part) : Part :=
  match p.svn.notices with
  | [] => p
  | (tgt, n) :: rest =>
    let p := { p with svn := { p.svn with notices := rest } }
    let p := (netSettle (netLaunch p (replyPacket tgt n 4 1 0 0 [] []))).1
    let f := if n < 32 then SVN_PERR_L else SVN_PERR_H
    setFld p f (fld p f ||| 2 ^ (n % 32))

/-- Does the sticky posted-error bit of an NI stand (R407)? -/
def stickyError (p : Part) (ni : Nat) : Bool :=
  (if ni < 32 then fld p SVN_PERR_L else fld p SVN_PERR_H).testBit (ni % 32)

/-! ### Responses and timeouts -/

/-- Hand a unit a response, and free its response room (R404, R405). A BAR0 read of the host has its data then. -/
def deliverResponse (p : Part) (r : SvnResponse) : Part :=
  let read := p.svn.outstanding.any (fun q => q.ni == r.ni && q.tag == r.tag && q.control && q.read)
  let p := { p with svn := { p.svn with
      outstanding := p.svn.outstanding.eraseP (fun q => q.ni == r.ni && q.tag == r.tag),
      delivered := r :: p.svn.delivered.filter (fun d => d.ni != r.ni) } }
  if r.ni = 0 ∧ read = true then { p with readData := leNat (r.data.take 4) } else p

/-- A response reaches its NI (R405, R408): its corrected errors are counted; one no longer awaited is discarded and
counted; a poisoned one is handed over as ERR_INTEGRITY. -/
def takeResponse (p : Part) (r : SvnResponse) (flits : List Flit) : Part :=
  let p := bumpFld p SVN_CE_N (flitErrors flits)
  if p.svn.outstanding.any (fun q => q.ni == r.ni && q.tag == r.tag) then
    if flits.any flitPoisoned then deliverResponse p { r with status := .errIntegrity, data := [] }
    else deliverResponse p { r with data := ((flits.drop 2).flatMap flitBytes).take r.data.length }
  else bumpFld p SVN_LATE_N 1

/-- A response with a tag crosses the network to its NI; `flips` are the bits upset in its flits on the way. -/
def responseCrosses (ni : Fin 64) (tag : BitVec 12) (flips : List (BitVec 144)) (p : Part) : Part :=
  match p.svn.responses.find? (fun r => r.ni == ni.val && r.tag == tag.toNat) with
  | none => p
  | some r =>
    let p := { p with svn := { p.svn with
               responses := p.svn.responses.eraseP (fun q => q.ni == ni.val && q.tag == tag.toNat) } }
    let cls := if r.control then 1 else 3
    let (p, got) := netSettle (netLaunch p (replyPacket r.tgt r.ni 3 cls r.tag r.status.code r.data flips))
    got.foldl (fun p pk => takeResponse p r pk.flits) p

/-- A request has gone unanswered for its time (R405): ERR_TIMEOUT is handed over, counted and reported, and a BAR0 read
returns all ones. -/
def requestExpires (ni : Fin 64) (tag : BitVec 12) (p : Part) : Part :=
  match p.svn.outstanding.find? (fun q => q.ni == ni.val && q.tag == tag.toNat) with
  | none => p
  | some q =>
    let ones := if q.read then List.replicate 4 0xFF#8 else []
    let p := deliverResponse p ⟨q.tgt, ni.val, tag.toNat, q.control, .errTimeout, ones⟩
    raise (bumpFld p SVN_TMO_N 1) 153 [(2, ni.val), (2, q.tgt), (8, q.addr)]

end Sys2Proof.Machine
end

