-- ==== Sys2Proof/Machine/Readout.lean ====
section
/-!
DEFINITION. Readout (R276 to R289): complete windows, graphs and their instances, the ready queues and cores, the
built-in node types, and the records they deliver.
-/
namespace Sys2Proof.Machine

/-! ### Windows -/

/-- The boundary at which an accept's window is complete (R276), none while it is not: a window that was pending when
the fabric left RUNNING is, once all history is in sapwood. -/
def windowDue (p : Part) (a : AcceptEntry) : Option Nat :=
  let due := (a.tick + a.after + 2).toNat
  if due ≤ p.tk.tick then some due
  else if a.early && p.his.handed.isEmpty then some p.tk.tick else none

/-- Insert by due boundary, after those of the same boundary. -/
def insertDue (e : Nat × Nat) : List (Nat × Nat) → List (Nat × Nat)
  | [] => [e]
  | x :: l => if e.1 < x.1 then e :: x :: l else x :: insertDue e l

/-- WINDOW_COMPLETE (R276, R281): every window that is complete joins the order of the instances, by its boundary and
then in queue order. -/
def windowComplete (p : Part) : Part :=
  if partHalted p then p
  else
    let due := (p.his.accepts.filter (fun a => !a.complete)).filterMap (fun a => (windowDue p a).map (fun d => (d, a.id)))
    let sorted := (due.foldl (fun l e => insertDue e l) []).map (·.2)
    { p with
      his := { p.his with accepts := p.his.accepts.map (fun a => if sorted.contains a.id then { a with complete := true } else a) },
      rdo := { p.rdo with order := p.rdo.order ++ sorted } }

/-- The ticks of a window, in ascending order. -/
def windowTicks (a : AcceptEntry) : List Int :=
  (List.range (a.before + a.after + 1)).map (fun (i : Nat) => a.tick - (a.before : Int) + (i : Int))

/-- The page from which tick `t` can be read: the latest that holds it, in heartwood or still in its frame, and has not
been released (R276). -/
def pageOf (p : Part) (t : Int) : Option HPage :=
  p.his.pages.reverse.find? (fun g =>
    decide ((g.first : Int) ≤ t) && decide (t < (g.first + g.ticks.length : Nat)) &&
    (match g.st with
     | .none => g.inSap
     | .release => false
     | _ => true))

/-! ### Tasks and queues -/

/-- A readout core. -/
def coreState (p : Part) (j : Nat) : CoreState := smapGet (fun _ => CoreState.idle) p.rdo.cores j

/-- Set a readout core. -/
def setCore (p : Part) (j : Nat) (c : CoreState) : Part :=
  { p with rdo := { p.rdo with cores := smapSet (fun _ => CoreState.idle) p.rdo.cores j c } }

/-- Queued tasks of a level. -/
def levelDepth (p : Part) (k : Nat) : Nat := (p.rdo.queue.filter (fun t => t.level == k)).length

/-- A task enters the ready queues, or parks while all 4,096 entries are in use (R283). -/
def pushTask (p : Part) (t : Task) : Part :=
  if p.rdo.queue.length < 4096 then
    let p := { p with rdo := { p.rdo with queue := p.rdo.queue ++ [{ t with since := timeNs p.now }] } }
    maxFldI p RDO_DEPTH_MAX t.level (levelDepth p t.level)
  else { p with rdo := { p.rdo with parked := p.rdo.parked ++ [t] } }

/-- The nodes of the loaded graph. -/
def graphNodes (p : Part) : List GraphNode := match p.rdo.graph with | some g => g.nodes | none => []

/-- A node of the loaded graph. -/
def graphNode (p : Part) (n : Nat) : GraphNode := (graphNodes p).getD n ⟨0, 0, false, 0, [], 0⟩

/-- The instance in a slot. -/
def instanceAt (p : Part) (slot : Nat) : Option Instance := p.rdo.insts.find? (fun x => x.slot == slot)

/-- Change the instance in a slot. -/
def mapInstance (p : Part) (slot : Nat) (f : Instance → Instance) : Part :=
  { p with rdo := { p.rdo with insts := p.rdo.insts.map (fun x => if x.slot = slot then f x else x) } }

/-- The level of a node's task (R282). -/
def taskLevel (n : GraphNode) (a : AcceptEntry) : Nat := if n.usePrio then a.prio else n.level

/-- A node of an instance becomes ready (R282). -/
def makeReady (a : AcceptEntry) (slot : Nat) (p : Part) (n : Nat) : Part :=
  pushTask p ⟨slot, n, taskLevel (graphNode p n) a, 0⟩

/-- The lowest-numbered free instance slot (R281). -/
def freeSlot (p : Part) : Option Nat := (List.range 256).find? (fun s => (instanceAt p s).isNone)

/-- Window ticks are found absent from an instance's records (R276): counted in MISSING and HIS_ABSENT, and event source
65, both as it starts and when ticks lost since are gathered (DEDUCED, log 44). -/
def noteAbsent (p : Part) (slot : Nat) (ts : List Int) : Part :=
  match instanceAt p slot with
  | none => p
  | some i =>
    let new := ts.filter (fun t => !i.gone.contains t)
    if new.isEmpty then p
    else
      let p := mapInstance p slot (fun i => { i with gone := i.gone ++ new })
      quietEvent (bumpFld p HIS_ABSENT_TICKS new.length) 6 65
        [(8, wrapCode 64 i.acc.tick), (2, i.gone.length + new.length)]

/-- INSTANCE_START (R276, R281, R282): the first complete accept starts when counters and a slot are free. -/
def instanceStart (p : Part) : Part :=
  if partHalted p then p
  else match p.rdo.order, p.rdo.graph, freeSlot p with
    | id :: rest, some g, some s =>
      if 65536 < (p.rdo.insts.length + 1) * g.nodes.length then p
      else match p.his.accepts.find? (fun a => a.id == id) with
        | none => { p with rdo := { p.rdo with order := rest } }
        | some a =>
          let gone := (windowTicks a).filter (fun t => (pageOf p t).isNone)
          let counters := g.nodes.zipIdx.foldl (fun m (n, i) => smapSet (fun _ => 0) m i n.pred) []
          let inst : Instance := ⟨s, a, [], counters, false, false, [], 0⟩
          let p := { p with rdo := { p.rdo with order := rest, insts := p.rdo.insts ++ [inst] } }
          let p := maxFldI p RDO_INST_MAX 0 p.rdo.insts.length
          let p := noteAbsent p s gone
          ((g.nodes.zipIdx.filter (fun e => e.1.pred == 0)).map (·.2)).foldl (makeReady a s) p
    | _, _, _ => p

/-- The oldest queued task over the age limit, else the oldest of the highest level (R284). -/
def pickTask (p : Part) : Option Task :=
  let age := fld p RDO_AGE_US * 1000
  let old := p.rdo.queue.filter (fun t => decide (age ≠ 0) && decide (t.since + age < timeNs p.now))
  match old with
  | t :: _ => some t
  | [] => [7, 6, 5, 4, 3, 2, 1, 0].findSome? (fun k => p.rdo.queue.find? (fun t => t.level == k))

/-- The tick that task shavings and readout events carry. -/
def taskTick (p : Part) (t : Task) : Nat :=
  match instanceAt p t.slot with
  | some i => wrapCode 64 i.acc.tick
  | none => 0

/-- The first parked task takes a freed queue entry (R283). -/
def unpark (p : Part) : Part :=
  match p.rdo.parked with
  | [] => p
  | t :: rest => pushTask { p with rdo := { p.rdo with parked := rest } } t

/-- The idle core with the lowest number, while the cores are loaded (R284); one that stalls on trace takes no task. -/
def idleCore (p : Part) : Option Nat :=
  if fldOn p SYS_RDO_STARTED then (List.range 32).find? (fun j => coreState p j == .idle && !coreStalled p j) else none

/-- TASK_DISPATCH (R284, R308). -/
def taskDispatch (p : Part) : Part :=
  if partHalted p then p
  else match idleCore p, pickTask p with
    | some j, some t =>
      let wait := timeNs p.now - t.since
      let p := unpark { p with rdo := { p.rdo with queue := p.rdo.queue.erase t } }
      let p := bumpFldI (bumpFldI (maxFldI p RDO_WAIT_MAX t.level wait) RDO_WAIT_SUM t.level wait) RDO_DISPATCHED t.level 1
      let p := setCore p j (.busy t (timeNs p.now) .running)
      let p := { p with rdo := { p.rdo with
        stallMode := smapSet (fun _ => false) p.rdo.stallMode j (fldOn p RDO_TRACE_STALL) } }
      shave p j 4 (leBytes 8 (taskTick p t) ++ leBytes 2 t.node ++ leBytes 1 (graphNode p t.node).typ ++ leBytes 1 t.level)
    | _, _ => p

/-- A predecessor of node `n` has completed (R282). -/
def predecessorDone (slot : Nat) (p : Part) (n : Nat) : Part :=
  match instanceAt p slot with
  | none => p
  | some i =>
    let left := smapGet (fun _ => 0) i.counters n - 1
    let p := mapInstance p slot (fun i => { i with counters := smapSet (fun _ => 0) i.counters n left })
    if left = 0 then makeReady i.acc slot p n else p

/-- A task completes on core `j` with status 0 OK, 1 error, 2 timeout (R281, R282, R285): its successors' counters
fall, and the completion of RELEASE ends the instance. -/
def endTask (p : Part) (j : Nat) (t : Task) (start status : Nat) (core : CoreState) : Part :=
  let p := shave p j 5 (leBytes 8 (taskTick p t) ++ leBytes 2 t.node ++ leBytes 2 status)
  let p := bumpFldI (bumpFldI p RDO_BUSY_NS j (timeNs p.now - start)) RDO_TASKS j 1
  let p := setCore p j core
  let p := if status = 0 then p else mapInstance p t.slot (fun i => { i with taskError := true })
  let n := graphNode p t.node
  if n.typ = 7 then
    match instanceAt p t.slot with
    | some i => leaveAccept { p with rdo := { p.rdo with insts := p.rdo.insts.filter (fun x => x.slot != t.slot) } } i.acc.id
    | none => p
  else n.succ.foldl (predecessorDone t.slot) p

/-- TASK_TIMEOUT (R285, R432): the task is stopped and its core reset, whose local memories are tested again. -/
def taskTimeout (j : Fin 32) (p : Part) : Part :=
  if partHalted p then p
  else match coreState p j.val with
    | .busy t start _ =>
      let p := raise (bumpFld p RDO_TIMEOUTS 1) 80 [(1, j.val), (1, t.node), (8, taskTick p t)]
      setTest (endTask p j.val t start 2 .resetting) 5 1
    | _ => p

/-- Sealed address of the work area of an instance slot (R323). -/
def workArea (slot : Nat) : Nat := (1024 + slot) * mib

/-- Bytes that an instance has written in its work area. -/
def workUsed (i : Instance) : Nat := (i.bufs.flatMap (fun e => e.2.map (·.2))).sum

/-- Where a buffer of an instance lies. -/
def workPieces (i : Instance) (b : Nat) : List (Nat × Nat) := smapGet (fun _ => []) i.bufs b

/-- A core reads pieces of a work area through the sealing engine (R320); none where an access fails. -/
def readPieces (slot : Nat) : List (Nat × Nat) → Part → Part × Option (List Byte)
  | [], p => (p, some [])
  | (o, n) :: l, p =>
    match sealRead p .cores (workArea slot + o) n with
    | (p, .ok, b) => let r := readPieces slot l p; (r.1, r.2.map (b ++ ·))
    | (p, _, _) => (p, none)

/-- A task reads buffers of its instance, in the order given. -/
def readBufs (p : Part) (slot : Nat) (bs : List Nat) : Part × Option (List Byte) :=
  match instanceAt p slot with
  | some i => readPieces slot (bs.flatMap (workPieces i)) p
  | none => (p, none)

/-- A task appends bytes to a buffer, at the end of what its instance has written so far (DESIGN CHOICE, log 44); past
WORK_BYTES it stops writing, ends with an error and sets TRUNCATED (R279). The answer says whether all of it was written;
an access that the engine refuses writes nothing (R325). -/
def appendBuf (p : Part) (slot b : Nat) (bytes : List Byte) : Part × Bool :=
  match instanceAt p slot, p.rdo.graph with
  | some i, some g =>
    let o := workUsed i
    let fits := bytes.take (g.work - o)
    let all := decide (fits.length = bytes.length)
    let p := if all then p else mapInstance p slot (fun i => { i with truncated := true })
    match (if fits.isEmpty then (p, Status.ok) else sealWrite p .cores (workArea slot + o) fits) with
    | (p, .ok) =>
      (mapInstance p slot (fun i => { i with
        bufs := smapSet (fun _ => []) i.bufs b (workPieces i b ++ [(o, fits.length)]) }), all)
    | (p, _) => (p, false)
  | _, _ => (p, false)

/-- What the core or its runtime reports of a task (R285). -/
def errorTask (p : Part) (j : Nat) (t : Task) (start cause : Nat) : Part :=
  let p := raise (bumpFld p RDO_ERRORS 1) 81 [(1, j), (1, t.node), (1, cause), (8, taskTick p t)]
  endTask p j t start 1 .idle

/-- TASK_COMPLETE (R279, R282, R285): the core signals completion. A built-in task completes once its action is done; a
registered one has appended `writes` to its buffers. `outcome` is 0 as it went, 1 a reported error, 2 a trap
(DESIGN CHOICE, log 44); a posted write of the core's interface that has failed makes it an error (R407). -/
def taskComplete (j : Fin 32) (outcome : Fin 3) (writes : List (Fin 16 × List Byte)) (p : Part) : Part :=
  if partHalted p || coreStalled p j.val then p
  else match coreState p j.val with
    | .busy t start phase =>
      if outcome.val ≠ 0 then errorTask p j.val t start outcome.val
      else if (graphNode p t.node).typ < 8 then
        match phase with
        | .acted true => if stickyError p (8 + j.val) then errorTask p j.val t start 1 else endTask p j.val t start 0 .idle
        | .acted false => errorTask p j.val t start 1
        | _ => p
      else
        let r := writes.foldl (fun (acc : Part × Bool) w =>
          let x := appendBuf acc.1 t.slot w.1.val w.2
          (x.1, acc.2 && x.2)) (p, true)
        if r.2 && !stickyError r.1 (8 + j.val) then endTask r.1 j.val t start 0 .idle
        else errorTask r.1 j.val t start 1
    | _ => p

/-! ### Built-in nodes -/

/-- A core runs the action of a built-in node type (R279): nothing unless it holds a task of that type whose action is
still to come. The action answers whether the task waits, or how it ends. -/
def runNode (p : Part) (j : Fin 32) (typ : Nat) (act : Part → Task → Instance → Nat → Part × TaskPhase) : Part :=
  if partHalted p || coreStalled p j.val then p
  else match coreState p j.val with
    | .busy t start (.acted ok) => setCore p j.val (.busy t start (.acted ok))
    | .busy t start _ =>
      if (graphNode p t.node).typ = typ then
        match instanceAt p t.slot with
        | some i =>
          let r := act p t i (graphNode p t.node).param
          setCore r.1 j.val (.busy t start r.2)
        | none => p
      else p
    | _ => p

/-- The words of one window tick, `n` from `first` (R279): from sapwood, or from heartwood through the sealing engine
as a readout core reads it (R325); zeros for an absent tick. The answer says whether the read was allowed. -/
def tickWords (p : Part) (t : Int) (first n : Nat) : Part × List Byte × Bool :=
  let zeros := List.replicate (8 * n) (0 : Byte)
  match pageOf p t with
  | none => (p, zeros, true)
  | some g =>
    if g.inSap then
      let ws := match g.ticks.find? (fun e => (e.1 : Int) == t) with | some e => e.2 | none => []
      (p, (List.range n).flatMap (fun i => leBytes 8 (ws.getD (first + i) 0).toNat), true)
    else
      match sealRead p .cores (hwAddress p g.hw + ((t - g.first).toNat * g.words + first) * 8) (8 * n) with
      | (p, .ok, b) => (p, b, true)
      | (p, _, _) => (p, zeros, false)

/-- GATHER (R279). -/
def nodeGather (j : Fin 32) (p : Part) : Part :=
  runNode p j 1 fun p t i param =>
    let first := natBits param 0 11
    let n := natBits param 11 11 + 1
    if histH p < first + n then (p, .acted false)
    else
      let r := (windowTicks i.acc).foldl (fun (acc : Part × Bool) v =>
        if !acc.2 then acc
        else
          let p := if (pageOf acc.1 v).isNone then noteAbsent acc.1 t.slot [v] else acc.1
          let w := tickWords p v first n
          if w.2.2 then appendBuf w.1 t.slot (natBits param 60 4) w.2.1 else (w.1, false)) (p, true)
      (r.1, .acted r.2)

/-- Zero suppression of blocks of up to 64 words (R279). -/
def zsuppWords : Nat → List Word → List Word
  | 0, _ => []
  | n + 1, ws =>
    if ws.isEmpty then []
    else
      let blk := ws.take 64
      BitVec.ofNat 64 (bitMap 64 (fun j => blk.getD j 0 != 0)) :: blk.filter (· != 0) ++ zsuppWords n (ws.drop 64)

/-- ZSUPP (R279). -/
def nodeZsupp (j : Fin 32) (p : Part) : Part :=
  runNode p j 2 fun p t _ param =>
    match readBufs p t.slot [natBits param 0 4] with
    | (p, some b) =>
      let ws := wordsOf ((b.length + 7) / 8) b
      let r := appendBuf p t.slot (natBits param 4 4) ((zsuppWords ws.length ws).flatMap (fun w => leBytes 8 w.toNat))
      (r.1, .acted r.2)
    | (p, none) => (p, .acted false)

/-- PACK (R279). -/
def nodePack (j : Fin 32) (p : Part) : Part :=
  runNode p j 3 fun p t _ param =>
    match readBufs p t.slot ((List.range 16).filter (fun b => (natBits param 0 16).testBit b)) with
    | (p, some b) =>
      let r := appendBuf p t.slot 15 b
      (r.1, .acted r.2)
    | (p, none) => (p, .acted false)

/-- CHECKSUM (R279). -/
def nodeChecksum (j : Fin 32) (p : Part) : Part :=
  runNode p j 4 fun p t _ _ =>
    match readBufs p t.slot [15] with
    | (p, some b) => (mapInstance p t.slot (fun x => { x with check := crc32 b }), .acted true)
    | (p, none) => (p, .acted false)

/-- The next SEQ of a destination: rings from 0, lanes from 32 (R287). -/
def seqOf (p : Part) (d : Nat) : Nat := smapGet (fun _ => 0) p.rdo.seqs d

/-- A record has been delivered to a destination. -/
def bumpSeq (p : Part) (d : Nat) : Part :=
  { p with rdo := { p.rdo with seqs := smapSet (fun _ => 0) p.rdo.seqs d ((seqOf p d + 1) % 2 ^ 32) } }

/-- An accept record (R287): its header and its payload, padded to a multiple of 8 bytes. -/
def acceptRecord (i : Instance) (pay : List Byte) (seq : Nat) : List Byte :=
  let n := (pay.length + 7) / 8 * 8
  let flags := (if i.gone.isEmpty then 0 else 1) + (if i.taskError then 2 else 0) + (if i.acc.clamped then 4 else 0) +
    (if i.truncated then 8 else 0)
  leBytes 2 1 ++ leBytes 2 flags ++ leBytes 4 (32 + n) ++ leBytes 8 (wrapCode 64 i.acc.tick) ++ leBytes 2 i.acc.before ++
  leBytes 2 i.acc.after ++ leBytes 1 (i.acc.source + i.acc.prio * 32) ++ leBytes 1 i.acc.tag ++ leBytes 2 i.gone.length ++
  leBytes 4 seq ++ leBytes 4 i.check ++ fitBytes n pay

/-- SEND_RING (R287, R389). -/
def nodeSendRing (j : Fin 32) (p : Part) : Part :=
  runNode p j 5 fun p t i param =>
    let k : Fin 32 := Fin.ofNat 32 (natBits param 0 5)
    match readBufs p t.slot [15] with
    | (p, none) => (p, .acted false)
    | (p, some pay) =>
      match rdoPut p k 1 (acceptRecord i pay (seqOf p k.val)) with
      | .written p => (bumpSeq p k.val, .acted true)
      | .tooLong p => (p, .acted false)
      | .waits => (p, .waiting)

/-- The words of a record, each with whether the record starts there. -/
def recordWords (b : List Byte) : List (Bool × Word) :=
  (wordsOf (b.length / 8) b).zipIdx.map (fun (w, i) => (decide (i = 0), w))

/-- SEND_LANE (R288): into the lane's buffer of 256 KiB, while it has room. -/
def nodeSendLane (j : Fin 32) (p : Part) : Part :=
  runNode p j 6 fun p t i param =>
    let n := natBits param 0 7
    if !rdoLane p n || !txFramable p (n / 8) || decide (frameP (txF p n) < 2) then
      (raise p 82 [(1, n), (8, taskTick p t)], .acted false)
    else match readBufs p t.slot [15] with
    | (p, none) => (p, .acted false)
    | (p, some pay) =>
      let b := laneBuf p n
      let ws := recordWords (acceptRecord i pay (seqOf p (32 + n)))
      if 32768 < b.words.length + ws.length then (p, .waiting)
      else
        let lanes := smapSet (fun _ => (⟨[], 0⟩ : LaneBuf)) p.rdo.lanes n { b with words := b.words ++ ws }
        (bumpSeq { p with rdo := { p.rdo with lanes := lanes } } (32 + n), .acted true)

/-- RELEASE (R275, R279). -/
def nodeRelease (j : Fin 32) (p : Part) : Part := runNode p j 7 fun p _ i _ => (releasePins p i.acc.id, .acted true)

/-- RING_WAIT_TIMEOUT (R287): a SEND_RING has waited 1 ms. -/
def ringWaitTimeout (j : Fin 32) (p : Part) : Part :=
  match coreState p j.val with
  | .busy t _ .waiting =>
    let n := graphNode p t.node
    if n.typ = 5 ∧ partHalted p = false then raise p 84 [(1, natBits n.param 0 5)] else p
  | _ => p

/-! ### RDO_GRAPH_LOAD and RDO_POLICY -/

/-- Read the node with index `k` of an image of `n` nodes (R278). -/
def parseNode (b : List Byte) (n k : Nat) : GraphNode :=
  let o := 32 + 16 * k
  let first := leAt b (o + 4) 2
  { typ := leAt b o 1
    level := leAt b (o + 1) 1 % 8
    usePrio := natBits (leAt b (o + 1) 1) 3 1 == 1
    pred := leAt b (o + 2) 1
    succ := (List.range (leAt b (o + 3) 1)).map (fun i => leAt b (32 + 16 * n + 2 * (first + i)) 1)
    param := leAt b (o + 8) 8 }

/-- Reserved bits of a node's PARAM, by type (R279). -/
def paramReserved (typ param : Nat) : Bool :=
  match typ with
  | 1 => decide (natBits param 22 38 ≠ 0)
  | 2 => decide (natBits param 8 56 ≠ 0)
  | 3 => decide (natBits param 16 48 ≠ 0)
  | 5 => decide (natBits param 5 59 ≠ 0)
  | 6 => decide (natBits param 7 57 ≠ 0)
  | 4 => decide (param ≠ 0)
  | 7 => decide (param ≠ 0)
  | _ => false

/-- Is a node entry in range, with no reserved bit set (R278)? -/
def nodeOk (b : List Byte) (edges k : Nat) : Bool :=
  let o := 32 + 16 * k
  decide (1 ≤ leAt b o 1) && decide (leAt b o 1 ≤ 63) && decide (leAt b (o + 1) 1 < 16) && decide (leAt b (o + 6) 2 = 0) &&
  decide (leAt b (o + 4) 2 + leAt b (o + 3) 1 ≤ edges) && !paramReserved (leAt b o 1) (leAt b (o + 8) 8)

/-- Successor entry `i` of an image of `n` nodes. -/
def graphEdge (b : List Byte) (n i : Nat) : Nat := leAt b (32 + 16 * n + 2 * i) 1

/-- Is the image well formed (R278, R280, first row)? -/
def graphShapeOk (b : List Byte) : Bool :=
  let n := leAt b 6 2
  let e := leAt b 8 2
  let work := leAt b 0x10 4
  leAt b 0 4 == 0x52474452 && leAt b 4 2 == 1 && decide (1 ≤ n) && decide (n ≤ 256) && decide (e ≤ 4096) &&
  decide (b.length = 32 + 16 * n + 2 * e) && leAt b 0xA 2 == 0 && leAt b 0x18 8 == 0 && decide (1 ≤ leAt b 0xC 4) &&
  decide (work % 64 = 0) && decide (64 ≤ work) && decide (work ≤ 2 ^ 20) &&
  (List.range n).all (nodeOk b e) && (List.range e).all (fun i => decide (graphEdge b n i < n) && leAt b (32 + 16 * n + 2 * i + 1) 1 == 0)

/-- The nodes all of whose successors are already in `done`, added to it. -/
def addSettled (nodes : List GraphNode) (done : List Nat) : List Nat :=
  (List.range nodes.length).filter (fun k => ((nodes.getD k ⟨0, 0, false, 0, [], 0⟩).succ).all done.contains)

/-- `n` rounds of `addSettled` from nothing: all nodes when there is no cycle. -/
def settled (nodes : List GraphNode) : Nat → List Nat
  | 0 => []
  | n + 1 => addSettled nodes (settled nodes n)

/-- The structural rows of R280 for nodes and the successor entries: PRED counts, no cycle, and exactly one RELEASE node,
the only sink. -/
def graphSound (nodes : List GraphNode) (entries : List Nat) : Bool :=
  nodes.zipIdx.all (fun e => e.1.pred == (entries.filter (· == e.2)).length) &&
  decide ((settled nodes nodes.length).length = nodes.length) &&
  decide ((nodes.filter (fun n => n.typ == 7)).length = 1) &&
  nodes.all (fun n => (n.typ == 7) == n.succ.isEmpty)

/-- RDO_GRAPH_LOAD (R277, R278, R280), with the image that the part fetches. -/
def rdoGraphLoad (h : Hdr) (img : List Byte) (p : Part) : Part :=
  beginUnit p (.rdoGraphLoad h img) h 0x19 10 fun p =>
    let len := h.par 0x10 4
    if !(p.tk.fab == .off || p.tk.fab == .loaded || p.tk.fab == .stopped) || !p.his.accepts.isEmpty then
      completeSt p h .errState
    else withBuffer p (.rdoGraphLoad h img) h .read (h.par 0x08 8) len fun p =>
      let b := fitBytes len img
      let n := leAt b 6 2
      if !graphShapeOk b then completeSt p h .errParam
      else
        let nodes := (List.range n).map (parseNode b n)
        if !graphSound nodes ((List.range (leAt b 8 2)).map (graphEdge b n)) || nodes.any (fun x => decide (8 ≤ x.typ) && !Config.registeredType (fld p HST_RT) x.typ) then
          completeSt p h .errParam
        else if fld p HST_RT < leAt b 0x14 4 then completeSt p h .errVersion
        else
          let p := { p with rdo := { p.rdo with graph := some ⟨nodes, leAt b 0xC 4, leAt b 0x10 4⟩ } }
          completeSt (raise p 83 [(2, n), (4, leAt b 0xC 4)]) h .ok

/-- RDO_POLICY (R286): the fields that it sets, whatever the locks. -/
def rdoPolicy (h : Hdr) (p : Part) : Part :=
  beginUnit p (.rdoPolicy h) h 0x1A 10 fun p =>
    let set (k : Nat) : Bool := (h.par 0x08 1).testBit k
    let timeout := h.par 0x0C 2
    if set 1 && timeout == 0 then completeSt p h .errParam
    else
      let p := if set 0 then setFld p RDO_AGE_US (h.par 0x0A 2) else p
      let p := if set 1 then setFld p RDO_TIMEOUT_US timeout else p
      let p := if set 2 then setFld p RDO_TRACE_STALL (h.par 0x0E 1 % 2) else p
      completeSt p h .ok

end Sys2Proof.Machine
end

