-- ==== Sys2Proof/Machine/Tick.lean ====
section
/-!
DEFINITION. The tick boundary (R20 to R22, R43, R141, R171 to R179), patrol and correction write-back (R62 to R65, R128,
R132, R133), entry to RUNNING and STOPPED (R180 to R184), and halts (R412 to R419).
-/
namespace Sys2Proof.Machine

/-! ### Edge I/O cells -/

/-- The whole nanosecond of device time at or after an instant: where an edge of the edge I/O clock lies (R141)
(DEDUCED, log 35). -/
def edgeNs (t : Nat) : Nat := (t + nsUnit - 1) / nsUnit

/-- The virtual column of the corner billet of cell `j` (R139). -/
def cellCol (p : Part) (j : Nat) : Nat := if j / 16 % 2 = 0 then 0 else blankCv p - 1

/-- Does cell `j` drive the value of R141 (R142)? A corner billet whose column lies in no region counts as one of a LIVE
region (DESIGN CHOICE, log 35). -/
def cellLive (p : Part) (j : Nat) : Bool :=
  running p && (fld p GIO_CORNER_EN).testBit (j / 16) && !colHeld p (cellCol p j)

/-- The output words of a cell, that of the present tick first. -/
def cellWords (p : Part) (j : Nat) : List Word := smapGet (fun _ => []) p.gr.gioWords j

/-- The output delay of a cell in force, in taps of 10 ps. -/
def outDelay (p : Part) (j : Nat) : Nat := smapGet (fun _ => 0) p.gr.gioDelay j / 128

/-- When the bit of half-cycle 8 + OFS of the tick `i` before the present one begins at the ball: 1.50 ns and the output delay
after the half-cycle begins, in units of 1/100 of 2^−32 ns (R141, R463). -/
def driveFrom (p : Part) (j i : Nat) : Nat :=
  ((edgeNs (boundaryAt p (p.tk.tick - i)) + 8 + fldI p GIO_OFS j) * 100 + 150 + outDelay p j) * nsUnit

/-- The bit that cell `j` drives under R141 at device time `x`, in units of 2^−32 ns: of the words whose window has begun,
the latest, and of it bit k in half-cycle 8 + OFS + k, or bit 0 in level mode. Before the first such window, in tick 0, it
drives 0 (DESIGN CHOICE, log 35). -/
def cellBit (p : Part) (j x : Nat) : Bool :=
  match (List.range 24).find? (fun i => decide (i ≤ p.tk.tick) && decide (driveFrom p j i ≤ 100 * x)) with
  | none => false
  | some i =>
    let k := (100 * x - driveFrom p j i) / (100 * nsUnit)
    ((cellWords p j).getD i 0).getLsbD (if fldI p GIO_MODE j = 1 then 0 else min k 63)

/-- The level at ball GIO[j] that the part drives at device time `x` (R142); none for high impedance. -/
def cellLevel (p : Part) (j x : Nat) : Option Bool :=
  if fldI p GIO_OE j = 0 then none
  else if cellLive p j then some (cellBit p j x)
  else match fldI p GIO_SAFE j with
    | 0 => some false
    | 1 => some true
    | 2 => smapGet (fun _ => none) p.gr.gioLast j
    | _ => none

/-- The last bit that each cell drove before device time `x` is kept for SAFE = hold (R142): a bit driven under R141, not a
level of SAFE (DESIGN CHOICE, log 35). -/
def noteCells (p : Part) (x : Nat) : Part :=
  (List.range 64).foldl (fun p j =>
    if fldI p GIO_OE j = 1 ∧ cellLive p j = true then
      { p with gr := { p.gr with gioLast := smapSet (fun _ => none) p.gr.gioLast j (some (cellBit p j (x - 1))) } }
    else p) p

/-- The input delay of a cell in force, in taps of 10 ps. -/
def inDelay (p : Part) (j : Nat) : Nat := smapGet (fun _ => 0) p.gr.gioDelay j % 128

/-- The level of a ball at a time after the start of its record, in units of 10 ps: each change turns it over. -/
def waveAt (w : BallWave) (x : Nat) : Bool := w.start != decide ((w.changes.filter (· ≤ x)).length % 2 = 1)

/-- The input word of a cell from the record of its ball, which begins 2 ns before E(t) of the tick that ends, of boundary `b`,
next boundary `e`: half-cycle h is sampled 0.50 ns after it begins, less the input delay (R141, R463). In level mode a
half-cycle OFS beyond the record has the level with which the record ends (DESIGN CHOICE, log 35). -/
def cellInput (p : Part) (j b e : Nat) (w : BallWave) : Word :=
  let ofs := fldI p GIO_OFS j
  let at' (k : Nat) : Bool := waveAt w (250 + (ofs + k) * 100 - inDelay p j)
  if fldI p GIO_MODE j = 1 then (if at' 0 then 1 else 0)
  else BitVec.ofNat 64 (bitMap 64 (fun k =>
    at' k && decide ((edgeNs b + ofs + k + 1) * nsUnit + 4 * nsUnit ≤ e)))

/-- Edge I/O words cross at the take-up (R141): inputs enter, staged outputs leave, an unwritten cell repeats, and delays
written take effect (GIO_CELL_CFG). -/
def crossCells (p : Part) (b e : Nat) (balls : List BallWave) : Part :=
  let p := noteCells p (edgeNs e * nsUnit)
  let ins := balls.map (fun w => (w.ball.val, cellInput p w.ball.val b e w))
  let outs := (List.range 64).map (fun j =>
    let s := smapGet (fun _ => Staged.none) p.gr.gioStage j
    let old := cellWords p j
    (j, if s.step ≠ 0 then (s.val :: old).take 24 else if old.isEmpty then [] else (old.headD 0 :: old).take 24))
  { p with gr := { p.gr with
      gioIn := smapSetMany (fun _ => 0) [] ins
      gioWords := smapSetMany (fun _ => []) p.gr.gioWords outs
      gioStage := []
      gioDelay := smapSetMany (fun _ => 0) [] ((List.range 64).map (fun j => (j, fldI p GIO_IDLY j + 128 * fldI p GIO_ODLY j))) } }

/-! ### Take-up -/

/-- The user-event word raises its events (R102). -/
def userEvents (p : Part) (t : Nat) (w : Word) : Part :=
  (List.range 40).foldl (fun p k => if w.getLsbD k then raise p (216 + k) [(8, t), (8, w.toNat)] else p) p

/-- The accept of a tick is taken up (R267), or counted when a part halt takes effect at this boundary (R415). -/
def acceptUp (p : Part) (t : Nat) (partHalt : Bool) : Part :=
  let w := p.gr.accept.val
  if partHalt then (if w.getLsbD 63 then bumpFld p HIS_REF_BLANK 1 else p) else takeAccept p t w

/-- Status outputs pass into FAB_STAT_OUTj (R178, R179). -/
def statUp (p : Part) : Part :=
  p.gr.stat.foldl (fun p e => setFld64I p FAB_STAT_OUT_L FAB_STAT_OUT_H e.1 e.2.val.toNat) p

/-- The staging of tick `t`, which the fabric executed, is taken up (R22, R43, R137, R176 to R178, R257, R290, R415). -/
def takeUp (p : Part) (t : Nat) (partHalt : Bool) : Part :=
  let hist := p.gr.hist.map (fun e => (e.1, e.2.val))
  let p := { p with gr := { p.gr with
    txCommit := smapSetMany (fun _ => 0) [] (p.gr.txStage.map (fun e => (e.1, e.2.val))) } }
  let p := if histH p = 0 then p else { p with his := { p.his with handed := p.his.handed ++ [(t, historyWords p)] } }
  let p := { p with cap := { p.cap with ticks := p.cap.ticks ++ [⟨t, probeWords p, 0, false, false⟩] } }
  let p := acceptUp p t partHalt
  let p := userEvents p t p.gr.uevt.val
  let p := statUp p
  changeShavings p t (smapSetMany (fun _ => 0) [] hist)

/-- The staging slots are cleared for the next tick (R43). -/
def clearStaging (p : Part) : Part :=
  { p with gr := { p.gr with hist := [], probe := [], txStage := [], accept := .none, uevt := .none, stat := [] } }

/-- What the pipeline still holds of a tick completes (R44): data-memory writes, publications and TR loads; the words in
the grain and the steps of the tick are over. -/
def settleTick (p : Part) : Part :=
  let p := (p.sp.pend.map (·.1)).foldl commitPend p
  { p with
    sp := { p.sp with
      bus := smapSetMany (fun _ => (⟨0, 0, 0⟩ : BusSlot)) [] (p.sp.bus.map (fun e => (e.1, ⟨e.2.latest, e.2.latest, 0⟩)))
      tr := smapSetMany (fun _ => (⟨0, []⟩ : TrState)) []
        (p.sp.tr.map (fun e => (e.1, ⟨(e.2.coming.map (·.2)).getLastD e.2.cur, []⟩)))
      lastStep := []
      suppressed := []
      dUsed := []
      iUsed := []
      dFixed := []
      iFixed := []
      tableStep := [] }
    gr := { p.gr with inject := [], arrive := [], routerStep := [] } }

/-- The status words of tick `n` (R41, R42, R177). -/
def latchStatus (p : Part) (n : Nat) : Part :=
  let b := boundaryAt p n
  let valid (base : Nat) : Word := BitVec.ofNat 64 (bitMap 64 (fun i => (rxLane p (base + i)).valid))
  { p with gr := { p.gr with status := {
      s0 := BitVec.ofNat 64 n
      acceptReady := decide (0 < acceptFree p)
      s2 := regionBits p
      s3 := valid 0
      s4 := valid 64
      s5 := BitVec.ofNat 64 (nsOf b + secOf b % 2 ^ 32 * 2 ^ 32) } } }

/-! ### Patrol and correction write-back -/

/-- Is a region LIVE in the boundary window of the tick that begins: one that is released at this boundary is, one that
enters LOADING is not (R62, R133, R206)? -/
def liveInWindow (p : Part) (r : Region) : Bool :=
  match r.state with
  | .live => !r.waits
  | .held => (match r.release with | some u => decide (u ≤ p.tk.tick) | none => false)
  | _ => false

/-- Is a virtual column patrolled: inside the grid and not held (R62, R133)? -/
def patrolled (p : Part) (col : Nat) : Bool :=
  decide (col < blankCv p) &&
  (match regionOfCol p col with
   | some k => liveInWindow p (regionAt p k)
   | none => true)

/-- The table words that the TABLE_WRITE commands due in the present tick are about to write, as keys (R128, R131, R132): the
host write slot of step 3 comes before the patrol and the write-backs of the same tick. A command that names a billet which is
not LIVE in the tick writes none. -/
def dueTableKeys (p : Part) : List Nat :=
  let live (b : Nat) : Bool := match regionOfCol p (b / 32) with
    | some k => liveInWindow p (regionAt p k)
    | none => true
  p.gr.held.flatMap (fun c =>
    if c.tick ≤ p.tk.tick ∧ c.entries.all (fun e => live e.1) = true then c.entries.map (fun e => e.1 * 16384 + e.2.1) else [])

/-- The patrol pointer of the region of a column; 8 stands for columns in no region (DESIGN CHOICE, log 36). -/
def patrolAt (p : Part) (m : SMap Nat) (col : Nat) : Nat := smapGet (fun _ => 0) m ((regionOfCol p col).getD 8)

/-- Is address `x` of a memory with `size` words read by the patrol at step `s`, 1 to 4 (R62)? -/
def patrolHits (p : Part) (m : SMap Nat) (col size x s : Nat) : Bool :=
  patrolled p col && (x + size - patrolAt p m col % size) % size + 1 == s

/-- Pointers go on by `n` words in the regions that are patrolled. -/
def movePatrol (p : Part) (m : SMap Nat) (size n : Nat) : SMap Nat :=
  (List.range 9).foldl (fun m k =>
    if k = 8 ∨ liveInWindow p (regionAt p k) = true then smapSet (fun _ => 0) m k ((smapGet (fun _ => 0) m k + n) % size) else m) m

/-- Data-memory patrol at step `s` (R62). -/
def patrolData (s : Nat) (p : Part) (e : Nat × EccWord) : Part :=
  let sp := e.1 / 256
  if e.2.flips = 0 ∨ patrolHits p p.sp.dPatrol (sp / 2048) 256 (e.1 % 256) s = false then p
  else match eccKind e.2 with
    | .clean => p
    | .corrected _ => countCeD (setDword p e.1 (fixWord e.2)) (sp / 64)
    | .double => raiseCatch p .dmem (.spindle (sp / 2048) (sp / 64 % 32) (sp % 64)) s 2 (e.1 % 256)

/-- Instruction-memory patrol at step `s` (R62). -/
def patrolInstr (s : Nat) (p : Part) (e : Nat × EccWord) : Part :=
  let sp := e.1 / 512
  if e.2.flips = 0 ∨ patrolHits p p.sp.iPatrol (sp / 2048) 512 (e.1 % 512) s = false then p
  else match eccKind e.2 with
    | .clean => p
    | .corrected _ => countCeI (setIword p e.1 (fixWord e.2)) (sp / 64)
    | .double => raiseCatch p .imem (.spindle (sp / 2048) (sp / 64 % 32) (sp % 64)) s 2 (e.1 % 512)

/-- Table patrol at step 4 (R133): a word that the host is about to write at step 3 reads as written. -/
def patrolTable (due : List Nat) (p : Part) (e : Nat × EccWord) : Part :=
  let b := e.1 / 16384
  if e.2.flips = 0 ∨ due.contains e.1 = true ∨ patrolled p (b / 32) = false ∨ patrolAt p p.sp.tPatrol (b / 32) ≠ e.1 % 16384 then p
  else match eccKind e.2 with
    | .clean => p
    | .corrected _ => countCeT (setTword p e.1 (fixWord e.2)) b
    | .double => raiseCatch p .table (.table (b / 32) (b % 32)) 4 18 (e.1 % 16384)

/-- The patrol of one tick (R62, R133). -/
def patrolTick (p : Part) : Part :=
  let p := [1, 2, 3, 4].foldl (fun p s => p.sp.imem.foldl (patrolInstr s) (p.sp.dmem.foldl (patrolData s) p)) p
  let on := fldOn p GRN_TBL_PATROL_EN
  let p := if on then p.sp.table.foldl (patrolTable (dueTableKeys p)) p else p
  { p with sp := { p.sp with
      dPatrol := movePatrol p p.sp.dPatrol 256 4
      iPatrol := movePatrol p p.sp.iPatrol 512 4
      tPatrol := if on then movePatrol p p.sp.tPatrol 16384 1 else p.sp.tPatrol } }

/-- Write back up to three queued data-memory words of a spindle, oldest first, at steps 6, 7 and 8 (R63); the reads of
step 7 still see the word of step 8 as it was. -/
def writeBackData (p : Part) (e : Nat × List Nat) : Part :=
  if patrolled p (e.1 / 2048) then
    let now := (e.2.take 3).map (fun x => e.1 * 256 + x)
    let p := { p with sp := { p.sp with
      dFixed := smapSetMany (fun _ => ((0, EccWord.zero) : Nat × EccWord)) p.sp.dFixed
        (now.zipIdx.map (fun k => (k.1, (6 + k.2, dword p k.1))))
      dUsed := smapSet (fun _ => 0) p.sp.dUsed e.1 now.length
      dQueue := smapSet (fun _ => []) p.sp.dQueue e.1 (e.2.drop 3) } }
    now.foldl (fun p k => setDword p k (fixWord (dword p k))) p
  else p

/-- Write back up to three queued instruction-memory entries of a spindle, at steps 6, 7 and 8 (R63); the fetches of
steps 6 and 7 still see an entry of a later step as it was. -/
def writeBackInstr (p : Part) (e : Nat × List Nat) : Part :=
  if patrolled p (e.1 / 2048) then
    let now := (e.2.take 3).map (fun x => e.1 * 512 + x)
    let p := { p with sp := { p.sp with
      iFixed := smapSetMany (fun _ => ((0, EccWord.zero) : Nat × EccWord)) p.sp.iFixed
        (now.zipIdx.map (fun k => (k.1, (6 + k.2, iword p k.1))))
      iUsed := smapSet (fun _ => 0) p.sp.iUsed e.1 now.length
      iQueue := smapSet (fun _ => []) p.sp.iQueue e.1 (e.2.drop 3) } }
    now.foldl (fun p k => setIword p k (fixWord (iword p k))) p
  else p

/-- Write back the queued table word of a billet at step 6 (R132); the host write of step 3 removes it first. -/
def writeBackTable (due : List Nat) (p : Part) (e : Nat × List Nat) : Part :=
  if patrolled p (e.1 / 32) then
    let p := (e.2.filter (fun a => !due.contains (e.1 * 16384 + a))).foldl
      (fun p a => setTword p (e.1 * 16384 + a) (fixWord (tword p (e.1 * 16384 + a)))) p
    { p with sp := { p.sp with tQueue := smapSet (fun _ => []) p.sp.tQueue e.1 [] } }
  else p

/-- The boundary window of a tick that the fabric executes (R43, R128): patrol, then the correction write-backs. -/
def boundaryWindow (p : Part) : Part :=
  let p := patrolTick p
  let p := p.sp.dQueue.foldl writeBackData p
  let p := p.sp.iQueue.foldl writeBackInstr p
  p.sp.tQueue.foldl (writeBackTable (dueTableKeys p)) p

/-! ### The boundary -/

/-- Does a time in ps last a step? The step clock runs at N / T of its PLL (R173), and never above the maximum of the order
(R3): so a part whose order has less than the 2.000 GHz of the reset ratio runs at its maximum until an admission (DESIGN
CHOICE, log 64). -/
def lastsStep (p : Part) (ps : Nat) : Bool :=
  decide (p.tk.pllT * 1000 ≤ ps * p.tk.pllN * 2 ^ 32) && decide (10 ^ 6 ≤ ps * maxStepClock p)

/-- The step-0 phase e(n), in ps, is measured (R175, R198): FAB_PHASE, and event source 57 when it lies outside
[0, one step). -/
def measurePhase (p : Part) (phase : Int) (n : Nat) : Part :=
  let e := min phase.toNat 65535
  let p := maxFldI (setFld p FAB_PHASE_LAST e) FAB_PHASE_MAX 0 e
  if phase < 0 ∨ lastsStep p phase.toNat = true then
    raise (bumpFld p FAB_SLIPS 1) 57 [(1, 0), (1, 0xFF), (4, satCode 32 phase), (8, n)]
  else p

/-- TICK_OUT rises at B(n) for each n that TIM_TICK_DIV divides, and stays high for its width (R364). -/
def tickOut (p : Part) (n : Nat) : Part :=
  if fldOn p TIM_TICK_EN && n % fld p TIM_TICK_DIV == 0 then
    let rise := boundaryAt p n
    let width := min (fld p TIM_TICK_WIDTH * 4 * nsUnit) (fld p TIM_TICK_DIV * tickT p / 2)
    { p with tim := { p.tim with tickPulses := p.tim.tickPulses + 1, tickRise := some (rise : Int), tickFall := (rise + width : Nat) } }
  else p

/-- The level of TICK_OUT at an instant of device time: low before the epoch and while there are no boundaries (R364, R471). -/
def tickOutLevel (p : Part) (x : Nat) : Bool :=
  ticksOn p && decide (epochE p ≤ x) &&
  match p.tim.tickRise with
  | some r => decide (r ≤ (x : Int)) && decide ((x : Int) < p.tim.tickFall)
  | none => false

/-- The number of the next tick to begin: 0 at the epoch. -/
def nextTick (p : Part) : Nat := if p.tk.reached then p.tk.tick + 1 else 0

/-- Tick `n` begins: the counter, the halt registered at its boundary (R413), and whether the port billets' columns were
LIVE in the tick that ends (R240); a column in no region counts as LIVE (DESIGN CHOICE, log 52). -/
def beginTick (p : Part) (n : Nat) (ran : Bool) : Part :=
  { p with tk := { p.tk with
      tick := n
      reached := true
      haltDue := match p.tk.haltReq with | some r => moreSevere p.tk.haltDue r | none => p.tk.haltDue
      haltReq := none
      catchOvf := []
      pvWest := ran && !colHeld p 0
      pvEast := ran && !colHeld p (blankCv p - 1) } }

/-- TICK_BOUNDARY (R20, R22, R43, R171, R172, R176, R471): device time reaches the next boundary. `phase` is the measured
e(n) in ps; `balls` are records of the levels at edge I/O balls over the tick that ends. -/
def tickBoundary (phase : Int) (balls : List BallWave) (p : Part) : Part :=
  if !ticksOn p || !p.tim.run then p
  else
    let n := nextTick p
    let t := p.tk.tick
    let ran := p.tk.reached && executing p
    let e := boundaryAt p n
    let p := takeDelays (advanceTo (decideDue p.cap.ticks.length p e) e)
    let p := beginTick (crossCells p (boundaryAt p t) e balls) n ran
    let partHalt := match p.tk.haltDue with | some r => r.part | none => false
    let p := if ran then takeUp p t partHalt else p
    let p := presentLanes (settleTick (clearStaging p))
    let p := latchStatus p n
    let p := tickOut (measurePhase p phase n) n
    let p := historyBefore p.his.handed.length p n
    if executing p then boundaryWindow p else p

/-! ### Entry to RUNNING and STOPPED -/

/-- Every status output restarts at zero (R178). -/
def zeroStats (p : Part) : Part := (List.range 8).foldl (fun p j => setFld64I p FAB_STAT_OUT_L FAB_STAT_OUT_H j 0) p

/-- LSEQ of every readout lane restarts at 0 (R288) (DESIGN CHOICE, log 44). -/
def zeroLseq (m : SMap LaneBuf) : SMap LaneBuf :=
  smapSetMany (fun _ => (⟨[], 0⟩ : LaneBuf)) [] (m.map (fun e => (e.1, { e.2 with lseq := 0 })))

/-- ENTER_RUNNING (R49, R180 to R182): the boundary of the start tick (DEDUCED, log 37). No release tick of an earlier
run marks a first tick any more (R42). -/
def enterRunning (p : Part) : Part :=
  match p.tk.start with
  | none => p
  | some (h, u) =>
    if !p.tk.reached || decide (p.tk.tick < u) || p.tk.haltDue.isSome then p
    else
      let p := if p.tk.fab = .stopped then p else zeroBus p (fun _ => true)
      let p := zeroStats (endCapture (endSequence p))
      let p := { p with
        tk := { p.tk with fab := .running, start := none, stopAt := none }
        trc := { p.trc with full := true }
        regions := p.regions.map (fun (r : Region) => { r with relTick := none })
        cap := { p.cap with drive := 0 }
        rdo := { p.rdo with seqs := [], lanes := zeroLseq p.rdo.lanes } }
      let p := setFld64 p FAB_START_TICK_L FAB_START_TICK_H p.tk.tick
      boundaryWindow (complete p h .ok 0 p.tk.tick)

/-- The units that follow the fabric as it leaves RUNNING with nothing left to hand over (R259, R299). -/
def unitsLeave (p : Part) : Part :=
  let p := if p.cap.ticks.isEmpty then captureLeaves p else p
  if p.his.handed.isEmpty then closePage p else p

/-- ENTER_STOPPED (R51, R131, R180, R183, R206): the boundary after the last tick of a STOP. -/
def enterStopped (p : Part) : Part :=
  match p.tk.stopAt with
  | none => p
  | some w =>
    if !running p || decide (p.tk.tick ≤ w) || p.tk.haltDue.isSome then p
    else
      let cmds := p.tk.stopCmds
      let p := { p with tk := { p.tk with fab := .stopped, stopAt := none, stopCmds := [] } }
      let p := setFld64 p FAB_STOP_TICK_L FAB_STOP_TICK_H w
      let p := heldToLive (dropTableWrites p .errAborted)
      unitsLeave (hastenAccepts (completeAll p cmds .ok w))

/-! ### Halts -/

/-- Does a HALT command ask for a part halt (R168)? -/
def swPartHalt (p : Part) : Bool := match policyHalt p .sw with | some r => r.part | none => false

/-- HALT (R412, R417, R418): its catch was raised at its pickup, and the command completes once its halt has taken effect.
One picked up in a part halt completes with ERR_HALTED. -/
def haltCmd (h : Hdr) (p : Part) : Part :=
  let late := match p.host.inflight.find? (fun e => e.hdr == h && !e.begun) with | some e => e.found.late | none => false
  beginRaw p h 0x07 true fun p =>
    let pending := p.tk.haltReq.isSome || p.tk.haltDue.isSome
    if late || (h.rsv && partHalted p) then completeSt p h .errHalted
    else if h.rsv then completeSt p h .errParam
    else if !swPartHalt p && p.tk.fab == .off then completeSt p h .errState
    else if pending && !(if swPartHalt p then partHalted p else p.tk.halt.isSome) then
      { p with tk := { p.tk with haltCmds := p.tk.haltCmds ++ [h] } }
    else completeSt p h .ok

/-- HALT_N (R412): a low pulse is recognised. -/
def haltPin (p : Part) : Part := blockCatch p .pin 6 0

/-- A conversion that no command waits for. -/
def Conv.orphan (c : Conv) : Conv := { c with hdr := none }

/-- A part halt ends every command in progress (R180, R416), and no unit keeps one. QUERY and COUNTERS_READ, which may wait for
DMA, go on. -/
def endCommands (p : Part) : Part :=
  let ends (h : Hdr) : Bool := h.op != 0x01 && h.op != 0x50
  let begun := (p.host.inflight.filter (fun e => e.begun && ends e.hdr)).map (·.hdr)
  let p := unholdCmds p ends
  let p := { p with
    mon := { p.mon with cur := p.mon.cur.map Conv.orphan, again := p.mon.again.map Conv.orphan,
                        urgent := p.mon.urgent.filter (fun c => c.hdr.isNone),
                        waiting := p.mon.waiting.filter (fun c => c.hdr.isNone),
                        held := p.mon.held.filter (fun c => c.hdr.isNone) }
    trc := { p.trc with drains := [], st := if trcLive p then .frozen else p.trc.st }
    tim := { p.tim with incWaits := [] }
    sm := { p.sm with walk := none }
    boot := { p.boot with update := none }
    cap := { p.cap with units := p.cap.units.map (fun e => (e.1, e.2.map (fun c => { c with cmds := [] }))) } }
  completeAll (setFld p SEAL_REKEY_BUSY 0) begun .errHalted 0

/-- The halt that takes effect now (R413): the one registered at the latest boundary, or before the epoch the one
recognised. -/
def haltNow (p : Part) : Option HaltReq :=
  if p.tk.reached then p.tk.haltDue
  else match p.tk.haltReq with | some r => moreSevere p.tk.haltDue r | none => p.tk.haltDue

/-- HALT_TAKES_EFFECT (R412 to R417). -/
def haltTakesEffect (p : Part) : Part :=
  match haltNow p with
  | none => p
  | some r =>
    let m := p.tk.tick
    let covered := if p.tk.reached then m + 1 else 0
    let p := if running p then hastenAccepts (setFld64 p FAB_STOP_TICK_L FAB_STOP_TICK_H (m - 1)) else p
    let start := p.tk.start
    let stops := p.tk.stopCmds
    let halts := if r.part || !swPartHalt p then p.tk.haltCmds else []
    let p := { p with tk := { p.tk with
      fab := if p.tk.fab = .off then .off else .halted
      halt := some r, haltDue := none, haltReq := if p.tk.reached then p.tk.haltReq else none
      start := none, stopAt := none, stopCmds := [], haltCmds := p.tk.haltCmds.filter (fun h => !halts.contains h)
      fabHaltFrom := if r.part then p.tk.fabHaltFrom else some covered
      partHaltFrom := if r.part then some covered else p.tk.partHaltFrom } }
    let kind := if r.part then 2 else 1
    let p := setFld (setFld (setFld p SVN_HALT_KIND kind) SVN_HALT_CLASS (catchCode r.cls)) SVN_HALT_PRE_EPOCH
      (if p.tk.reached then 0 else 1)
    let p := setFld64 p SVN_HALT_TICK_L SVN_HALT_TICK_H m
    let p := raise p 155 [(1, kind), (1, catchCode r.cls), (8, m)]
    let p := match start with | some (h, _) => completeSt p h .errHalted | none => p
    let p := dropTableWrites (completeAll p stops .errHalted 0) .errHalted
    let p := completeAll (haltLoads p) halts .ok 0
    if r.part then
      let p := endCommands p
      if p.boot.ps = .standby then lanesResume (setPartState p .halted)
      else if p.boot.ps = .ready ∨ p.boot.ps = .operating then setPartState p .halted else p
    else unitsLeave p

/-! ### Pins -/

/-- BUSY_OUT (R179, R184, R274, R414) (DEDUCED, log 58). -/
def busyOut (p : Part) : Bool :=
  !executing p || !p.gr.status.acceptReady ||
  (fldOn p FAB_BUSY_STAT_EN && (fldI p FAB_STAT_OUT_L 0).testBit 1)

/-- VETO_OUT (R179, R414, R419). -/
def vetoOut (p : Part) : Bool :=
  p.tk.halt.isSome || (fldOn p FAB_VETO_STAT_EN && (fldI p FAB_STAT_OUT_L 0).testBit 0)

end Sys2Proof.Machine
end

