-- ==== Sys2Proof/Machine/Power.lean ====
section
/-!
DEFINITION. The later boot stages (R426, R430, R432, R433) and the D-states of the PCIe function (R393 to R396).
-/
namespace Sys2Proof.Machine

/-! ### D3hot and D0 -/

/-- HIF_STATUS shows the D-state, and event source 173 reports its change (R388). -/
def setDstate (p : Part) (d : Nat) : Part :=
  let old := fld p HIF_DSTATE
  if old = d then p else raise (setFld p HIF_DSTATE d) 173 [(1, old), (1, d)]

/-- The commands in progress that need DMA or the fabric end with ERR_ABORTED (R393): staging loads, loads being
written, a pending START, held TABLE_WRITEs, a CAPTURE_DISARM that waits for deliveries, DRAINs, and those that wait for
DMA or a self-test. -/
def abortForD3 (p : Part) : Part :=
  let staging := p.loader.jobs.filterMap (fun (j : LoadJob) => j.hdr.map (fun h => (h, jobRegion j)))
  let loads := (p.loader.writing.bind (fun w => w.job.hdr)).toList ++ p.regions.filterMap (fun (r : Region) => r.cmd)
  let starts := (p.tk.start.map (·.1)).toList
  let drains := p.trc.drains.map (·.1)
  let disarms := p.cap.units.flatMap (fun e => match e.2 with | some c => c.cmds | none => [])
  let held := heldCmds p needsDmaOrFabric
  let p := unholdCmds p needsDmaOrFabric
  let p := { p with
    loader := { p.loader with jobs := p.loader.jobs.filter (fun j => j.hdr.isNone) }
    tk := { p.tk with start := none }
    trc := { p.trc with drains := [] }
    cap := { p.cap with units := p.cap.units.map (fun e => (e.1, e.2.map (fun c => { c with cmds := [] }))) } }
  let p := staging.foldl (fun p j => refuseLoad p (some j.1) j.2 ⟨0, .errAborted, 0, 0, none⟩) p
  let p := loads.foldl (fun p h => endLoad p h .errAborted 0 0) p
  completeAll (dropTableWrites p .errAborted) (starts ++ drains ++ disarms ++ held) .errAborted 0

/-- The part enters D3hot (R393, R425): READY and OPERATING become STANDBY; the state HALTED stays. -/
def standby (p : Part) : Part :=
  let p := abortForD3 { p with boot := { p.boot with d3Wanted := false, d3Stopping := false } }
  let p := setDstate { p with host := { p.host with batches := [] } } 3
  if p.boot.ps = .ready ∨ p.boot.ps = .operating then
    lanesStandby (setPartState { p with boot := { p.boot with left := p.boot.ps } } .standby)
  else p

/-- A D3hot request is carried out (R393): a RUNNING fabric first performs a STOP with u1 = 0. -/
def goD3 (p : Part) : Part :=
  if running p then
    let last := match p.tk.stopAt with | some w => min w p.tk.tick | none => p.tk.tick
    { p with tk := { p.tk with stopAt := some last }, boot := { p.boot with d3Wanted := false, d3Stopping := true } }
  else standby p

/-- D3HOT_ENTRY (R393, R425): host software moves the part to D3hot; during BOOT the request waits for stage 7 (DESIGN
CHOICE, log 27). -/
def d3hotEntry (p : Part) : Part :=
  if !p.host.endpointUp || inD3 p then p
  else if p.boot.ps = .boot then { p with boot := { p.boot with d3Wanted := true } }
  else goD3 p

/-- A D3hot request that waited for the fabric goes on once the fabric has left RUNNING (R393). -/
def afterStop (p : Part) : Part := if p.boot.d3Stopping && !running p then standby p else p

/-- ENTER_STOPPED (R183), with what waited for it. -/
def stopReached (p : Part) : Part := afterStop (enterStopped p)

/-- HALT_TAKES_EFFECT (R413), with what waited for the fabric to leave RUNNING. -/
def haltReached (p : Part) : Part := afterStop (haltTakesEffect p)

/-- D0_RETURN (R394 to R396): the part leaves STANDBY for the state it left; the wake is reported, the held completions
are written, and the events held by then are to be written before the next pickup. A request still waiting is taken
back. -/
def d0Return (p : Part) : Part :=
  if inD3 p then
    let p := setDstate p 0
    let p := if p.boot.ps = .standby then lanesResume (setPartState p p.boot.left) else p
    let p := reportWake p
    sendDue (flushHeld { p with host := { p.host with evtHeld := p.host.events.length } })
  else { p with boot := { p.boot with d3Wanted := false, d3Stopping := false } }

/-- HOT_RESET (R370): PCI configuration space is reset, and with it the power state, which becomes D0 (DESIGN CHOICE,
log 62). -/
def hotReset (p : Part) : Part := if p.host.endpointUp then d0Return (resetConfig p) else p

/-- PCIE_LINK_CHANGE (R369, R370): a link that goes down resets PCI configuration space too. -/
def pcieLinkChange (rate : Fin 7) (width : Fin 17) (p : Part) : Part := linkChange hotReset rate width p

/-- WAKE (R395): a wake source acts. A receive group wakes only when it is enabled. -/
def wake (src : WakeSource) (p : Part) : Part :=
  match src with
  | .rxGroup g => if fldI p LNK_RX_EN g.val = 1 then wakeBy 0 g.val p else p
  | .acceptIn => wakeBy 1 0 p
  | .timeAlarm => wakeBy 2 0 p
  | .monitor => wakeBy 3 0 p

/-! ### The end of the boot -/

/-- Has the calibration of the boot ended (R426, R434)? A later run of test 7 is none of stage 5. -/
def calibrationEnded (p : Part) : Bool := fldOn p MON_CAL_VALID || (!calibrating p && !p.mon.calNext)

/-- Has stage 5 ended: no self-test of the boot runs or is to run (R426)? -/
def testsEnded (p : Part) : Bool := (List.range 7).all (fun i => testOf p i != 1) && calibrationEnded p

/-- Is a stack still in stage 6? -/
def stackPending (s : StackState) : Bool := s == .training || s == .initialising

/-- Has stage 6 ended? -/
def stacksEnded (p : Part) : Bool := !stackPending p.boot.stack0 && !stackPending p.boot.stack1

/-- The boot goes on (R425, R426): stage 7, part state READY, once stages 5 and 6 have ended; a D3hot request that
waited for it is carried out. -/
def bootAdvance (p : Part) : Part :=
  if p.boot.ps ≠ .boot ∨ p.boot.stage < 5 then p
  else if !testsEnded p then p
  else if !stacksEnded p then { p with boot := { p.boot with stage := 6 } }
  else
    let p := setPartState { p with boot := { p.boot with stage := 7 } } .ready
    if p.boot.d3Wanted then goD3 p else p

/-- The memories of fabric die `d` become zero with valid check bits (R47, R134): those of the virtual columns placed
on its physical columns (DEDUCED, log 46). -/
def zeroDie (p : Part) (d : Nat) : Part :=
  let keep (col : Nat) : Bool := decide (p.cols.getD col col / 9 ≠ d)
  { p with
    sp := { p.sp with
      dmem := smapFilter (fun k => keep (k / 524288)) p.sp.dmem
      imem := smapFilter (fun k => keep (k / 1048576)) p.sp.imem
      table := smapFilter (fun k => keep (k / 524288)) p.sp.table }
    gr := { p.gr with slots := smapFilter (fun k => keep (k / 262144)) p.gr.slots } }

/-- The local memories of the cores after self-test 5 (R286, R432): written to zero, with the runtime image of the firmware
from address 0 in each (DESIGN CHOICE, log 61). -/
def loadCores (p : Part) : Part :=
  let image := match p.boot.fw with | some f => f.rtImage.take 65536 | none => []
  let one (j : Nat) : List (Nat × Byte) := image.zipIdx.map (fun x => (j * 65536 + x.2, x.1))
  { p with rdo := { p.rdo with coreMem := smapSetMany (fun _ => 0) [] ((List.range 32).flatMap one) } }

/-- The cores that wait for their self-test become idle (R285, R432). -/
def coresReset (p : Part) : Part :=
  let next (c : CoreState) : CoreState := if c = .resetting then .idle else c
  { p with rdo := { p.rdo with
      cores := smapSetMany (fun _ => CoreState.idle) [] (p.rdo.cores.map (fun e => (e.1, next e.2))) } }

/-- SELF_TEST_END (R430, R432, R433): a running self-test of block `i` ends, with its result in event source 201. -/
def selfTestEnd (i : Fin 8) (pass : Bool) (p : Part) : Part :=
  if testOf p i.val ≠ 1 then p
  else
    let p := raise (setTest p i.val (if pass then 2 else 3)) 201 [(1, i.val), (1, if pass then 0 else 1)]
    let p :=
      if i.val < 4 then (if pass then zeroDie p i.val else p)
      else if i.val = 5 then (if pass then startCores (loadCores (coresReset p)) else setFld p SYS_RDO_STARTED 0)
      else if i.val = 7 then calibrationEnd pass p
      else p
    bootAdvance p

/-- HBM_TRAINING_END (R426, R432). -/
def hbmTrainingEnd (stack : Fin 2) (pass : Bool) (p : Part) : Part := bootAdvance (stackTrained stack pass p)

/-- SEALING_INITIALISATION_END (R326, R327, R426). -/
def sealingInitialisationEnd (stack : Fin 2) (entropy : Option (BitVec 384)) (p : Part) : Part :=
  bootAdvance (stackInitialised stack entropy p)

end Sys2Proof.Machine
end

