-- ==== Sys2Proof/Machine/PtpFrame.lean ====
section
/-!
DEFINITION. Frames on the management ports: where a PTP message stands in them (R359), its fields as IEEE 1588-2019 lays
them out (PRESUMED, log 51), and the frames that the part changes or sends (R360, R361).
-/
namespace Sys2Proof.Machine

/-- A number of `n` octets at an offset, first octet most significant. -/
def beAt (b : List Byte) (off n : Nat) : Nat := leNat (sliceBytes b off n).reverse

/-- Bytes written over those at an offset. -/
def putAt (b : List Byte) (off : Nat) (v : List Byte) : List Byte := b.take off ++ v ++ b.drop (off + v.length)

/-- Where the PTP message of a frame stands: the offset of its header, whether it is carried over UDP, and whether the
frame is sent to the group of its transport. -/
structure PtpPlace where
  off : Nat
  udp : Bool
  group : Bool
  deriving DecidableEq, Repr

/-- The group address of IEEE 802.3, 01-1B-19-00-00-00 (R359). -/
def etherGroup : Nat := 0x011B19000000

/-- The group address of UDP/IPv4, 224.0.1.129 (R359). -/
def ipGroup : Nat := 0xE0000181

/-- Find the PTP message of a frame (R359): EtherType 0x88F7, or UDP/IPv4 to port 319 or 320, after at most one IEEE
802.1Q tag. -/
def findPtp (b : List Byte) : Option PtpPlace :=
  let t := if beAt b 12 2 = 0x8100 then 16 else 12
  let ip := t + 2
  let udp := ip + beAt b ip 1 % 16 * 4
  if beAt b t 2 = 0x88F7 then some ⟨ip, false, beAt b 0 6 == etherGroup⟩
  else if beAt b t 2 = 0x0800 ∧ beAt b ip 1 / 16 = 4 ∧ beAt b (ip + 9) 1 = 17 ∧
      (beAt b (udp + 2) 2 = 319 ∨ beAt b (udp + 2) 2 = 320) then some ⟨udp + 8, true, beAt b (ip + 16) 4 == ipGroup⟩
  else none

/-- A PTP message: its messageType and domainNumber, twoStepFlag and unicastFlag, correctionField in units of 2^−16 ns,
sourcePortIdentity, sequenceId, logMessageInterval, and its bytes. -/
structure PtpMsg where
  typ : Nat
  domain : Nat
  twoStep : Bool
  unicast : Bool
  correction : Int
  source : Nat
  port : Nat
  seq : Nat
  logInterval : Int
  bytes : List Byte
  deriving DecidableEq, Repr

/-- Read the PTP message of a frame: versionPTP 2, minorVersionPTP 0 or 1, majorSdoId 0 (R359); none otherwise. -/
def readPtp (b : List Byte) : Option (PtpPlace × PtpMsg) :=
  match findPtp b with
  | none => none
  | some at0 =>
    let m := b.drop at0.off
    if m.length < 34 ∨ beAt m 0 1 / 16 ≠ 0 ∨ beAt m 1 1 % 16 ≠ 2 ∨ 1 < beAt m 1 1 / 16 then none
    else some (at0, {
      typ := beAt m 0 1
      domain := beAt m 4 1
      twoStep := (beAt m 6 1).testBit 1
      unicast := (beAt m 6 1).testBit 2 || !at0.group
      correction := signedOf 64 (beAt m 8 8)
      source := beAt m 20 8
      port := beAt m 28 2
      seq := beAt m 30 2
      logInterval := signedOf 8 (beAt m 33 1)
      bytes := m })

/-- A time stamp of a message, 6 octets of seconds and 4 of nanoseconds, in ns. -/
def PtpMsg.stampNs (m : PtpMsg) : Nat := beAt m.bytes 34 6 * 10 ^ 9 + beAt m.bytes 40 4

/-- How a frame passes through the transparent clock (R359, R360): an event message whose correctionField the part
updates; a two-step Sync or a Follow_Up; a message that it passes unchanged and counts; any other frame. -/
inductive MgmtKind where
  | event
  | twoStep
  | pass
  | other
  deriving DecidableEq, Repr

/-- The kind of a frame (R359, R360). -/
def mgmtKind (b : List Byte) : MgmtKind :=
  match readPtp b with
  | none => .other
  | some (_, m) =>
    if m.unicast then .pass
    else match m.typ with
      | 0 => if m.twoStep then .twoStep else .event
      | 1 => .event
      | 8 => .twoStep
      | 2 | 3 | 10 | 12 | 13 => .pass
      | _ => .other

/-- A frame with its FCS computed: the CRC-32 of the bytes before it, in its last four bytes. -/
def withFcs (b : List Byte) : List Byte :=
  let body := b.take (b.length - 4)
  body ++ leBytes 4 (crc32 body)

/-- An event message with a residence time, in units of 2^−16 ns, added to its correctionField (R360): over UDP its
checksum becomes 0, and the FCS is computed again. -/
def corrected (b : List Byte) (stay : Int) : List Byte :=
  match readPtp b with
  | none => b
  | some (at0, m) =>
    let b := putAt b (at0.off + 8) (beBytes 8 ((m.correction + stay) % 2 ^ 64).toNat)
    withFcs (if at0.udp then putAt b (at0.off - 2) (beBytes 2 0) else b)

/-- The sum of 16-bit words in ones' complement, as the IPv4 header checksum takes it. -/
def onesSum (l : List Byte) : Nat :=
  let sum := ((List.range (l.length / 2)).map (fun i => beAt l (2 * i) 2)).sum
  let sum := sum / 65536 + sum % 65536
  sum / 65536 + sum % 65536

/-- An IPv4 header for a payload of UDP, with its checksum. -/
def ipHeader (source payload : Nat) : List Byte :=
  let head (sum : Nat) : List Byte :=
    [0x45, 0] ++ beBytes 2 (20 + payload) ++ beBytes 4 0 ++ [1, 17] ++ beBytes 2 sum ++ beBytes 4 source ++ beBytes 4 ipGroup
  head (65535 - onesSum (head 0))

/-- The Delay_Req message of an ordinary clock with this clockIdentity, portNumber 1 (R361): minorVersionPTP 1. -/
def delayReqMessage (identity domain seq : Nat) : List Byte :=
  [1, 0x12] ++ beBytes 2 44 ++ beBytes 1 domain ++ beBytes 1 0 ++ beBytes 2 0 ++ beBytes 8 0 ++ beBytes 4 0 ++
  beBytes 8 identity ++ beBytes 2 1 ++ beBytes 2 seq ++ [1, 0x7F] ++ beBytes 10 0

/-- The frame of a message (R359): over IEEE 802.3, or over UDP/IPv4 from the event port to itself; at least 64 bytes. -/
def ptpFrame (udp : Bool) (mac ip : Nat) (msg : List Byte) : List Byte :=
  let body :=
    if udp then beBytes 6 0x01005E000181 ++ beBytes 6 mac ++ beBytes 2 0x0800 ++ ipHeader ip (8 + msg.length) ++
      beBytes 2 319 ++ beBytes 2 319 ++ beBytes 2 (8 + msg.length) ++ beBytes 2 0 ++ msg
    else beBytes 6 etherGroup ++ beBytes 6 mac ++ beBytes 2 0x88F7 ++ msg
  withFcs (fitBytes (max 60 body.length) body ++ [0, 0, 0, 0])

end Sys2Proof.Machine
end

