-- ==== Sys2Proof/Machine/Ptp.lean ====
section
/-!
DEFINITION. The management ports (R359, R360) and the ordinary clock (R361, R362).
-/
namespace Sys2Proof.Machine

/-- Is the link of a management port up? -/
def mgmtUp (p : Part) (port : Nat) : Bool := (fld p PTP_LINK_UP).testBit port

/-- The port of the ordinary clock. -/
def ocPort (p : Part) : Nat := fld p PTP_OC_PORT

/-- Does the ordinary clock work (R361)? -/
def ocOn (p : Part) : Bool := fldOn p PTP_OC_EN && (fld p PTP_MAC_A != 0 || fld p PTP_MAC_B != 0)

/-- The octets of PTP_MAC, octet 0 first. -/
def macOctets (p : Part) : List Byte := leBytes 4 (fld p PTP_MAC_A) ++ leBytes 2 (fld p PTP_MAC_B)

/-- The clockIdentity of the ordinary clock (R361): PTP_MAC with FF FE after the third octet. -/
def clockIdentity (p : Part) : Nat :=
  let m := macOctets p
  beAt (m.take 3 ++ [0xFF, 0xFE] ++ m.drop 3) 0 8

/-- The message that a frame on its port brings the ordinary clock (R359, R361): one of the type asked for, multicast, over
its transport, in its domain, while it works and its port's link is up. -/
def ocMessage (p : Part) (typ : Nat) (frame : List Byte) : Option PtpMsg :=
  match readPtp frame with
  | none => none
  | some (at0, m) =>
    if m.typ = typ ∧ m.unicast = false ∧ at0.udp = fldOn p PTP_TRANSPORT ∧ m.domain = fld p PTP_DOMAIN ∧ ocOn p = true ∧
        mgmtUp p (ocPort p) = true then some m
    else none

/-- The state of the ordinary clock as PTP_OC_STATE codes it: 0 INITIALIZING while it does not work, 4 FAULTY while
its link is down, 1 LISTENING without a master, 2 UNCALIBRATED until a path delay has been measured, 3 SLAVE
(PRESUMED, log 51). -/
def ocState (p : Part) : Nat :=
  if !ocOn p then 0
  else if !mgmtUp p (ocPort p) then 4
  else if p.tim.ptp.master.isNone then 1
  else if p.tim.ptp.delays.isEmpty then 2 else 3

/-- A clockIdentity as the registers and events hold it: octet 0 in bits [7:0] (R8). -/
def idBytes (id : Nat) : Nat := leNat (leBytes 8 id).reverse

/-- The clockIdentity of the master; 0 when there is none. -/
def masterId (p : Part) : Nat := match p.tim.ptp.master with | some a => idBytes a.source | none => 0

/-- Event source 143 when the master or the state of the ordinary clock differs from what it was (R361). -/
def ocReport (before p : Part) : Part :=
  if masterId before = masterId p ∧ ocState before = ocState p then p
  else raise p 143 [(1, ocState p), (8, masterId p)]

/-- The data sets of two masters, compared (R361): is `a` the better? (PRESUMED, log 51) -/
def betterMaster (a b : Announce) : Bool :=
  let first := [(a.priority1, b.priority1), (a.clockClass, b.clockClass), (a.accuracy, b.accuracy), (a.variance, b.variance),
                (a.priority2, b.priority2), (a.gm, b.gm)]
  let same := [(a.steps, b.steps), (a.source, b.source), (a.port, b.port)]
  match ((if a.gm = b.gm then [] else first) ++ same).find? (fun x => x.1 != x.2) with
  | some (x, y) => decide (x < y)
  | none => false

/-- The best of the masters heard. -/
def bestMaster : List Announce → Option Announce
  | [] => none
  | a :: l => match bestMaster l with
    | none => some a
    | some b => if betterMaster b a then some b else some a

/-- Do two Announces come from one sender? -/
def sameSender (a b : Announce) : Bool := a.source == b.source && a.port == b.port

/-- Select the master among those heard; a new one starts without measurements (R361), and the UTC offset is that of
the master (R362). -/
def selectMaster (p : Part) : Part :=
  let t := p.tim.ptp
  let best := bestMaster t.heard
  let kept := match t.master, best with
    | some a, some b => sameSender a b
    | none, none => true
    | _, _ => false
  let t := if kept then { t with master := best }
           else { t with master := best, sync := none, last21 := none, req := none, delays := [] }
  let p := { p with tim := { p.tim with ptp := t } }
  match best with
  | some b => setFld (setFld p PTP_UTC_OFS (wrapCode 16 b.utc)) PTP_UTC_VALID (if b.utcValid then 1 else 0)
  | none => p

/-- The data set of an Announce. -/
def announceOf (m : PtpMsg) : Announce where
  priority1 := beAt m.bytes 47 1
  clockClass := beAt m.bytes 48 1
  accuracy := beAt m.bytes 49 1
  variance := beAt m.bytes 50 2
  priority2 := beAt m.bytes 52 1
  gm := beAt m.bytes 53 8
  steps := beAt m.bytes 61 2
  source := m.source
  port := m.port
  utc := signedOf 16 (beAt m.bytes 44 2)
  utcValid := (beAt m.bytes 7 1).testBit 2

/-- PTP_ANNOUNCE (R361, R362). -/
def ptpAnnounce (frame : List Byte) (p : Part) : Part :=
  match ocMessage p 11 frame with
  | none => p
  | some m =>
    let a := announceOf m
    if a.steps < 255 then
      let t := p.tim.ptp
      ocReport p (selectMaster { p with tim := { p.tim with ptp := { t with heard := a :: t.heard.filter (fun b => !sameSender a b) } } })
    else p

/-- ANNOUNCE_TIMEOUT (R361): the master has sent no Announce for PTP_ANN_TIMEOUT intervals and is dropped. -/
def announceTimeout (p : Part) : Part :=
  match p.tim.ptp.master with
  | none => p
  | some a =>
    let t := p.tim.ptp
    ocReport p (selectMaster { p with tim := { p.tim with ptp := { t with heard := t.heard.filter (fun b => !sameSender a b) } } })

/-- A message of the master, of the type asked for. -/
def masterMessage (p : Part) (typ : Nat) (frame : List Byte) : Option PtpMsg :=
  (ocMessage p typ frame).filter (fun m => match p.tim.ptp.master with
    | some a => a.source == m.source && a.port == m.port
    | none => false)

/-- The mean of the path delays kept, in units of 2^−32 ns (R361). -/
def pathDelay (p : Part) : Int :=
  if p.tim.ptp.delays.isEmpty then 0 else p.tim.ptp.delays.sum / (p.tim.ptp.delays.length : Int)

/-- A correctionField, in units of 2^−32 ns. -/
def corrUnits (c : Int) : Int := c * 2 ^ 16

/-- The time stamp of a message in units of 2^−32 ns. -/
def stampUnits (m : PtpMsg) : Int := (m.stampNs * nsUnit : Nat)

/-- A Sync with t1 and t2 known (R349, R361). -/
def syncOffset (p : Part) (t1 t2 : Int) : Part :=
  let p := { p with tim := { p.tim with ptp := { p.tim.ptp with last21 := some (t2 - t1), sync := none } } }
  let theta := (t2 - t1) - pathDelay p - psField p PTP_ASYM_PS (ocPort p)
  if fld p TIM_SRC = 0 then takeTheta p theta (t2 % (timeSpan : Int)).toNat else p

/-- PTP_SYNC (R357, R358, R361): its ingress instant, and the originTimestamp of a one-step master. -/
def ptpSync (frame : List Byte) (frac : Fin 512) (p : Part) : Part :=
  match masterMessage p 0 frame with
  | none => p
  | some m =>
    let t2 : Int := (instant p frac : Int) - psField p PTP_ING_PS (ocPort p)
    if m.twoStep then { p with tim := { p.tim with ptp := { p.tim.ptp with sync := some (m.seq, t2, m.correction) } } }
    else ocReport p (syncOffset p (stampUnits m + corrUnits m.correction) t2)

/-- PTP_FOLLOW_UP (R361): it completes t1 of the Sync with its sequence number. -/
def ptpFollowUp (frame : List Byte) (p : Part) : Part :=
  match p.tim.ptp.sync, masterMessage p 8 frame with
  | some (seq, t2, c), some m =>
    if seq = m.seq then ocReport p (syncOffset p (stampUnits m + corrUnits (m.correction + c)) t2) else p
  | _, _ => p

/-! ### Frames that leave -/

/-- The time that a frame keeps a port busy: its bytes, the preamble and the gap before the next, 0.32 ns each at 25 Gb/s
(PRESUMED, log 51). -/
def frameTime (frame : List Byte) : Nat := (frame.length + 20) * 8 * nsUnit / 25

/-- The device time at which a port is idle. -/
def portFree (p : Part) (port : Nat) : Nat := smapGet (fun _ => 0) p.tim.ptp.egressFree port

/-- A frame leaves by a port at an instant (R360): it is kept until device time reaches its launch and the next frame
follows. -/
def launchFrame (p : Part) (port launch : Nat) (frame : List Byte) : Part :=
  let t := p.tim.ptp
  { p with tim := { p.tim with ptp := { t with
      egress := t.egress.filter (fun e => decide (p.now < e.launch)) ++ [⟨port, launch, frame⟩]
      egressFree := smapSet (fun _ => 0) t.egressFree port (launch + frameTime frame) } } }

/-- DELAY_REQ_SEND (R358, R361): the frame leaves, and its egress stamp is t3. -/
def delayReqSend (frac : Fin 512) (p : Part) : Part :=
  if ocOn p && mgmtUp p (ocPort p) && p.tim.ptp.master.isSome then
    let t := p.tim.ptp
    let seq := (t.reqSeq + 1) % 65536
    let t3 : Int := (instant p frac : Int) + psField p PTP_EGR_PS (ocPort p)
    let frame := ptpFrame (fldOn p PTP_TRANSPORT) (beAt (macOctets p) 0 6) (fld p PTP_IP)
      (delayReqMessage (clockIdentity p) (fld p PTP_DOMAIN) seq)
    launchFrame { p with tim := { p.tim with ptp := { t with reqSeq := seq, req := some (seq, t3) } } } (ocPort p)
      (instant p frac) frame
  else p

/-- PTP_DELAY_RESP (R361): the answer to the part's own Delay_Req gives t4 and one more path delay. -/
def ptpDelayResp (frame : List Byte) (p : Part) : Part :=
  match p.tim.ptp.req, masterMessage p 9 frame with
  | some (seq, t3), some m =>
    if seq = m.seq ∧ beAt m.bytes 44 8 = clockIdentity p ∧ beAt m.bytes 52 2 = 1 then
      let t4 := stampUnits m - corrUnits m.correction
      let t := p.tim.ptp
      let delays := match t.last21 with
        | some d => (((d + (t4 - t3)) / 2) :: t.delays).take (fld p PTP_DELAY_AVG + 1)
        | none => t.delays
      ocReport p { p with tim := { p.tim with ptp := { t with req := none, delays := delays, logReq := m.logInterval } } }
    else p
  | _, _ => p

/-- MGMT_LINK_CHANGE: event source 144 (R368); a port whose link goes down drops the frames that wait for it (R360). -/
def mgmtLinkChange (port : Fin 2) (up : Bool) (p : Part) : Part :=
  if mgmtUp p port.val = up then p
  else
    let t := p.tim.ptp
    let left := if up then t.egress else t.egress.filter (fun e => e.port != port.val || decide (e.launch ≤ p.now))
    let q := { p with tim := { p.tim with ptp := { t with egress := left } } }
    let q := setFld q PTP_LINK_UP (natPut (fld p PTP_LINK_UP) port.val 1 (if up then 1 else 0))
    ocReport p (raise q 144 [(1, port.val), (1, if up then 1 else 0)])

/-- The count of 1/512 cycles after the last edge at or after an instant (R357). -/
def gridAfter (p : Part) (x : Nat) : Nat := ((x - p.now) * 512 + incNow p - 1) / incNow p

/-- MGMT_FRAME (R358 to R360): a frame that arrives on a port leaves by the other, unless forwarding is off or that link is
down. It is detected `frac` after the last edge and leaves `through` later, or when the port has sent the frames before
it. -/
def mgmtFrame (port : Fin 2) (frame : List Byte) (frac : Fin 512) (through : Nat) (p : Part) : Part :=
  let out := 1 - port.val
  if !fldOn p PTP_TC_EN || !mgmtUp p out then p
  else
    let launch := gridInstant p (max (frac.val + through) (gridAfter p (portFree p out)))
    let stay : Int := (launch : Int) + psField p PTP_EGR_PS out - ((instant p frac : Int) - psField p PTP_ING_PS port.val)
    match mgmtKind frame with
    | .event => bumpFldI (launchFrame p out launch (corrected frame (stay / 2 ^ 16))) PTP_CORR_COUNT out 1
    | .twoStep => bumpFldI (launchFrame p out launch frame) PTP_TWOSTEP_COUNT out 1
    | .pass => bumpFldI (launchFrame p out launch frame) PTP_PASS_COUNT out 1
    | .other => launchFrame p out launch frame

end Sys2Proof.Machine
end

