-- ==== Sys2Proof/Machine/RegView.lean ====
section
/-!
DEFINITION. What a read of a register returns: its bits in the register file, with the read-only fields that mirror
other state formed at the read.
-/
namespace Sys2Proof.Machine

/-- The number of a register in its array, from its distance to the first (row-major over the dimensions). -/
def indexOf : List (Nat × Nat) → Nat → Nat
  | [], _ => 0
  | [(s, _)], d => d / s
  | (s, _) :: (t, n) :: _, d => d / s * n + d % s / t

/-- A field that mirrors other state, with its value in register number `i`. -/
abbrev View := FieldRow × (Part → Nat → Nat)

/-- One bit. -/
def bitN (b : Bool) : Nat := if b then 1 else 0

/-- A count held in a field of `w` bits, saturating. -/
def satN (w n : Nat) : Nat := min n (2 ^ w - 1)

/-- FAB_STATE_CODE (R180). -/
def fabCode : FabState → Nat
  | .off => 0 | .loaded => 1 | .admitted => 2 | .running => 3 | .stopped => 4 | .halted => 5

/-- CFG_REGION_STATE's codes. -/
def regionCode : RegionState → Nat
  | .empty => 0 | .loading => 1 | .held => 2 | .live => 3

/-- CFG_LOADER: 3 writing, 2 checking (a configuration stream that has ended), 1 staging, 0 idle. -/
def loaderCode (p : Part) : Nat :=
  if loaderWriting p then 3
  else match p.loader.jobs with
    | j :: _ => if j.hdr.isNone then 2 else 1
    | [] => if p.loader.stream.isSome then 1 else 0

/-- FAB_HALT_KIND (R414). -/
def haltKind (p : Part) : Nat := match p.tk.halt with | some h => if h.part then 2 else 1 | none => 0

/-- SYS and HST. -/
def sysViews : List View :=
  [(SYS_ORDER, fun p _ => orderOf p), (SYS_PART_STATE, fun p _ => p.boot.ps.code), (SYS_BOOT_STAGE, fun p _ => p.boot.stage),
   (SYS_PRESENT_MAP, fun p _ => presentMap p), (SYS_SERIAL_L, fun p _ => otpField p.boot.otpRead 0 0 4 0),
   (SYS_SERIAL_H, fun p _ => otpField p.boot.otpRead 0 4 4 0)]

/-- HST_SELFTEST: two bits for each test (R432). -/
def hstViews : List View :=
  [(HST_ST_RESULT, fun p _ => ((List.range 10).map (fun i => testOf p i * 4 ^ i)).sum)]

/-- HIF. -/
def hifViews : List View :=
  [(HIF_CMD_INFLIGHT, fun p i => satN 16 (p.host.inflight.filter (fun e => e.hdr.ring.val == i)).length)]

/-- CFG. -/
def cfgViews : List View :=
  [(CFG_LOADER, fun p _ => loaderCode p), (CFG_STREAM_ACTIVE, fun p _ => bitN p.loader.stream.isSome),
   (CFG_SELECTED, fun p _ => bitN p.loader.selected), (CFG_DONE_LOW, fun p _ => bitN p.loader.doneLow),
   (CFG_GAP, fun p _ => bitN p.loader.gap), (CFG_ADDRESS, fun p _ => cfgAddress p),
   (CFG_ADDR_PINS, fun p _ => match otpPayload p.boot.otpRead 5 with
     | none => 1
     | some b => 1 - natBits (leAt b 0 4) 12 1),
   (CFG_REG_STATES, fun p _ => ((List.range 8).map (fun k => regionCode (regionAt p k).state * 4 ^ k)).sum)]

/-- FAB. -/
def fabViews : List View :=
  [(FAB_STATE_CODE, fun p _ => fabCode p.tk.fab), (FAB_HALT_KIND, fun p _ => haltKind p),
   (FAB_START_PENDING, fun p _ => bitN (startPending p)),
   (FAB_EPOCH_REACHED, fun p _ => bitN (p.tim.run && decide (epochE p ≤ p.now))),
   (FAB_TICK_L, fun p _ => p.tk.tick), (FAB_TICK_H, fun p _ => p.tk.tick / 2 ^ 32)]

/-- GRN. -/
def grnViews : List View :=
  [(GRN_COLS_PER_DIE, fun p _ => blankC p), (GRN_ROWS, fun p _ => if p.blank.isSome then 32 else 0),
   (GRN_VCOLS, fun p _ => blankCv p), (GRN_SEAM0, fun p _ => blankC p - 1), (GRN_SEAM1, fun p _ => 2 * blankC p - 1),
   (GRN_SEAM2, fun p _ => 3 * blankC p - 1),
   (GRN_TBL_WAITING, fun p _ => tablesHeld p)]

/-- The smallest of the slacks of a receive lane (R194); 0 while none has been measured. -/
def slackMin : List Nat → Nat
  | [] => 0
  | s :: l => l.foldl min s

/-- LNK. -/
def lnkViews : List View :=
  [(LNK_RX_STATE, fun p n => laneCode (rxLane p n).st), (LNK_PAYLOAD_EN, fun p n => bitN (decide (16 ≤ (rxLane p n).run))),
   (LNK_RX_CAUSE, fun p n => (rxLane p n).cause), (LNK_ATTEMPTS, fun p n => satN 8 (rxLane p n).attempts),
   (LNK_HALT_SEEN, fun p n => bitN (rxLane p n).halt), (LNK_PEER_LANE, fun p n => (rxLane p n).peerLane),
   (LNK_PEER_VALID, fun p n => bitN (rxLane p n).peerValid), (LNK_PEER_IDENT, fun p n => (rxLane p n).peerIdent),
   (LNK_SMIN, fun p n => satN 32 (slackMin (rxLane p n).slacks)),
   (LNK_SMAX, fun p n => satN 32 ((rxLane p n).slacks.foldl max 0)),
   (LNK_TX_STATE, fun p n => laneCode (txLane p n).st), (LNK_TX_RDO, fun p n => bitN (rdoLane p n)),
   (LNK_TX_HALT, fun p n => bitN ((txLane p n).halt && (txLane p n).sentTick == some p.tk.tick)),
   (LNK_TX_CAUSE, fun p n => (txLane p n).cause)]

/-- HIS. -/
def hisViews : List View :=
  [(HIS_K, fun p _ => ticksPerPage (histH p)), (HIS_H, fun p _ => histH p), (HIS_PG_FREE_COUNT, fun p _ => freePages p),
   (HIS_PG_RETAINED_COUNT, fun p _ => pagesIn p .retained), (HIS_PG_PINNED_COUNT, fun p _ => pagesIn p .pinned),
   (HIS_PG_FILLING, fun p _ => pagesIn p .filling), (HIS_PG_INFLIGHT, fun p _ => pagesIn p .spill + pagesIn p .release),
   (HIS_ACC_USED, fun p _ => p.his.accepts.length), (HIS_ACC_FULL, fun p _ => bitN (acceptFree p == 0))]

/-- RDO. -/
def rdoViews : List View :=
  [(RDO_NODES, fun p _ => (graphNodes p).length), (RDO_GRAPH_VALID, fun p _ => bitN p.rdo.graph.isSome),
   (RDO_COST, fun p _ => match p.rdo.graph with | some g => g.cost | none => 0), (RDO_INST_NOW, fun p _ => p.rdo.insts.length),
   (RDO_PARK_NOW, fun p _ => p.rdo.parked.length),
   (RDO_IDLE, fun p _ => if fldOn p SYS_RDO_STARTED then bitMap 32 (fun j => coreState p j == .idle) else 0),
   (RDO_DEPTH_NOW, fun p k => levelDepth p k)]

/-- CAP_Un_STATE's codes (R297). -/
def capCode : CapSt → Nat
  | .off => 0 | .waiting => 1 | .recording => 2 | .dead => 3 | .full => 4

/-- CAP. -/
def capViews : List View :=
  [(CAP_STATE, fun p u => match capUnit p u with | some c => capCode c.st | none => 0),
   (CAP_SLOTS_HELD, fun p u => match capUnit p u with | some c => c.segs.length | none => 0),
   (CAP_SEG_COUNT, fun p u => match capUnit p u with | some c => c.seq | none => 0),
   (CAP_AREA_BLOCKS, fun p _ => areaUse p (fun c => c.slots.toNat * slotBytes c / 64)),
   (CAP_AREA_SLOTS, fun p _ => areaUse p (fun c => c.slots.toNat))]

/-- TRC_STATE's codes. -/
def trcCode : TrcSt → Nat
  | .idle => 0 | .running => 1 | .triggered => 2 | .frozen => 3

/-- TRC. -/
def trcViews : List View :=
  [(TRC_STATE, fun p _ => trcCode p.trc.st), (TRC_DRAINING, fun p _ => bitN (!p.trc.drains.isEmpty)),
   (TRC_CHAL, fun p k => challengeWord p k)]

/-- SEAL_USE of a region as its 48-bit register shows it, saturated (R14, R338). -/
def shownUse (p : Part) (k : Nat) : Nat := min (rgnUse p k) (2 ^ 48 - 1)

/-- SEAL. -/
def sealViews : List View :=
  [(SEAL_STATE, fun p _ => sealState p), (SEAL_ID_LINES, fun p j => idLines p j), (SEAL_USE_L, fun p k => shownUse p k),
   (SEAL_USE_H, fun p k => shownUse p k / 2 ^ 32)]

/-- A rate in units of 2^−48 ppb times INC_BASE, in ppb. -/
def ppbOf (p : Part) (x : Int) : Int := x / (2 ^ 48 * incBase p : Nat)

/-- TIM. -/
def timViews : List View :=
  [(TIM_SRV_STATE, fun p _ => srvCode p.tim.srv), (TIM_AT_LIMIT, fun p _ => bitN p.tim.atLimit),
   (TIM_SLEWING, fun p _ => bitN p.tim.slewing), (TIM_NOW_F, fun p _ => p.now), (TIM_NOW_N, fun p _ => nsOf p.now),
   (TIM_NOW_S_L, fun p _ => secOf p.now), (TIM_NOW_S_H, fun p _ => secOf p.now / 2 ^ 32), (TIM_INC_F, fun p _ => incNow p),
   (TIM_INC_N, fun p _ => incNow p / 2 ^ 32), (TIM_THETA_PS, fun p _ => satCode 32 (psOfUnits p.tim.theta)),
   (TIM_Y_PPB, fun p _ => wrapCode 32 (ppbOf p (totalRate p))), (TIM_I_PPB, fun p _ => wrapCode 32 (p.tim.integ / 2 ^ 48)),
   (TIM_LEFT_NS, fun p _ => if p.tim.slewing then satCode 32 (p.tim.slewLeft / (nsUnit : Int)) else 0)]

/-- PTP. -/
def ptpViews : List View :=
  [(PTP_OC_STATE, fun p _ => ocState p), (PTP_DELAY_PS, fun p _ => satCode 32 (psOfUnits (pathDelay p))),
   (PTP_MASTER_ID_L, fun p _ => masterId p), (PTP_MASTER_ID_H, fun p _ => masterId p / 2 ^ 32)]

/-- Error record `e` (R406, R407). -/
def errorRecord (p : Part) (e : Nat) : ErrorRecord := p.svn.errorLog.getD e ⟨0, 0, 0, 0, 0⟩

/-- SVN. -/
def svnViews : List View :=
  [(SVN_EREC_HELD, fun p _ => p.svn.errorLog.length), (SVN_CATCH_HELD, fun p _ => p.tk.catchLog.length),
   (SVN_EREC_INIT, fun p e => (errorRecord p e).init), (SVN_EREC_TGT, fun p e => (errorRecord p e).tgt),
   (SVN_EREC_CAUSE, fun p e => (errorRecord p e).cause), (SVN_EREC_ADDR_L, fun p e => (errorRecord p e).addr),
   (SVN_EREC_ADDR_H, fun p e => (errorRecord p e).addr / 2 ^ 32), (SVN_EREC_NS, fun p e => (errorRecord p e).ns)]

/-- MON. -/
def monViews : List View :=
  [(MON_CUR_CH, fun p _ => match p.mon.cur with | some c => c.ch | none => 0), (MON_CALIBRATING, fun p _ => bitN (calibrating p)),
   (MON_URGENT, fun p _ => bitN (match p.mon.cur with | some c => c.urgent | none => false))]

/-- OTP: what it held at the last reset. -/
def otpViews : List View :=
  [(OTP_PRES, fun p _ => bitMap 9 (fun k => (otpInForce p.boot.otpRead k).isSome)),
   (OTP_FRZ, fun p _ => bitMap 9 (fun k => otpUsedCount p.boot.otpRead k == (otpArea k).2.2.2)),
   (OTP_GEN_IN_FORCE, fun p k => (otpInForce p.boot.otpRead k).getD 0),
   (OTP_GEN_USED, fun p k => otpUsedCount p.boot.otpRead k),
   (OTP_GEN_VALID, fun p k => bitN (otpInForce p.boot.otpRead k).isSome),
   (OTP_BYTES, fun p k => leNat (otpRange p.boot.otpRead (4 * k) 4))]

/-- The views of the block that holds a BAR0 offset. -/
def viewsOfBlock (blk : Nat) : List View :=
  match blk with
  | 0 => sysViews
  | 1 => hifViews
  | 2 => cfgViews
  | 3 => fabViews
  | 4 => grnViews
  | 5 => lnkViews
  | 6 => hisViews
  | 7 => rdoViews
  | 8 => capViews
  | 9 => trcViews
  | 10 => sealViews
  | 11 => timViews
  | 12 => ptpViews
  | 13 => svnViews
  | 14 => monViews
  | 15 => otpViews
  | 16 => hstViews
  | _ => []

/-- What the register at a BAR0 offset reads as, before any latch (R9 to R11). `balls` are the levels at the edge I/O
balls. -/
def regView (p : Part) (balls : BitVec 64) (off : Nat) : Nat :=
  if off = GIO_LEVEL_L.off then balls.toNat % 2 ^ 32
  else if off = GIO_LEVEL_H.off then balls.toNat / 2 ^ 32
  else if (rowsAt off).isEmpty then 0
  else
    ((viewsOfBlock (off / 0x100000)).filter (fun x => x.1.hits off)).foldl
      (fun v x => natPut v x.1.lo x.1.width (x.2 p (indexOf x.1.dims (off - x.1.off)))) (regAt p off).toNat

end Sys2Proof.Machine
end

