-- ==== Sys2Proof/Machine/Bus.lean ====
section
/-!
DEFINITION. Register accesses: reads with their latches (R9 to R12, R345), writes under the access codes, the lock and
the ranges (R9, R13, R180, R469), ring and page setup (R390), the debug windows (R67, R199), and the I²C target (R431).
-/
namespace Sys2Proof.Machine

/-! ### Reads -/

/-- Latch the high word for the next read of it (R12) (DESIGN CHOICE, log 19). -/
def latchWord (p : Part) (off v : Nat) : Part := { p with hiLatch := smapSet (fun _ => none) p.hiLatch off (some v) }

/-- A latched word, if one waits. -/
def latched (p : Part) (off : Nat) : Option Nat := smapGet (fun _ => none) p.hiLatch off

/-- Drop a latched word. -/
def unlatch (p : Part) (off : Nat) : Part := { p with hiLatch := smapSet (fun _ => none) p.hiLatch off none }

/-- The RC fields of a register are cleared (R9). -/
def clearRc (p : Part) (off : Nat) : Part :=
  setRegAt p off (BitVec.ofNat 32 (((rowsAt off).filter (fun f => f.acc == .rc)).foldl
    (fun v f => natPut v f.lo f.width 0) (regAt p off).toNat))

/-- A read of a register at a BAR0 offset below the debug windows (R9 to R12): the part after it, and the value. A
latched high word is returned once. -/
def readReg (p : Part) (balls : BitVec 64) (off : Nat) : Part × Nat :=
  match latched p off with
  | some v => (unlatch p off, v)
  | none =>
    let v := regView p balls off
    let p := if isPairLow off then latchWord p (off + 4) (regView p balls (off + 4)) else p
    (clearRc p off, v)

/-- A read of TIM_NOW_FRAC (R345): it latches NS and SEC of the same instant. -/
def readNow (p : Part) : Part × Nat :=
  let at' (f : FieldRow) : Nat := regView p 0 f.off
  (latchWord (latchWord (latchWord p TIM_NOW_N.off (at' TIM_NOW_N)) TIM_NOW_S_L.off (at' TIM_NOW_S_L))
    TIM_NOW_S_H.off (at' TIM_NOW_S_H), at' TIM_NOW_F)

/-- The stored word that a debug window presents at a distance into a billet (R199). -/
def windowWord (p : Part) (b d : Nat) : EccWord :=
  if d < 0x20000 then tword p (b * 16384 + d / 8)
  else if d < 0x40000 then dword p ((b * 64 + (d - 0x20000) / 0x800) * 256 + (d - 0x20000) % 0x800 / 8)
  else iword p ((b * 64 + (d - 0x40000) / 0x1000) * 512 + (d - 0x40000) % 0x1000 / 8)

/-- A read through a debug window met a double-bit error: the status, with the first such word (R67, R199). -/
def debugError (p : Part) (off : Nat) : Part :=
  let p := if fldOn p FAB_DBG_READ_ERR then p else setFld p FAB_DBG_ERR_WORD ((off - 0x2000000) / 8)
  setFld p FAB_DBG_READ_ERR 1

/-- A read of a debug window that gives 0 (R199); of a low word it latches 0 for the high word (R12). -/
def readNothing (p : Part) (off : Nat) : Part × Nat := (if off % 8 = 0 then latchWord p (off + 4) 0 else p, 0)

/-- A read of a debug window (R67, R199): corrected data of a word with a single-bit error, the stored bits of one with
a double-bit error; 0 outside STOPPED and HALTED and outside the loaded grid. A latched high word is returned whatever has
become of the fabric since (R12) (DESIGN CHOICE, log 19). -/
def readWindow (p : Part) (off : Nat) : Part × Nat :=
  match latched p off with
  | some v => (unlatch p off, v)
  | none =>
    let b := 64 * fld p FAB_DBG_PAGE_SEL + (off - 0x2000000) / 0x80000
    if p.tk.fab ≠ .stopped ∧ p.tk.fab ≠ .halted then readNothing (setFld p FAB_DBG_STATE_ERR 1) off
    else if 32 * blankCv p ≤ b then readNothing (setFld p FAB_DBG_RANGE_ERR 1) off
    else
      let c := windowWord p b ((off - 0x2000000) % 0x80000 / 8 * 8)
      let p := if eccKind c = .double then debugError p off else p
      let w := if eccKind c = .double then (storedData c).toNat else (eccData c).toNat
      if off % 8 = 0 then (latchWord p (off + 4) (w / 2 ^ 32), w % 2 ^ 32) else (p, w / 2 ^ 32)

/-- A read at any BAR0 offset. -/
def busRead (p : Part) (balls : BitVec 64) (off : Nat) : Part × Nat :=
  if 0x2000000 ≤ off ∧ off < 0x4000000 then readWindow p off
  else if off = TIM_NOW_F.off then readNow p
  else readReg p balls off

/-- A read that the host or a management master makes. -/
def readInto (balls : BitVec 64) (off : Nat) (p : Part) : Part :=
  let (p, v) := busRead p balls off
  { p with readData := v }

/-- LOW_WORD_READ (R9 to R12). -/
def lowWordRead (off : BitVec 26) (balls : BitVec 64) (p : Part) : Part := readInto balls off.toNat p

/-- READ_CLEAR (R9). -/
def readClear (off : BitVec 26) (balls : BitVec 64) (p : Part) : Part := readInto balls off.toNat p

/-- TIM_NOW_FRAC_READ (R345). -/
def timNowFracRead (p : Part) : Part := readInto 0 TIM_NOW_F.off p

/-- DEBUG_WINDOW_READ (R199): an offset into the windows, 0x0200_0000 to 0x03FF_FFFF. -/
def debugWindowRead (off : BitVec 25) (p : Part) : Part := readInto 0 (0x2000000 + off.toNat) p

/-! ### Writes -/

/-- Does a write of `v` set a field that holds a value: its access allows it, and the value is one the field may take
(R9, R469)? -/
def fieldTakes (p : Part) (f : FieldRow) (v : Nat) : Bool :=
  match f.acc with
  | .rw => f.admits (natBits v f.lo f.width)
  | .rwl => !locked p && f.admits (natBits v f.lo f.width)
  | _ => false

/-- A field after a write of `v` to its register (R9, R469). -/
def fieldAfter (p : Part) (f : FieldRow) (old v : Nat) : Nat :=
  let o := natBits old f.lo f.width
  let n := natBits v f.lo f.width
  match f.acc with
  | .rw1c => o &&& (2 ^ f.width - 1 - n)
  | .rw1s => o ||| n
  | _ => if fieldTakes p f v then n else o

/-- A register takes a write (R9, R10, R469). -/
def putReg (p : Part) (off v : Nat) : Part :=
  setRegAt p off (BitVec.ofNat 32 ((rowsAt off).foldl
    (fun r f => natPut r f.lo f.width (fieldAfter p f (regAt p off).toNat v)) (regAt p off).toNat))

/-- Has an RWL field of the register accepted the write? -/
def rwlTakes (p : Part) (off v : Nat) : Bool := (rowsAt off).any (fun f => f.acc == .rwl && fieldTakes p f v)

/-- Is this the low word of a 64-bit quantity that can be written (R13)? -/
def heldLow (off : Nat) : Bool :=
  isPairLow off && (rowsAt off).any (fun f => f.acc == .rw || f.acc == .rwl)

/-- The low word that waits for the high word at an offset (R13) (DESIGN CHOICE, log 19). -/
def heldAt (p : Part) (off : Nat) : Option Nat := smapGet (fun _ => none) p.loHeld off

/-- The registers and values that a write sets now: none for a low word, which is held; the held low word too for the
high word of the quantity (R13). -/
def writesNow (p : Part) (off v : Nat) : List (Nat × Nat) :=
  if heldLow off then []
  else if isPairHigh off then
    match heldAt p (off - 4) with
    | some lo => [(off - 4, lo), (off, v)]
    | none => [(off, v)]
  else [(off, v)]

/-- The blocks whose RWL fields take ADMITTED back to LOADED (R180): SYS, FAB, LNK, HIS, RDO and SEAL. -/
def setupBlock (off : Nat) : Bool := [0, 3, 5, 6, 7, 10].contains (off / 0x100000)

/-- A write takes effect (R9, R13, R180, R469): the fields, with the held low word, and ADMITTED back to LOADED. -/
def plainWrite (p : Part) (off v : Nat) : Part :=
  if heldLow off then { p with loHeld := smapSet (fun _ => none) p.loHeld off (some v) }
  else
    let ws := writesNow p off v
    let accepted := setupBlock off && ws.any (fun w => rwlTakes p w.1 w.2)
    let q := ws.foldl (fun q w => putReg q w.1 w.2) p
    let q := if isPairHigh off then { q with loHeld := smapSet (fun _ => none) q.loHeld (off - 4) none } else q
    if accepted then rwlAccepted q else q

/-- What follows from a write that has taken effect: T and E move the tick counter (R172), lanes follow their enables
and rates (R244, R245, R470, R471), the time unit its mode, limits and alarm (R346, R348, R367), the ordinary clock its
settings (R361), the converter its scan and pulls (R445, R448), and a cleared READ_ERR frees FAB_DBG_ERR_WORD (R199) (DEDUCED, log 20). -/
def afterWrite (before p : Part) (off : Nat) : Part :=
  if 0x300010 ≤ off ∧ off < 0x300028 then
    if tickT before = tickT p ∧ epochE before = epochE p then p else dropUnframable (retick p)
  else if off = FAB_DBG_READ_ERR.off then
    if fldOn before FAB_DBG_READ_ERR && !fldOn p FAB_DBG_READ_ERR then setFld p FAB_DBG_ERR_WORD 0 else p
  else if 0x500000 ≤ off ∧ off < 0x500080 then dropUnframable (lanesWritten before p)
  else if off = TIM_MODE.off then (if fld before TIM_MODE = fld p TIM_MODE then p else modeWritten p)
  else if off = TIM_YMAX_PPB.off ∨ off = TIM_SLEW_PPB.off ∨ off = TIM_BASE_N.off then checkClamp p
  else if off = TIM_ALARM_N.off ∨ off = TIM_ALARM_S_H.off then alarmWritten p
  else if off / 0x100000 = 12 then ocReport before p
  else if off / 0x100000 = 14 then monitorWritten p
  else p

/-- A write to a register without rules of its own (R9). -/
def fieldWrite (p : Part) (off v : Nat) : Part :=
  if heldLow off then plainWrite p off v else afterWrite p (plainWrite p off v) off

/-! ### Ring, page and window setup -/

/-- Is this a register of the ring, page and window setup that R390 guards? -/
def setupReg (off : Nat) : Bool :=
  off == HIF_POLL_EN.off || (decide (0x100010 ≤ off) && decide (off < 0x100020)) ||
  (decide (0x100100 ≤ off) && decide (off < 0x100700))

/-- The directions in which the part uses a ring: it reads command rings and writes the others. -/
def ringDir : RingId → DmaDir
  | .cmd _ => .read
  | _ => .write

/-- Every ring. -/
def allRings : List RingId :=
  (List.range 16).map (fun i => RingId.cmd (Fin.ofNat 16 i)) ++ (List.range 16).map (fun i => RingId.cpl (Fin.ofNat 16 i)) ++
  [RingId.evt] ++ (List.range 32).map (fun k => RingId.rdo (Fin.ofNat 32 k))

/-- Does an enabled ring lie inside a window that allows its direction (R390)? -/
def ringFits (p : Part) (r : RingId) : Bool :=
  !ringEn p r || inWindow p (ringDir r) (ringBase p r) (ringSize p r * entrySize r)

/-- Do the doorbell and writeback pages, under HIF_POLL_EN, lie inside windows (R390)? -/
def pagesFit (p : Part) : Bool :=
  !fldOn p HIF_POLL_EN ||
  (inWindow p .read (baseOf p HIF_DB_ADDR_LO HIF_DB_ADDR_HI 0) 4096 &&
   inWindow p .write (baseOf p HIF_WB_ADDR_LO HIF_WB_ADDR_HI 0) 4096)

/-- The counts of a ring start at 0 as it is enabled (R372). -/
def startRing (before p : Part) (r : RingId) : Part :=
  if ringEn p r && !ringEn before r then
    let p := setUnsignalled (setHostCount (setPartCount p r 0) r 0) r 0
    { p with host := { p.host with stopped := smapSet (fun _ => false) p.host.stopped (ringKey r) false } }
  else p

/-- What R390 refuses: case 1 for a page, 2 for a window, 3 for a ring, with the address of the extent (DEDUCED, log 23). -/
def setupFault (p : Part) (off : Nat) : Option (Nat × Nat) :=
  match allRings.find? (fun r => !ringFits p r) with
  | some r => some (if 0x100600 ≤ off then 2 else 3, ringBase p r)
  | none =>
    if pagesFit p then none
    else some (if 0x100600 ≤ off then 2 else 1,
      if inWindow p .read (baseOf p HIF_DB_ADDR_LO HIF_DB_ADDR_HI 0) 4096 then baseOf p HIF_WB_ADDR_LO HIF_WB_ADDR_HI 0
      else baseOf p HIF_DB_ADDR_LO HIF_DB_ADDR_HI 0)

/-- A write to the ring, page and window setup (R372, R390): ignored, counted and reported when it would leave an
enabled ring or page outside every window; nothing once START has locked the setup (R9). -/
def setupWrite (p : Part) (off v : Nat) : Part :=
  if locked p then p
  else if heldLow off then plainWrite p off v
  else
    let q := plainWrite p off v
    match setupFault q off with
    | some (kase, addr) => refuseOther (setFld p HIF_CFG_ERR 1) kase addr
    | none => flushHeld (allRings.foldl (startRing p) (setFld q HIF_CFG_ERR 0))

/-! ### The rows -/

/-- A write at any BAR0 offset, each register under the rule of its own where it has one (R9, R324, R328, R390, R402,
R404, R407, R427, R437); an offset that no table lists takes none (R11), nor do windows (R199). -/
def busWrite (p : Part) (off : Nat) (v : Reg32) : Part :=
  if (rowsAt off).isEmpty then p
  else if setupReg off then setupWrite p off v.toNat
  else if off = SEAL_ENC_EN.off then (if locked p then p else sealEncEnWrite (v.getLsbD 0) p)
  else if 0xa00100 ≤ off ∧ off < 0xa00200 then
    if off % 16 = 0 then sealRegionWrite (Fin.ofNat 16 (off / 16)) false v p
    else if off % 16 = 4 then sealRegionWrite (Fin.ofNat 16 (off / 16)) true v p
    else p
  else if off = SVN_MODE.off then svnModeWrite (v.getLsbD 0) p
  else if SVN_HOPS.hits off then
    routeWrite (Fin.ofNat 64 ((off - SVN_HOPS.off) / 0x20)) (Fin.ofNat 8 ((off - SVN_HOPS.off) % 0x20 / 4)) v p
  else if off = SVN_EREC_CLR.off then (if v.getLsbD 0 then svnErecClr p else p)
  else if off = SYS_OVR_EN.off then sysOvrEnWrite (v.getLsbD 0) p
  else if off = HST_BOOT_GO_F.off then (if v.getLsbD 0 then hstBootGo p else p)
  else if off = TIM_NOW_F.off then p
  else fieldWrite p off v.toNat

/-- REGISTER_WRITE (R9). -/
def registerWrite (off : BitVec 26) (v : Reg32) (p : Part) : Part := busWrite p off.toNat v

/-- SEAL_ENC_EN_WRITE (R9, R328). -/
def sealEncWrite (v : Bool) (p : Part) : Part := if locked p then p else sealEncEnWrite v p

/-- RING_SETUP_WRITE (R390): a write of a register of the setup; of another register it sets nothing. -/
def ringSetupWrite (off : BitVec 26) (v : Reg32) (p : Part) : Part :=
  if setupReg off.toNat && !(rowsAt off.toNat).isEmpty then setupWrite p off.toNat v.toNat else p

/-- One bit of the CRC-8 with polynomial x^8 + x^2 + x + 1. -/
def crc8Bit (c : BitVec 8) : BitVec 8 := if c.getLsbD 7 then (c <<< 1) ^^^ 0x07#8 else c <<< 1

/-- The SMBus PEC byte over the bytes of a transaction (R431). -/
def smbusPec (l : List Byte) : Byte :=
  l.foldl (fun c b => crc8Bit (crc8Bit (crc8Bit (crc8Bit (crc8Bit (crc8Bit (crc8Bit (crc8Bit (c ^^^ b))))))))) 0

/-- The 7-bit I²C address of the part (R431). -/
def i2cAddress (p : Part) : Nat := 0x58 + p.boot.pins % 8

/-- The address byte of a transaction: bit 0 is 1 for a read. -/
def i2cByte (addr : BitVec 7) (reads : Bool) : Byte := BitVec.ofNat 8 (2 * addr.toNat + (if reads then 1 else 0))

/-- I2C_ACCESS (R431): a transaction that names the part writes a register, 4 bytes of offset and 4 of data, or reads one,
4 bytes of offset and a repeated start; the PEC byte that follows the data read is kept. A PEC byte of a write that does not
check, another length, and a part held in reset change nothing; debug windows are not reachable (DESIGN CHOICE, log 63). -/
def i2cAccess (addr : BitVec 7) (written : List Byte) (reads : Bool) (balls : BitVec 64) (p : Part) : Part :=
  let off := leAt written 0 4
  let n := written.length
  let whole := n == 8 || (n == 9 && smbusPec (i2cByte addr false :: written.take 8) == written.getD 8 0)
  if addr.toNat ≠ i2cAddress p ∨ p.boot.ps = .powerup ∨ 0x2000000 ≤ off then p
  else if reads then
    if n ≠ 4 then p
    else
      let p := readInto balls off p
      { p with readPec := (smbusPec (i2cByte addr false :: written ++ i2cByte addr true :: leBytes 4 p.readData)).toNat }
  else if whole then busWrite p off (BitVec.ofNat 32 (leAt written 4 4))
  else p

/-- What IDCODE of the JTAG port carries (R431). -/
def jtagIdcode : BitVec 32 := 0x1#4 ++ 0x7E02#16 ++ Config.jtagMaker ++ 1#1

end Sys2Proof.Machine
end

