-- ==== Sys2Proof/Machine/Ops.lean ====
section
/-!
DEFINITION. How a command runs: its effect on the part, and on nothing else of the machine. While SYS_RST_N is low the
part is held in reset (R423), and only the reset pins act.
-/
namespace Sys2Proof.Machine

/-- An effect on the part, unless the part is held in reset (R423). -/
def outOfReset (f : Part → Part) (p : Part) : Part := if p.boot.rstLow then p else f p

/-- A command runs: the part takes its effect. -/
def run (f : Part → Part) (s : State) : Host.Outcome State Fault Refusal := .next { s with part := outOfReset f s.part }

/-- A command of the reset pins runs, also while the part is held in reset. -/
def runAlways (f : Part → Part) (s : State) : Host.Outcome State Fault Refusal := .next { s with part := f s.part }

end Sys2Proof.Machine
end

