-- ==== Sys2Proof/Machine/Service.lean ====
section
/-!
DEFINITION. Requests of the service network at their target (R398 to R408, R433), the rows of the service network, and
the commands QUERY (R381) and COUNTERS_READ (R382).
-/
namespace Sys2Proof.Machine

/-! ### Requests at their target -/

/-- The NIs whose unit holds the registers at a BAR0 offset (R15, R397): the block of each unit, the debug windows and
GRN behind the bridges of the fabric dies, SYS, HST, SVN and what no block holds at the headstock (DEDUCED, log 60). -/
def registerNis (addr : Nat) : List Nat :=
  if 0x2000000 ≤ addr then [4, 5, 6, 7]
  else match addr / 0x100000 with
    | 1 => [0] | 2 => [2, 50] | 3 => [47] | 4 => [4, 5, 6, 7] | 5 => [46] | 6 => [3] | 7 => [40] | 8 => [41] | 9 => [42]
    | 10 => [43, 44] | 11 => [45] | 12 => [45] | 14 => [48] | 15 => [49] | 17 => [51] | _ => [1]

/-- The bytes that a data request touches: a read asks for one 64-byte line, or for what the outside gives of host memory
(DESIGN CHOICE, log 60). -/
def requestBytes (pk : NetPacket) : Nat :=
  if pk.head.op = 0 then (if pk.head.dst = 0 then pk.host.length else 64) else 16 * pk.head.len

/-- The initiator of sealed memory that stands behind an NI (R323). -/
def sealUserOf (ni : Nat) : Option SealUser :=
  if ni = 1 then some .headstock else if ni = 2 then some .loader else if ni = 3 then some .history
  else if 8 ≤ ni ∧ ni < 40 then some .cores else if ni = 42 then some .trace else none

/-- Does the target decode the address (R406, cause 1)? A control request: a BAR0 offset of its unit. A data request:
host memory at NI 0; the lines of its own stack, for the initiators of sealed memory, at NI 43 and 44; the local memory of
a readout core at NI 8 to 39 (DEDUCED, log 60). -/
def targetDecodes (pk : NetPacket) : Bool :=
  let h := pk.head
  let n := requestBytes pk
  if controlVc h.cls then decide (h.addr < 0x4000000) && (registerNis h.addr).contains h.dst
  else if h.dst = 0 then true
  else if h.dst = 43 ∨ h.dst = 44 then
    (sealUserOf h.src).isSome && lineStack (h.addr / 64) == h.dst - 43 && decide (h.addr / 4096 = (h.addr + n - 1) / 4096)
  else decide (8 ≤ h.dst) && decide (h.dst < 40) && decide (h.addr + n ≤ 65536)

/-- Is the target stopped by a halt (R342, R416; cause 3): a port of the sealing engine, or a readout core? -/
def targetHalted (p : Part) (h : NetHeader) : Bool :=
  !controlVc h.cls && (if h.dst = 43 ∨ h.dst = 44 then p.sm.stopped || partHalted p
    else decide (8 ≤ h.dst) && decide (h.dst < 40) && partHalted p)

/-- Does the target run a self-test whose memories the request needs (R432, R433): a debug window its die's, the local
memory of a core test 5, any data request test 6? A register is read at once. -/
def targetTesting (p : Part) (h : NetHeader) : Bool :=
  if controlVc h.cls then decide (0x2000000 ≤ h.addr) && testOf p (h.dst - 4) == 1
  else testOf p 6 == 1 || (decide (8 ≤ h.dst) && decide (h.dst < 40) && testOf p 5 == 1)

/-- Must the request wait at its target: for the end of a self-test (R433), or for DMA (R370, R393)? -/
def targetBusy (p : Part) (h : NetHeader) : Bool :=
  targetTesting p h || (!controlVc h.cls && h.dst == 0 && !dmaOk p)

/-- The status that answers a request that is not posted, by the cause of R406 (R17, R408, R434) (DESIGN CHOICE,
logs 13 and 60). -/
def causeStatus (addr : Nat) : Nat → Status
  | 1 =>
    [Status.errOpcode, .errParam, .errWindow, .errState, .errAdmit, .errVersion, .errTimeout, .errHalted,
     .errIntegrity, .errAuth, .errOtpFull, .errAborted].getD (Config.undecodedStatus addr % 12) .errParam
  | 2 => .errWindow
  | 3 => .errHalted
  | 4 => .errIntegrity
  | _ => .errState

/-- The target sends the response of a request that is not posted. -/
def respond (p : Part) (h : NetHeader) (st : Status) (data : List Byte) : Part :=
  if h.op = 2 then p
  else { p with svn := { p.svn with
    responses := p.svn.responses ++ [⟨h.dst, h.src, h.tag, controlVc h.cls, st, data⟩] } }

/-- A request fails at its target (R406, R408). -/
def failRequest (p : Part) (h : NetHeader) (cause : Nat) : Part :=
  if h.op = 2 then postedFails p h.src h.dst h.addr cause else respond p h (causeStatus h.addr cause) []

/-- Bytes of the local memory of a readout core (R286). -/
def coreBytes (p : Part) (j a n : Nat) : List Byte :=
  (List.range n).map (fun i => smapGet (fun _ => 0) p.rdo.coreMem (j * 65536 + (a + i) % 65536))

/-- Write bytes into the local memory of a readout core (R286). -/
def setCoreBytes (p : Part) (j a : Nat) (b : List Byte) : Part :=
  let cells := b.zipIdx.map (fun x => (j * 65536 + (a + x.2) % 65536, x.1))
  { p with rdo := { p.rdo with coreMem := smapSetMany (fun _ => 0) p.rdo.coreMem cells } }

/-- The target NI of sealed memory serves a request (R325, R333, R334). -/
def serveSealed (p : Part) (h : NetHeader) (data : List Byte) : Part :=
  match sealUserOf h.src with
  | none => failRequest p h 1
  | some u =>
    let (p, st, got) := if h.op = 0 then sealRead p u h.addr 64
      else let r := sealWrite p u h.addr data; (r.1, r.2, [])
    if h.op = 2 then
      if st = .ok then p else postedFails p h.src h.dst h.addr (if st = .errHalted then 3 else 2)
    else respond p h st got

/-- The target does what the request asks (R398, R399): a register access, DMA under the windows (R390), sealed memory, a
core's local memory. -/
def serveRequest (p : Part) (pk : NetPacket) (data : List Byte) : Part :=
  let h := pk.head
  if controlVc h.cls then
    if h.op = 0 then let (p, v) := busRead p pk.balls h.addr; respond p h .ok (leBytes 4 v)
    else respond (busWrite p h.addr (BitVec.ofNat 32 (leNat (data.take 4)))) h .ok []
  else if h.dst = 0 then
    if !inWindow p (if h.op = 0 then .read else .write) h.addr (requestBytes pk) then failRequest (refuseOther p 4 h.addr) h 2
    else if h.op = 0 then respond p h .ok pk.host
    else respond (hostWrite p h.addr data) h .ok []
  else if h.dst = 43 ∨ h.dst = 44 then serveSealed p h data
  else if h.op = 0 then respond p h .ok (coreBytes p (h.dst - 8) h.addr 64)
  else respond (setCoreBytes p (h.dst - 8) h.addr data) h .ok []

/-- A target NI takes a request packet (R400, R406, R408, R433, R434). One that waits goes behind those that wait
already. -/
def takeRequest (p : Part) (pk : NetPacket) : Part :=
  let h := pk.head
  if pk.flits.any flitPoisoned then failRequest p h 4
  else if !targetDecodes pk then failRequest p h 1
  else if targetHalted p h then failRequest p h 3
  else if pk.urgent && targetTesting p h then failRequest p h 5
  else if targetBusy p h then { p with svn := { p.svn with waiting := p.svn.waiting ++ [.packet pk] } }
  else serveRequest p pk ((pk.flits.drop 2).flatMap flitBytes)

/-- The packets under way cross the network, and their targets take them in order of arrival (R400, R409). -/
def settleRequests (p : Part) : Part :=
  let (p, got) := netSettle p
  got.foldl (fun p pk => takeRequest (bumpFld p SVN_CE_N (flitErrors pk.flits)) pk) p

/-- Requests held in their NIs go on as soon as they may (R404). -/
def releaseHeld (p : Part) : Part := settleRequests (offerHeld p)

/-! ### The rows of the service network -/

/-- SERVICE_REQUEST (R398 to R400, R404, R406, R408): a unit hands its NI a request packet, which crosses the network and
is served; it waits in its NI while it may not be sent. Flits that spell no request are none. -/
def serviceRequest (flits : List Flit) (urgent : Bool) (host : List Byte) (balls : BitVec 64) (p : Part) : Part :=
  match readPacket flits with
  | none => p
  | some h => if requestOk h then settleRequests (offerRequest p ⟨h, flits, urgent, host.take 1024, balls⟩) else p

/-- RESPONSE_ARRIVAL (R405, R408): what it frees lets held requests go. -/
def responseArrival (ni : Fin 64) (tag : BitVec 12) (flips : List (BitVec 144)) (p : Part) : Part :=
  releaseHeld (responseCrosses ni tag flips p)

/-- REQUEST_TIMEOUT (R405): what it frees lets held requests go. -/
def requestTimeout (ni : Fin 64) (tag : BitVec 12) (p : Part) : Part := releaseHeld (requestExpires ni tag p)

/-- SVN_MODE_SWITCH (R404): with no request outstanding, all NIs switch together, and the held requests go on. -/
def svnModeSwitch (p : Part) : Part := releaseHeld (switchMode p)

/-! ### QUERY -/

/-- QUERY's COLS: bits [9d + 8 : 9d] for the used physical columns of die d (R161); 0 when no blank is placed. -/
def colsMap (p : Part) : Nat := bitMap 36 (fun g => p.blank.isSome && p.cols.contains g)

/-- The 64-byte block of R381. -/
def queryBlock (p : Part) : List Byte :=
  leBytes 2 1 ++ leBytes 1 (orderOf p) ++ leBytes 1 stepping ++ leBytes 1 p.boot.ps.code ++ leBytes 1 (fabCode p.tk.fab) ++
  leBytes 2 (cfgAddress p) ++ leBytes 8 (otpField p.boot.otpRead 0 0 8 0) ++ leBytes 4 (fld p HST_FW) ++
  leBytes 4 (fld p HST_RT) ++ leBytes 4 (minFirmware p) ++ leBytes 4 (presentMap p) ++ leBytes 8 (colsMap p) ++
  leBytes 2 (blankL p) ++ leBytes 2 (match p.blank with | some b => b.stages | none => 0) ++ leBytes 1 (blankC p) ++
  leBytes 1 (fld p HIF_LINK_RATE) ++ leBytes 1 (fld p HIF_LINK_WIDTH) ++ leBytes 1 0 ++ leBytes 8 p.tk.tick ++
  leBytes 8 (timeStamp p.now)

/-- QUERY (R380, R381): accepted in every state (DESIGN CHOICE, log 29). -/
def query (h : Hdr) (p : Part) : Part :=
  beginCmd p h 0x01 true fun p =>
    let addr := h.par 0x08 8
    let len := h.par 0x10 4
    if len < 64 then completeSt p h .errParam
    else withBuffer p (.query h) h .write addr len fun p =>
      complete (hostWrite p addr (queryBlock p)) h .ok 0 64

/-! ### COUNTERS_READ -/

/-- A billet's 8-byte entry of set 1 (R66, R132, R133, R382), through the placement in force. -/
def counterEntry (p : Part) (b : Nat) : List Byte :=
  let k := physBillet p b
  leBytes 2 (smapGet (fun _ => 0) p.sp.ceD k) ++ leBytes 2 (smapGet (fun _ => 0) p.sp.ceI k) ++
  leBytes 2 (smapGet (fun _ => 0) p.sp.ceT k) ++ leBytes 2 0

/-- A 24-byte entry of set 2 (R382, R386); zero past the records held. -/
def catchEntry (p : Part) (i : Nat) : List Byte :=
  match p.tk.catchLog[i]? with
  | some r => fitBytes 24 (packFields 8 (catchPayload r))
  | none => List.replicate 24 0

/-- Where set 1 ends (R382): 32 × Cv of the blank placed, or the part's largest grid. -/
def setEnd (p : Part) : Nat := if p.blank.isSome then 32 * blankCv p else if isB56 p then 896 else 1024

/-- Clear the counters of a billet (R66, R382). -/
def clearBillet (p : Part) (b : Nat) : Part :=
  let k := physBillet p b
  { p with sp := { p.sp with ceD := smapSet (fun _ => 0) p.sp.ceD k 0, ceI := smapSet (fun _ => 0) p.sp.ceI k 0,
                             ceT := smapSet (fun _ => 0) p.sp.ceT k 0 } }

/-- Empty the catch log and its overflow count (R422). -/
def clearCatches (p : Part) : Part :=
  setFld { p with tk := { p.tk with catchLog := [], catchOvf := [], classSeen := [], log154 := false } } SVN_CATCH_OVF 0

/-- Is CLEAR set in a COUNTERS_READ (R380)? -/
def clearSet (h : Hdr) : Bool := h.desc.getLsbD 72

/-- COUNTERS_READ of a set, with or without CLEAR (R380, R382), as the row `i`. -/
def readCounters (i : Instr) (h : Hdr) (p : Part) : Part :=
  beginCmd p h 0x50 true fun p =>
    let s := h.par 0x08 1
    let first := h.par 0x0A 2
    let n := h.par 0x0C 4
    let addr := h.par 0x10 8
    let len := h.par 0x18 4
    let clear := clearSet h
    let size := if s = 1 then 8 else 24
    let stop := if s = 1 then setEnd p else 256
    if (s ≠ 1 ∧ s ≠ 2) ∨ stop < first + n ∨ len < n * size then completeSt p h .errParam
    else withBuffer p i h .write addr len fun p =>
      let idx := (List.range n).map (fun i => first + i)
      let p := hostWrite p addr (idx.flatMap (fun i => if s = 1 then counterEntry p i else catchEntry p i))
      let p := if !clear then p else if s = 1 then idx.foldl clearBillet p else clearCatches p
      complete p h .ok 0 (n * size)

/-- COUNTERS_READ (R382): the command with CLEAR 0. -/
def countersRead (h : Hdr) (p : Part) : Part := if clearSet h then p else readCounters (.countersRead h) h p

/-- COUNTERS_READ_CLEAR (R382): the command with CLEAR 1. -/
def countersReadClear (h : Hdr) (p : Part) : Part := if clearSet h then readCounters (.countersReadClear h) h p else p

end Sys2Proof.Machine
end

