-- ==== Sys2Proof/Machine/ExecBus.lean ====
section
/-!
DEFINITION. The meanings of the commands of register accesses, QUERY and COUNTERS_READ, one for each row of the table:
the row's effect on the part, while the part is not held in reset.
-/
namespace Sys2Proof.Machine

/-- REGISTER_WRITE (R9). -/
def execRegisterWrite (off : BitVec 26) (v : Reg32) (s : State) : Host.Outcome State Fault Refusal :=
  run (registerWrite off v) s

/-- LOW_WORD_READ (R12). -/
def execLowWordRead (off : BitVec 26) (balls : BitVec 64) (s : State) : Host.Outcome State Fault Refusal :=
  run (lowWordRead off balls) s

/-- READ_CLEAR (R9). -/
def execReadClear (off : BitVec 26) (balls : BitVec 64) (s : State) : Host.Outcome State Fault Refusal :=
  run (readClear off balls) s

/-- TIM_NOW_FRAC_READ (R345). -/
def execTimNowFracRead (s : State) : Host.Outcome State Fault Refusal :=
  run timNowFracRead s

/-- DEBUG_WINDOW_READ (R199). -/
def execDebugWindowRead (off : BitVec 25) (s : State) : Host.Outcome State Fault Refusal :=
  run (debugWindowRead off) s

/-- I2C_ACCESS (R431). -/
def execI2cAccess (addr : BitVec 7) (written : List Byte) (reads : Bool) (balls : BitVec 64)
    (s : State) : Host.Outcome State Fault Refusal :=
  run (i2cAccess addr written reads balls) s

/-- SEAL_ENC_EN_WRITE (R328). -/
def execSealEncEnWrite (v : Bool) (s : State) : Host.Outcome State Fault Refusal :=
  run (sealEncWrite v) s

/-- SEAL_REGION_WRITE (R324). -/
def execSealRegionWrite (k : Fin 16) (size : Bool) (v : Reg32) (s : State) : Host.Outcome State Fault Refusal :=
  run (sealRegionWrite k size v) s

/-- RING_SETUP_WRITE (R390). -/
def execRingSetupWrite (off : BitVec 26) (v : Reg32) (s : State) : Host.Outcome State Fault Refusal :=
  run (ringSetupWrite off v) s

/-- QUERY (R381). -/
def execQuery (h : Hdr) (s : State) : Host.Outcome State Fault Refusal :=
  run (query h) s

/-- COUNTERS_READ (R382). -/
def execCountersRead (h : Hdr) (s : State) : Host.Outcome State Fault Refusal :=
  run (countersRead h) s

/-- COUNTERS_READ_CLEAR (R382). -/
def execCountersReadClear (h : Hdr) (s : State) : Host.Outcome State Fault Refusal :=
  run (countersReadClear h) s

end Sys2Proof.Machine
end

