-- ==== Sys2Proof/Machine/ExecCapture.lean ====
section
/-!
DEFINITION. The meanings of the commands of capture, one for each row of the table: the row's effect on the part,
while the part is not held in reset.
-/
namespace Sys2Proof.Machine

/-- CAPTURE_ARM (R295). -/
def execCaptureArm (h : Hdr) (s : State) : Host.Outcome State Fault Refusal :=
  run (captureArm h) s

/-- CAPTURE_DISARM (R301). -/
def execCaptureDisarm (h : Hdr) (s : State) : Host.Outcome State Fault Refusal :=
  run (captureDisarm h) s

/-- DECISION_INSTANT (R296). -/
def execDecisionInstant (s : State) : Host.Outcome State Fault Refusal :=
  run decisionInstant s

/-- CAPTURE_REARM (R297). -/
def execCaptureRearm (u : Fin 16) (s : State) : Host.Outcome State Fault Refusal :=
  run (captureRearm u) s

/-- SEGMENT_DELIVERY (R302). -/
def execSegmentDelivery (s : State) : Host.Outcome State Fault Refusal :=
  run segmentDelivery s

/-- DELIVERY_WAIT_TIMEOUT (R302). -/
def execDeliveryWaitTimeout (s : State) : Host.Outcome State Fault Refusal :=
  run deliveryWaitTimeout s

/-- TBUS_DRIVE (R305). -/
def execTbusDrive (s : State) : Host.Outcome State Fault Refusal :=
  run tbusDrive s

/-- TBUS_SAMPLE (R306). -/
def execTbusSample (lines : BitVec 8) (s : State) : Host.Outcome State Fault Refusal :=
  run (tbusSample lines) s

end Sys2Proof.Machine
end

