-- ==== Sys2Proof/Machine/ExecFabric.lean ====
section
/-!
DEFINITION. The meanings of the commands of admission, START, STOP, halts, the tick boundary, the grain and the
tables, one for each row of the table: the row's effect on the part, while the part is not held in reset.
-/
namespace Sys2Proof.Machine

/-- ADMIT (R185). -/
def execAdmit (h : Hdr) (s : State) : Host.Outcome State Fault Refusal :=
  run (admitCmd h) s

/-- START (R181). -/
def execStart (h : Hdr) (s : State) : Host.Outcome State Fault Refusal :=
  run (startCmd h) s

/-- ENTER_RUNNING (R181). -/
def execEnterRunning (s : State) : Host.Outcome State Fault Refusal :=
  run enterRunning s

/-- STOP (R183). -/
def execStop (h : Hdr) (s : State) : Host.Outcome State Fault Refusal :=
  run (stopCmd h) s

/-- ENTER_STOPPED (R183). -/
def execEnterStopped (s : State) : Host.Outcome State Fault Refusal :=
  run stopReached s

/-- HALT (R418). -/
def execHalt (h : Hdr) (s : State) : Host.Outcome State Fault Refusal :=
  run (haltCmd h) s

/-- HALT_N (R412). -/
def execHaltN (s : State) : Host.Outcome State Fault Refusal :=
  run haltPin s

/-- HALT_TAKES_EFFECT (R413). -/
def execHaltTakesEffect (s : State) : Host.Outcome State Fault Refusal :=
  run haltReached s

/-- TICK_BOUNDARY (R20). -/
def execTickBoundary (phase : Int) (balls : List BallWave)
    (s : State) : Host.Outcome State Fault Refusal :=
  run (tickBoundary phase balls) s

/-- GRAIN_SLOT (R121). -/
def execGrainSlot (col row step : Nat) (s : State) : Host.Outcome State Fault Refusal :=
  run (grainSlot col row step) s

/-- TABLE_WRITE (R131). -/
def execTableWrite (h : Hdr) (list : List Byte) (s : State) : Host.Outcome State Fault Refusal :=
  run (tableWrite h list) s

/-- TABLE_WRITE_APPLY (R130). -/
def execTableWriteApply (s : State) : Host.Outcome State Fault Refusal :=
  run tableWriteApply s

end Sys2Proof.Machine
end

