-- ==== Sys2Proof/Machine/ExecHistory.lean ====
section
/-!
DEFINITION. The meanings of the commands of history and accepts, one for each row of the table: the row's effect on
the part, while the part is not held in reset.
-/
namespace Sys2Proof.Machine

/-- HISTORY_WRITE (R258). -/
def execHistoryWrite (s : State) : Host.Outcome State Fault Refusal :=
  run historyWrite s

/-- SPILL_END (R261). -/
def execSpillEnd (id : Nat) (s : State) : Host.Outcome State Fault Refusal :=
  run (spillEnd id) s

/-- RELEASE_TRANSFER_END (R261). -/
def execReleaseTransferEnd (id : Nat) (s : State) : Host.Outcome State Fault Refusal :=
  run (releaseTransferEnd id) s

/-- RETENTION_EXPIRY (R262). -/
def execRetentionExpiry (id : Nat) (s : State) : Host.Outcome State Fault Refusal :=
  run (retentionExpiry id) s

/-- ACCEPT_IN (R268). -/
def execAcceptIn (s : State) : Host.Outcome State Fault Refusal :=
  run acceptIn s

/-- ACCEPT_COMMAND (R270). -/
def execAcceptCommand (h : Hdr) (s : State) : Host.Outcome State Fault Refusal :=
  run (acceptCommand h) s

end Sys2Proof.Machine
end

