-- ==== Sys2Proof/Machine/Waiting.lean ====
section
/-!
DEFINITION. What waits for a self-test to end or for DMA, and the rows that end such a wait (R370, R394, R433).
-/
namespace Sys2Proof.Machine

/-- A command that waited goes on, as its row. The rows that do not wait are left out. -/
def runCommand : Instr → Part → Part
  | .query h => query h
  | .countersRead h => countersRead h
  | .countersReadClear h => countersReadClear h
  | .loadBlank h img => loadBlank h img
  | .loadRegion h img => loadRegion h img
  | .rdoGraphLoad h img => rdoGraphLoad h img
  | .rdoPolicy h => rdoPolicy h
  | .acceptCommand h => acceptCommand h
  | .captureArm h => captureArm h
  | .captureDisarm h => captureDisarm h
  | .traceStart h => traceStart h
  | .traceStop h => traceStop h
  | .traceTrigger h => traceTriggerCmd h
  | .setSources h => setSources h
  | .drain h => drain h
  | .auth h buf => auth h buf
  | .tableWrite h l => tableWrite h l
  | .linkRetrain h => linkRetrain h
  | .linkTakeDown h => linkTakeDown h
  | .linkBringUp h => linkBringUp h
  | .linkClear h => linkClear h
  | .rekey h entropy => rekey h entropy
  | .otpWriteRecord h payload burnt => otpWriteRecord h payload burnt
  | .fwUpdate h img => fwUpdate h img
  | _ => id

/-- What waits is taken again, in order of arrival (R433). -/
def takeWaiting (p : Part) : Part :=
  p.svn.waiting.foldl (fun p w => match w with
    | .packet pk => takeRequest p pk
    | .command i _ => runCommand i p) { p with svn := { p.svn with waiting := [] } }

/-- SELF_TEST_END (R432, R433): a block leaves its self-test, and what it held is served. -/
def testEnds (i : Fin 8) (pass : Bool) (p : Part) : Part := takeWaiting (selfTestEnd i pass p)

/-- BUS_MASTER_ENABLE (R370): DMA resumes, also for what waits at the host interface. -/
def masterEnabled (p : Part) : Part := takeWaiting (busMasterEnable p)

/-- D0_RETURN (R394): DMA resumes, also for what waits at the host interface. -/
def returnToD0 (p : Part) : Part := takeWaiting (d0Return p)

end Sys2Proof.Machine
end

