-- ==== Sys2Proof/Machine/ExecHost.lean ====
section
/-!
DEFINITION. The meanings of the commands of the host interface, one for each row of the table: the row's effect on the
part, while the part is not held in reset.
-/
namespace Sys2Proof.Machine

/-- HOT_RESET (R370). -/
def execHotReset (s : State) : Host.Outcome State Fault Refusal :=
  run hotReset s

/-- BUS_MASTER_ENABLE (R370). -/
def execBusMasterEnable (s : State) : Host.Outcome State Fault Refusal :=
  run masterEnabled s

/-- PCIE_LINK_CHANGE (R369). -/
def execPcieLinkChange (rate : Fin 7) (width : Fin 17) (s : State) : Host.Outcome State Fault Refusal :=
  run (pcieLinkChange rate width) s

/-- AER_ERROR (R388). -/
def execAerError (kind : Fin 3) (status : BitVec 32) (s : State) : Host.Outcome State Fault Refusal :=
  run (aerError kind status) s

/-- MSIX_UNMASK (R392). -/
def execMsixUnmask (v : Fin 64) (addr : BitVec 64) (data : BitVec 32) (s : State) : Host.Outcome State Fault Refusal :=
  run (msixUnmask v addr data) s

/-- POLL (R375). -/
def execPoll (s : State) : Host.Outcome State Fault Refusal :=
  run poll s

/-- POLL_BATCH_RETURN (R375). -/
def execPollBatchReturn (b : PollBatch) (s : State) : Host.Outcome State Fault Refusal :=
  run (pollBatchReturn b) s

/-- NOP_COMMAND (R380). -/
def execNopCommand (h : Hdr) (s : State) : Host.Outcome State Fault Refusal :=
  run (nopCommand h) s

/-- EVENT_RING_WRITE (R387). -/
def execEventRingWrite (s : State) : Host.Outcome State Fault Refusal :=
  run eventRingWrite s

/-- MODERATION_TIMEOUT (R392). -/
def execModerationTimeout (r : RingId) (s : State) : Host.Outcome State Fault Refusal :=
  run (moderationTimeout r) s

/-- COMPLETION_BLOCK_TIMEOUT (R388). -/
def execCompletionBlockTimeout (c : Fin 16) (s : State) : Host.Outcome State Fault Refusal :=
  run (completionBlockTimeout c) s

/-- RING_FAULT (R388). -/
def execRingFault (r : RingId) (poisoned : Bool) (s : State) : Host.Outcome State Fault Refusal :=
  run (ringFault r poisoned) s

end Sys2Proof.Machine
end

