-- ==== Sys2Proof/Machine/ExecLane.lean ====
section
/-!
DEFINITION. The meanings of the commands of the lanes, one for each row of the table: the row's effect on the part,
while the part is not held in reset.
-/
namespace Sys2Proof.Machine

/-- FRAME_TRANSMIT (R240). -/
def execFrameTransmit (n : Fin 128) (s : State) : Host.Outcome State Fault Refusal :=
  run (frameTransmit n) s

/-- RECEIVE_FRAME (R227). -/
def execReceiveFrame (n : Fin 128) (bits : List Bool) (posOk : Bool) (first slack : Nat)
    (s : State) : Host.Outcome State Fault Refusal :=
  run (receiveFrame n bits posOk first slack) s

/-- LOSS_FRAMES_EXPIRY (R247). -/
def execLossFramesExpiry (n : Fin 128) (s : State) : Host.Outcome State Fault Refusal :=
  run (lossFramesExpiry n) s

/-- SIGNAL_LOSS (R247). -/
def execSignalLoss (n : Fin 128) (s : State) : Host.Outcome State Fault Refusal :=
  run (signalLoss n) s

/-- FORWARDED_CLOCK_LOSS (R247). -/
def execForwardedClockLoss (n : Fin 128) (s : State) : Host.Outcome State Fault Refusal :=
  run (forwardedClockLoss n) s

/-- TRACKING_LIMIT (R225). -/
def execTrackingLimit (n : Fin 128) (s : State) : Host.Outcome State Fault Refusal :=
  run (trackingLimit n) s

/-- FORWARDED_CLOCK_DETECT (R245). -/
def execForwardedClockDetect (n : Fin 128) (rate : Fin 4) (s : State) : Host.Outcome State Fault Refusal :=
  run (forwardedClockDetect n rate) s

/-- SAMPLING_POINT_CENTRED (R225). -/
def execSamplingPointCentred (n : Fin 128) (s : State) : Host.Outcome State Fault Refusal :=
  run (samplingPointCentred n) s

/-- BIT_LOCK (R245). -/
def execBitLock (n : Fin 128) (s : State) : Host.Outcome State Fault Refusal :=
  run (bitLock n) s

/-- TRAIN_TIMEOUT (R245). -/
def execTrainTimeout (n : Fin 128) (s : State) : Host.Outcome State Fault Refusal :=
  run (trainTimeout n) s

/-- LOCK_TIMEOUT (R245). -/
def execLockTimeout (n : Fin 128) (s : State) : Host.Outcome State Fault Refusal :=
  run (lockTimeout n) s

/-- EXCHANGE_TIMEOUT (R245). -/
def execExchangeTimeout (n : Fin 128) (s : State) : Host.Outcome State Fault Refusal :=
  run (exchangeTimeout n) s

/-- ATTEMPTS_LIMIT (R245). -/
def execAttemptsLimit (n : Fin 128) (s : State) : Host.Outcome State Fault Refusal :=
  run (attemptsLimit n) s

/-- CAPABILITY_MESSAGE (R246). -/
def execCapabilityMessage (n : Fin 128) (s : State) : Host.Outcome State Fault Refusal :=
  run (capabilityMessage n) s

/-- TIME_MESSAGE (R254). -/
def execTimeMessage (n : Fin 128) (s : State) : Host.Outcome State Fault Refusal :=
  run (timeMessage n) s

/-- RECEIVER_DETECTION (R244). -/
def execReceiverDetection (n : Fin 128) (s : State) : Host.Outcome State Fault Refusal :=
  run (receiverDetection n) s

/-- TP1_TIME_END (R243). -/
def execTp1TimeEnd (n : Fin 128) (s : State) : Host.Outcome State Fault Refusal :=
  run (tp1TimeEnd n) s

/-- TP2_TIME_END (R243). -/
def execTp2TimeEnd (n : Fin 128) (s : State) : Host.Outcome State Fault Refusal :=
  run (tp2TimeEnd n) s

/-- TX_ENTER_ACTIVE (R243). -/
def execTxEnterActive (n : Fin 128) (s : State) : Host.Outcome State Fault Refusal :=
  run (txEnterActive n) s

/-- LINE_CLOCK_PLL_LOSS (R244). -/
def execLineClockPllLoss (g : Fin 16) (s : State) : Host.Outcome State Fault Refusal :=
  run (lineClockPllLoss g) s

/-- LINK_RETRAIN (R249). -/
def execLinkRetrain (h : Hdr) (s : State) : Host.Outcome State Fault Refusal :=
  run (linkRetrain h) s

/-- LINK_TAKE_DOWN (R249). -/
def execLinkTakeDown (h : Hdr) (s : State) : Host.Outcome State Fault Refusal :=
  run (linkTakeDown h) s

/-- LINK_BRING_UP (R249). -/
def execLinkBringUp (h : Hdr) (s : State) : Host.Outcome State Fault Refusal :=
  run (linkBringUp h) s

/-- LINK_CLEAR (R249). -/
def execLinkClear (h : Hdr) (s : State) : Host.Outcome State Fault Refusal :=
  run (linkClear h) s

end Sys2Proof.Machine
end

