-- ==== Sys2Proof/Machine/ExecLoad.lean ====
section
/-!
DEFINITION. The meanings of the commands of loading and the configuration port, one for each row of the table: the
row's effect on the part, while the part is not held in reset.
-/
namespace Sys2Proof.Machine

/-- LOAD_BLANK (R202). -/
def execLoadBlank (h : Hdr) (img : List Byte) (s : State) : Host.Outcome State Fault Refusal :=
  run (loadBlank h img) s

/-- LOAD_REGION (R202). -/
def execLoadRegion (h : Hdr) (img : List Byte) (s : State) : Host.Outcome State Fault Refusal :=
  run (loadRegion h img) s

/-- LOAD_CHECK (R162). -/
def execLoadCheck (s : State) : Host.Outcome State Fault Refusal :=
  run loadCheck s

/-- LOAD_WRITE_END (R203). -/
def execLoadWriteEnd (s : State) : Host.Outcome State Fault Refusal :=
  run loadWriteEnd s

/-- ENTER_LOADING (R207). -/
def execEnterLoading (s : State) : Host.Outcome State Fault Refusal :=
  run enterLoading s

/-- ENTER_HELD (R209). -/
def execEnterHeld (k : Fin 8) (s : State) : Host.Outcome State Fault Refusal :=
  run (enterHeld k) s

/-- REGION_RELEASE (R211). -/
def execRegionRelease (s : State) : Host.Outcome State Fault Refusal :=
  run regionRelease s

/-- START_SEGMENT (R216). -/
def execStartSegment (beats : List (BitVec 16)) (s : State) : Host.Outcome State Fault Refusal :=
  run (startSegment beats) s

/-- DATA_SEGMENT (R216). -/
def execDataSegment (beats : List (BitVec 16)) (s : State) : Host.Outcome State Fault Refusal :=
  run (dataSegment beats) s

/-- END_SEGMENT (R217). -/
def execEndSegment (beats : List (BitVec 16)) (s : State) : Host.Outcome State Fault Refusal :=
  run (endSegment beats) s

/-- ABORT_SEGMENT (R216). -/
def execAbortSegment (beats : List (BitVec 16)) (s : State) : Host.Outcome State Fault Refusal :=
  run (abortSegment beats) s

/-- CFG_SEL_N_HIGH (R220). -/
def execCfgSelNHigh (s : State) : Host.Outcome State Fault Refusal :=
  run cfgSelHigh s

/-- CFG_SEL_N_LOW (R220). -/
def execCfgSelNLow (s : State) : Host.Outcome State Fault Refusal :=
  run cfgSelLow s

end Sys2Proof.Machine
end

