-- ==== Sys2Proof/Machine/ExecMonitor.lean ====
section
/-!
DEFINITION. The meanings of the commands of the monitor ADC, one for each row of the table: the row's effect on the
part, while the part is not held in reset.
-/
namespace Sys2Proof.Machine

/-- MON_CONVERT (R446). -/
def execMonConvert (h : Hdr) (s : State) : Host.Outcome State Fault Refusal :=
  run (monConvert h) s

/-- MONITOR_SCAN (R445). -/
def execMonitorScan (s : State) : Host.Outcome State Fault Refusal :=
  run monitorScan s

/-- CONVERSION_END (R447). -/
def execConversionEnd (code : BitVec 12) (s : State) : Host.Outcome State Fault Refusal :=
  run (conversionEnd code) s

/-- OPEN_WIRE_CHECK (R448). -/
def execOpenWireCheck (ch : Fin 32) (s : State) : Host.Outcome State Fault Refusal :=
  run (openWireCheck ch) s

/-- MONITOR_CALIBRATION (R432). -/
def execMonitorCalibration (s : State) : Host.Outcome State Fault Refusal :=
  run monitorCalibration s

/-- THERMAL_COMPARATOR (R449). -/
def execThermalComparator (die : Fin 4) (code : BitVec 12) (s : State) : Host.Outcome State Fault Refusal :=
  run (thermalComparator die code) s

end Sys2Proof.Machine
end

