-- ==== Sys2Proof/Machine/ExecPower.lean ====
section
/-!
DEFINITION. The meanings of the commands of resets, the boot, D-states, firmware and OTP, one for each row of the
table: the row's effect on the part, while the part is not held in reset.
-/
namespace Sys2Proof.Machine

/-- POWER_ON (R423). -/
def execPowerOn (rstLow : Bool) (pins : BitVec 6) (s : State) : Host.Outcome State Fault Refusal :=
  runAlways (powerOn rstLow pins) s

/-- SYS_RST_N_LOW (R423). -/
def execSysRstNLow (s : State) : Host.Outcome State Fault Refusal :=
  runAlways sysRstLow s

/-- SYS_RST_N_RELEASE (R425). -/
def execSysRstNRelease (pins : BitVec 6) (s : State) : Host.Outcome State Fault Refusal :=
  runAlways (sysRstRelease pins) s

/-- PERST_N_FALL (R423). -/
def execPerstNFall (pins : BitVec 6) (s : State) : Host.Outcome State Fault Refusal :=
  runAlways (perstFall pins) s

/-- PERST_N_RISE (R424). -/
def execPerstNRise (s : State) : Host.Outcome State Fault Refusal :=
  runAlways perstRise s

/-- PLL_LOCK (R426). -/
def execPllLock (s : State) : Host.Outcome State Fault Refusal :=
  run pllLock s

/-- OTP_READ (R441). -/
def execOtpRead (noFab noHbm noSrd : Bool) (dies : BitVec 4) (s : State) : Host.Outcome State Fault Refusal :=
  run (otpRead noFab noHbm noSrd dies) s

/-- IMAGE_FETCH_END (R427). -/
def execImageFetchEnd (a : ImageFetch) (s : State) : Host.Outcome State Fault Refusal :=
  run (imageFetchEnd a) s

/-- HST_BOOT_GO (R427). -/
def execHstBootGo (s : State) : Host.Outcome State Fault Refusal :=
  run hstBootGo s

/-- FIRMWARE_START (R436). -/
def execFirmwareStart (s : State) : Host.Outcome State Fault Refusal :=
  run firmwareStart s

/-- SELF_TEST_END (R432). -/
def execSelfTestEnd (test : Fin 8) (pass : Bool) (s : State) : Host.Outcome State Fault Refusal :=
  run (testEnds test pass) s

/-- HBM_TRAINING_END (R426). -/
def execHbmTrainingEnd (stack : Fin 2) (pass : Bool) (s : State) : Host.Outcome State Fault Refusal :=
  run (hbmTrainingEnd stack pass) s

/-- SEALING_INITIALISATION_END (R327). -/
def execSealingInitialisationEnd (stack : Fin 2) (entropy : Option (BitVec 384)) (s : State) : Host.Outcome State Fault Refusal :=
  run (sealingInitialisationEnd stack entropy) s

/-- D3HOT_ENTRY (R393). -/
def execD3hotEntry (s : State) : Host.Outcome State Fault Refusal :=
  run d3hotEntry s

/-- D0_RETURN (R394). -/
def execD0Return (s : State) : Host.Outcome State Fault Refusal :=
  run returnToD0 s

/-- WAKE (R395). -/
def execWake (src : WakeSource) (s : State) : Host.Outcome State Fault Refusal :=
  run (wake src) s

/-- SYS_OVR_EN_WRITE (R437). -/
def execSysOvrEnWrite (v : Bool) (s : State) : Host.Outcome State Fault Refusal :=
  run (sysOvrEnWrite v) s

/-- FW_UPDATE (R439). -/
def execFwUpdate (h : Hdr) (img : FwBytes) (s : State) : Host.Outcome State Fault Refusal :=
  run (fwUpdate h img) s

/-- OTP_WRITE_RECORD (R443). -/
def execOtpWriteRecord (h : Hdr) (payload : List Byte) (burnt : Option (List Byte)) (s : State) : Host.Outcome State Fault Refusal :=
  run (otpWriteRecord h payload burnt) s

/-- FLASH_WRITE_END (R439). -/
def execFlashWriteEnd (same : Bool) (s : State) : Host.Outcome State Fault Refusal :=
  run (flashWriteEnd same) s

end Sys2Proof.Machine
end

