-- ==== Sys2Proof/Machine/ExecPtp.lean ====
section
/-!
DEFINITION. The meanings of the commands of the management ports and the ordinary clock, one for each row of the
table: the row's effect on the part, while the part is not held in reset.
-/
namespace Sys2Proof.Machine

/-- MGMT_FRAME (R360). -/
def execMgmtFrame (port : Fin 2) (frame : List Byte) (frac : Fin 512) (through : Nat)
    (s : State) : Host.Outcome State Fault Refusal :=
  run (mgmtFrame port frame frac through) s

/-- MGMT_LINK_CHANGE (R368). -/
def execMgmtLinkChange (port : Fin 2) (up : Bool) (s : State) : Host.Outcome State Fault Refusal :=
  run (mgmtLinkChange port up) s

/-- PTP_SYNC (R361). -/
def execPtpSync (frame : List Byte) (frac : Fin 512) (s : State) : Host.Outcome State Fault Refusal :=
  run (ptpSync frame frac) s

/-- PTP_FOLLOW_UP (R361). -/
def execPtpFollowUp (frame : List Byte) (s : State) : Host.Outcome State Fault Refusal :=
  run (ptpFollowUp frame) s

/-- PTP_ANNOUNCE (R361). -/
def execPtpAnnounce (frame : List Byte) (s : State) : Host.Outcome State Fault Refusal :=
  run (ptpAnnounce frame) s

/-- PTP_DELAY_RESP (R361). -/
def execPtpDelayResp (frame : List Byte) (s : State) : Host.Outcome State Fault Refusal :=
  run (ptpDelayResp frame) s

/-- DELAY_REQ_SEND (R361). -/
def execDelayReqSend (frac : Fin 512) (s : State) : Host.Outcome State Fault Refusal :=
  run (delayReqSend frac) s

/-- ANNOUNCE_TIMEOUT (R361). -/
def execAnnounceTimeout (s : State) : Host.Outcome State Fault Refusal :=
  run announceTimeout s

end Sys2Proof.Machine
end

