-- ==== Sys2Proof/Machine/ExecReadout.lean ====
section
/-!
DEFINITION. The meanings of the commands of readout, one for each row of the table: the row's effect on the part,
while the part is not held in reset.
-/
namespace Sys2Proof.Machine

/-- WINDOW_COMPLETE (R276). -/
def execWindowComplete (s : State) : Host.Outcome State Fault Refusal :=
  run windowComplete s

/-- INSTANCE_START (R281). -/
def execInstanceStart (s : State) : Host.Outcome State Fault Refusal :=
  run instanceStart s

/-- TASK_DISPATCH (R284). -/
def execTaskDispatch (s : State) : Host.Outcome State Fault Refusal :=
  run taskDispatch s

/-- TASK_COMPLETE (R282). -/
def execTaskComplete (j : Fin 32) (outcome : Fin 3) (writes : List (Fin 16 × List Byte))
    (s : State) : Host.Outcome State Fault Refusal :=
  run (taskComplete j outcome writes) s

/-- TASK_TIMEOUT (R285). -/
def execTaskTimeout (j : Fin 32) (s : State) : Host.Outcome State Fault Refusal :=
  run (taskTimeout j) s

/-- GATHER (R279). -/
def execGather (j : Fin 32) (s : State) : Host.Outcome State Fault Refusal :=
  run (nodeGather j) s

/-- ZSUPP (R279). -/
def execZsupp (j : Fin 32) (s : State) : Host.Outcome State Fault Refusal :=
  run (nodeZsupp j) s

/-- PACK (R279). -/
def execPack (j : Fin 32) (s : State) : Host.Outcome State Fault Refusal :=
  run (nodePack j) s

/-- CHECKSUM (R279). -/
def execChecksum (j : Fin 32) (s : State) : Host.Outcome State Fault Refusal :=
  run (nodeChecksum j) s

/-- SEND_RING (R287). -/
def execSendRing (j : Fin 32) (s : State) : Host.Outcome State Fault Refusal :=
  run (nodeSendRing j) s

/-- SEND_LANE (R288). -/
def execSendLane (j : Fin 32) (s : State) : Host.Outcome State Fault Refusal :=
  run (nodeSendLane j) s

/-- RELEASE (R279). -/
def execRelease (j : Fin 32) (s : State) : Host.Outcome State Fault Refusal :=
  run (nodeRelease j) s

/-- RING_WAIT_TIMEOUT (R287). -/
def execRingWaitTimeout (j : Fin 32) (s : State) : Host.Outcome State Fault Refusal :=
  run (ringWaitTimeout j) s

/-- RDO_GRAPH_LOAD (R277). -/
def execRdoGraphLoad (h : Hdr) (img : List Byte) (s : State) : Host.Outcome State Fault Refusal :=
  run (rdoGraphLoad h img) s

/-- RDO_POLICY (R286). -/
def execRdoPolicy (h : Hdr) (s : State) : Host.Outcome State Fault Refusal :=
  run (rdoPolicy h) s

end Sys2Proof.Machine
end

