-- ==== Sys2Proof/Machine/ExecSealed.lean ====
section
/-!
DEFINITION. The meanings of the commands of sealed memory, one for each row of the table: the row's effect on the
part, while the part is not held in reset.
-/
namespace Sys2Proof.Machine

/-- SEALED_READ (R333). -/
def execSealedRead (u : SealUser) (a len : BitVec 64) (ds : List Disturb)
    (s : State) : Host.Outcome State Fault Refusal :=
  run (sealedRead u a len ds) s

/-- SEALED_WRITE (R334). -/
def execSealedWrite (u : SealUser) (a : BitVec 64) (b : List Byte) (ds : List Disturb)
    (s : State) : Host.Outcome State Fault Refusal :=
  run (sealedWrite u a b ds) s

/-- REKEY (R341). -/
def execRekey (h : Hdr) (entropy : Option (BitVec 384)) (s : State) : Host.Outcome State Fault Refusal :=
  run (rekey h entropy) s

/-- REKEY_AUTO_START (R338). -/
def execRekeyAutoStart (k : Fin 16) (entropy : Option (BitVec 384)) (s : State) : Host.Outcome State Fault Refusal :=
  run (rekeyAutoStart k entropy) s

/-- REKEY_DEFERRED_START (R341). -/
def execRekeyDeferredStart (entropy : Option (BitVec 384)) (s : State) : Host.Outcome State Fault Refusal :=
  run (rekeyDeferredStart entropy) s

/-- REKEY_WALK_END (R339). -/
def execRekeyWalkEnd (s : State) : Host.Outcome State Fault Refusal :=
  run rekeyWalkEnd s

/-- IDENTITY_RETIRED (R340). -/
def execIdentityRetired (kid : Fin 4) (s : State) : Host.Outcome State Fault Refusal :=
  run (identityRetired kid) s

end Sys2Proof.Machine
end

