-- ==== Sys2Proof/Machine/ExecSpindle.lean ====
section
/-!
DEFINITION. The meanings of the commands of the spindle instructions, one for each row of the table: the row's effect
on the part, while the part is not held in reset.
-/
namespace Sys2Proof.Machine

/-- NOP (R85). -/
def execNop (col row idx step : Nat) (s : State) : Host.Outcome State Fault Refusal :=
  run (spNop ⟨col, row, idx, step⟩) s

/-- BOOL3 (R86). -/
def execBool3 (col row idx step : Nat) (s : State) : Host.Outcome State Fault Refusal :=
  run (spBool3 ⟨col, row, idx, step⟩) s

/-- MOVE (R86). -/
def execMove (col row idx step : Nat) (s : State) : Host.Outcome State Fault Refusal :=
  run (spMove ⟨col, row, idx, step⟩) s

/-- SEL (R86). -/
def execSel (col row idx step : Nat) (s : State) : Host.Outcome State Fault Refusal :=
  run (spSel ⟨col, row, idx, step⟩) s

/-- ADD (R87). -/
def execAdd (col row idx step : Nat) (s : State) : Host.Outcome State Fault Refusal :=
  run (spAdd ⟨col, row, idx, step⟩) s

/-- SUB (R87). -/
def execSub (col row idx step : Nat) (s : State) : Host.Outcome State Fault Refusal :=
  run (spSub ⟨col, row, idx, step⟩) s

/-- CMP (R88). -/
def execCmp (col row idx step : Nat) (s : State) : Host.Outcome State Fault Refusal :=
  run (spCmp ⟨col, row, idx, step⟩) s

/-- MIN (R87). -/
def execMin (col row idx step : Nat) (s : State) : Host.Outcome State Fault Refusal :=
  run (spMin ⟨col, row, idx, step⟩) s

/-- MAX (R87). -/
def execMax (col row idx step : Nat) (s : State) : Host.Outcome State Fault Refusal :=
  run (spMax ⟨col, row, idx, step⟩) s

/-- CMPX (R89). -/
def execCmpx (col row idx step : Nat) (s : State) : Host.Outcome State Fault Refusal :=
  run (spCmpx ⟨col, row, idx, step⟩) s

/-- SHF (R91). -/
def execShf (col row idx step : Nat) (s : State) : Host.Outcome State Fault Refusal :=
  run (spShf ⟨col, row, idx, step⟩) s

/-- ROT (R91). -/
def execRot (col row idx step : Nat) (s : State) : Host.Outcome State Fault Refusal :=
  run (spRot ⟨col, row, idx, step⟩) s

/-- POPC (R92). -/
def execPopc (col row idx step : Nat) (s : State) : Host.Outcome State Fault Refusal :=
  run (spPopc ⟨col, row, idx, step⟩) s

/-- PRIO (R92). -/
def execPrio (col row idx step : Nat) (s : State) : Host.Outcome State Fault Refusal :=
  run (spPrio ⟨col, row, idx, step⟩) s

/-- LDI (R86). -/
def execLdi (col row idx step : Nat) (s : State) : Host.Outcome State Fault Refusal :=
  run (spLdi ⟨col, row, idx, step⟩) s

/-- SEND (R93). -/
def execSend (col row idx step : Nat) (s : State) : Host.Outcome State Fault Refusal :=
  run (spSend ⟨col, row, idx, step⟩) s

/-- RECV (R94). -/
def execRecv (col row idx step : Nat) (s : State) : Host.Outcome State Fault Refusal :=
  run (spRecv ⟨col, row, idx, step⟩) s

/-- BPUB (R95). -/
def execBpub (col row idx step : Nat) (s : State) : Host.Outcome State Fault Refusal :=
  run (spBpub ⟨col, row, idx, step⟩) s

/-- TBLR (R96). -/
def execTblr (col row idx step : Nat) (s : State) : Host.Outcome State Fault Refusal :=
  run (spTblr ⟨col, row, idx, step⟩) s

/-- TBLW (R96). -/
def execTblw (col row idx step : Nat) (s : State) : Host.Outcome State Fault Refusal :=
  run (spTblw ⟨col, row, idx, step⟩) s

/-- PIN (R99). -/
def execPin (col row idx step : Nat) (s : State) : Host.Outcome State Fault Refusal :=
  run (spPin ⟨col, row, idx, step⟩) s

/-- POUT (R137). -/
def execPout (col row idx step : Nat) (s : State) : Host.Outcome State Fault Refusal :=
  run (spPout ⟨col, row, idx, step⟩) s

/-- HIST (R100). -/
def execHist (col row idx step : Nat) (s : State) : Host.Outcome State Fault Refusal :=
  run (spHist ⟨col, row, idx, step⟩) s

/-- PROBE (R100). -/
def execProbe (col row idx step : Nat) (s : State) : Host.Outcome State Fault Refusal :=
  run (spProbe ⟨col, row, idx, step⟩) s

/-- ACCEPT (R101). -/
def execAccept (col row idx step : Nat) (s : State) : Host.Outcome State Fault Refusal :=
  run (spAccept ⟨col, row, idx, step⟩) s

/-- UEVT (R101). -/
def execUevt (col row idx step : Nat) (s : State) : Host.Outcome State Fault Refusal :=
  run (spUevt ⟨col, row, idx, step⟩) s

/-- STAT (R101). -/
def execStat (col row idx step : Nat) (s : State) : Host.Outcome State Fault Refusal :=
  run (spStat ⟨col, row, idx, step⟩) s

end Sys2Proof.Machine
end

