-- ==== Sys2Proof/Machine/ExecSvn.lean ====
section
/-!
DEFINITION. The meanings of the commands of the service network, one for each row of the table: the row's effect on
the part, while the part is not held in reset.
-/
namespace Sys2Proof.Machine

/-- SVN_MODE_WRITE (R404). -/
def execSvnModeWrite (sink : Bool) (s : State) : Host.Outcome State Fault Refusal :=
  run (svnModeWrite sink) s

/-- SVN_MODE_SWITCH (R404). -/
def execSvnModeSwitch (s : State) : Host.Outcome State Fault Refusal :=
  run svnModeSwitch s

/-- ROUTE_WRITE (R402). -/
def execRouteWrite (n : Fin 64) (d : Fin 8) (v : Reg32) (s : State) : Host.Outcome State Fault Refusal :=
  run (routeWrite n d v) s

/-- SVN_EREC_CLR (R407). -/
def execSvnErecClr (s : State) : Host.Outcome State Fault Refusal :=
  run svnErecClr s

/-- SERVICE_REQUEST (R400). -/
def execServiceRequest (flits : List Flit) (urgent : Bool) (host : List Byte) (balls : BitVec 64)
    (s : State) : Host.Outcome State Fault Refusal :=
  run (serviceRequest flits urgent host balls) s

/-- RESPONSE_ARRIVAL (R405). -/
def execResponseArrival (ni : Fin 64) (tag : BitVec 12) (flips : List (BitVec 144))
    (s : State) : Host.Outcome State Fault Refusal :=
  run (responseArrival ni tag flips) s

/-- ERROR_NOTICE (R406). -/
def execErrorNotice (s : State) : Host.Outcome State Fault Refusal :=
  run errorNotice s

/-- REQUEST_TIMEOUT (R405). -/
def execRequestTimeout (ni : Fin 64) (tag : BitVec 12) (s : State) : Host.Outcome State Fault Refusal :=
  run (requestTimeout ni tag) s

end Sys2Proof.Machine
end

