-- ==== Sys2Proof/Machine/ExecTime.lean ====
section
/-!
DEFINITION. The meanings of the commands of device time, one for each row of the table: the row's effect on the part,
while the part is not held in reset.
-/
namespace Sys2Proof.Machine

/-- TIME_SET (R354). -/
def execTimeSet (h : Hdr) (s : State) : Host.Outcome State Fault Refusal :=
  run (timeSet h) s

/-- TIME_ADJ (R355). -/
def execTimeAdj (h : Hdr) (s : State) : Host.Outcome State Fault Refusal :=
  run (timeAdj h) s

/-- SLEW_END (R355). -/
def execSlewEnd (s : State) : Host.Outcome State Fault Refusal :=
  run slewEnd s

/-- TIME_INCREMENT (R352). -/
def execTimeIncrement (h : Hdr) (s : State) : Host.Outcome State Fault Refusal :=
  run (timeIncrement h) s

/-- INCREMENT_APPLY (R352). -/
def execIncrementApply (s : State) : Host.Outcome State Fault Refusal :=
  run incrementApply s

/-- HOLDOVER_TIMEOUT (R351). -/
def execHoldoverTimeout (s : State) : Host.Outcome State Fault Refusal :=
  run holdoverTimeout s

/-- PPS_IN_EDGE (R349). -/
def execPpsInEdge (frac : Fin 512) (s : State) : Host.Outcome State Fault Refusal :=
  run (ppsInEdge frac) s

/-- PPS_OUT_PULSE (R365). -/
def execPpsOutPulse (s : State) : Host.Outcome State Fault Refusal :=
  run ppsOutPulse s

/-- TIME_ALARM (R367). -/
def execTimeAlarm (s : State) : Host.Outcome State Fault Refusal :=
  run timeAlarm s

end Sys2Proof.Machine
end

