-- ==== Sys2Proof/Machine/ExecTrace.lean ====
section
/-!
DEFINITION. The meanings of the commands of trace, one for each row of the table: the row's effect on the part, while
the part is not held in reset.
-/
namespace Sys2Proof.Machine

/-- CHUTE_TAKE (R314). -/
def execChuteTake (msgs : List (Fin 33 × List Byte)) (s : State) : Host.Outcome State Fault Refusal :=
  run (chuteTake msgs) s

/-- COUNTER_SHAVING (R308). -/
def execCounterShaving (m : Fin 8) (flits stalls : BitVec 128) (s : State) : Host.Outcome State Fault Refusal :=
  run (counterShaving m flits stalls) s

/-- CHUNK_TIMEOUT (R315). -/
def execChunkTimeout (s : State) : Host.Outcome State Fault Refusal :=
  run chunkTimeout s

/-- TRACE_STOP_INSTANT (R316). -/
def execTraceStopInstant (s : State) : Host.Outcome State Fault Refusal :=
  run traceStopInstant s

/-- SINK_FULL_TIMEOUT (R319). -/
def execSinkFullTimeout (s : State) : Host.Outcome State Fault Refusal :=
  run sinkFullTimeout s

/-- TRACE_START (R317). -/
def execTraceStart (h : Hdr) (s : State) : Host.Outcome State Fault Refusal :=
  run (traceStart h) s

/-- TRACE_STOP (R317). -/
def execTraceStop (h : Hdr) (s : State) : Host.Outcome State Fault Refusal :=
  run (traceStop h) s

/-- TRACE_TRIGGER (R317). -/
def execTraceTrigger (h : Hdr) (s : State) : Host.Outcome State Fault Refusal :=
  run (traceTriggerCmd h) s

/-- SET_SOURCES (R317). -/
def execSetSources (h : Hdr) (s : State) : Host.Outcome State Fault Refusal :=
  run (setSources h) s

/-- DRAIN (R317). -/
def execDrain (h : Hdr) (s : State) : Host.Outcome State Fault Refusal :=
  run (drain h) s

/-- DRAIN_END (R319). -/
def execDrainEnd (s : State) : Host.Outcome State Fault Refusal :=
  run drainEnd s

/-- AUTH (R318). -/
def execAuth (h : Hdr) (buf : List Byte) (s : State) : Host.Outcome State Fault Refusal :=
  run (auth h buf) s

end Sys2Proof.Machine
end

