-- ==== Sys2Proof/Machine/Dispatch.lean ====
section
/-!
DEFINITION. The dispatch of a command to its meaning, one arm for each constructor of Instr.
-/
namespace Sys2Proof.Machine

def exec (i : Instr) (s : State) : Host.Outcome State Fault Refusal :=
  match i with
  | .powerOn rstLow pins => Sys2Proof.Machine.execPowerOn rstLow pins s
  | .sysRstNLow => Sys2Proof.Machine.execSysRstNLow s
  | .sysRstNRelease pins => Sys2Proof.Machine.execSysRstNRelease pins s
  | .perstNFall pins => Sys2Proof.Machine.execPerstNFall pins s
  | .perstNRise => Sys2Proof.Machine.execPerstNRise s
  | .hotReset => Sys2Proof.Machine.execHotReset s
  | .busMasterEnable => Sys2Proof.Machine.execBusMasterEnable s
  | .pcieLinkChange rate width => Sys2Proof.Machine.execPcieLinkChange rate width s
  | .aerError kind status => Sys2Proof.Machine.execAerError kind status s
  | .pllLock => Sys2Proof.Machine.execPllLock s
  | .otpRead noFab noHbm noSrd dies => Sys2Proof.Machine.execOtpRead noFab noHbm noSrd dies s
  | .imageFetchEnd a => Sys2Proof.Machine.execImageFetchEnd a s
  | .hstBootGo => Sys2Proof.Machine.execHstBootGo s
  | .firmwareStart => Sys2Proof.Machine.execFirmwareStart s
  | .selfTestEnd test pass => Sys2Proof.Machine.execSelfTestEnd test pass s
  | .hbmTrainingEnd stack pass => Sys2Proof.Machine.execHbmTrainingEnd stack pass s
  | .sealingInitialisationEnd stack entropy => Sys2Proof.Machine.execSealingInitialisationEnd stack entropy s
  | .d3hotEntry => Sys2Proof.Machine.execD3hotEntry s
  | .d0Return => Sys2Proof.Machine.execD0Return s
  | .wake src => Sys2Proof.Machine.execWake src s
  | .registerWrite off v => Sys2Proof.Machine.execRegisterWrite off v s
  | .lowWordRead off balls => Sys2Proof.Machine.execLowWordRead off balls s
  | .readClear off balls => Sys2Proof.Machine.execReadClear off balls s
  | .timNowFracRead => Sys2Proof.Machine.execTimNowFracRead s
  | .debugWindowRead off => Sys2Proof.Machine.execDebugWindowRead off s
  | .i2cAccess addr written reads balls => Sys2Proof.Machine.execI2cAccess addr written reads balls s
  | .sealEncEnWrite v => Sys2Proof.Machine.execSealEncEnWrite v s
  | .sealRegionWrite k size v => Sys2Proof.Machine.execSealRegionWrite k size v s
  | .svnModeWrite sink => Sys2Proof.Machine.execSvnModeWrite sink s
  | .svnModeSwitch => Sys2Proof.Machine.execSvnModeSwitch s
  | .routeWrite n d v => Sys2Proof.Machine.execRouteWrite n d v s
  | .svnErecClr => Sys2Proof.Machine.execSvnErecClr s
  | .sysOvrEnWrite v => Sys2Proof.Machine.execSysOvrEnWrite v s
  | .ringSetupWrite off v => Sys2Proof.Machine.execRingSetupWrite off v s
  | .msixUnmask v addr data => Sys2Proof.Machine.execMsixUnmask v addr data s
  | .poll => Sys2Proof.Machine.execPoll s
  | .pollBatchReturn b => Sys2Proof.Machine.execPollBatchReturn b s
  | .nopCommand h => Sys2Proof.Machine.execNopCommand h s
  | .query h => Sys2Proof.Machine.execQuery h s
  | .countersRead h => Sys2Proof.Machine.execCountersRead h s
  | .countersReadClear h => Sys2Proof.Machine.execCountersReadClear h s
  | .loadBlank h img => Sys2Proof.Machine.execLoadBlank h img s
  | .loadRegion h img => Sys2Proof.Machine.execLoadRegion h img s
  | .loadCheck => Sys2Proof.Machine.execLoadCheck s
  | .loadWriteEnd => Sys2Proof.Machine.execLoadWriteEnd s
  | .enterLoading => Sys2Proof.Machine.execEnterLoading s
  | .enterHeld k => Sys2Proof.Machine.execEnterHeld k s
  | .regionRelease => Sys2Proof.Machine.execRegionRelease s
  | .admitFabric h => Sys2Proof.Machine.execAdmit h s
  | .start h => Sys2Proof.Machine.execStart h s
  | .enterRunning => Sys2Proof.Machine.execEnterRunning s
  | .stop h => Sys2Proof.Machine.execStop h s
  | .enterStopped => Sys2Proof.Machine.execEnterStopped s
  | .halt h => Sys2Proof.Machine.execHalt h s
  | .haltN => Sys2Proof.Machine.execHaltN s
  | .haltTakesEffect => Sys2Proof.Machine.execHaltTakesEffect s
  | .tickBoundary phase balls => Sys2Proof.Machine.execTickBoundary phase balls s
  | .nop col row idx step => Sys2Proof.Machine.execNop col row idx step s
  | .bool3 col row idx step => Sys2Proof.Machine.execBool3 col row idx step s
  | .move col row idx step => Sys2Proof.Machine.execMove col row idx step s
  | .sel col row idx step => Sys2Proof.Machine.execSel col row idx step s
  | .add col row idx step => Sys2Proof.Machine.execAdd col row idx step s
  | .sub col row idx step => Sys2Proof.Machine.execSub col row idx step s
  | .cmp col row idx step => Sys2Proof.Machine.execCmp col row idx step s
  | .min col row idx step => Sys2Proof.Machine.execMin col row idx step s
  | .max col row idx step => Sys2Proof.Machine.execMax col row idx step s
  | .cmpx col row idx step => Sys2Proof.Machine.execCmpx col row idx step s
  | .shf col row idx step => Sys2Proof.Machine.execShf col row idx step s
  | .rot col row idx step => Sys2Proof.Machine.execRot col row idx step s
  | .popc col row idx step => Sys2Proof.Machine.execPopc col row idx step s
  | .prio col row idx step => Sys2Proof.Machine.execPrio col row idx step s
  | .ldi col row idx step => Sys2Proof.Machine.execLdi col row idx step s
  | .send col row idx step => Sys2Proof.Machine.execSend col row idx step s
  | .recv col row idx step => Sys2Proof.Machine.execRecv col row idx step s
  | .bpub col row idx step => Sys2Proof.Machine.execBpub col row idx step s
  | .tblr col row idx step => Sys2Proof.Machine.execTblr col row idx step s
  | .tblw col row idx step => Sys2Proof.Machine.execTblw col row idx step s
  | .pin col row idx step => Sys2Proof.Machine.execPin col row idx step s
  | .pout col row idx step => Sys2Proof.Machine.execPout col row idx step s
  | .hist col row idx step => Sys2Proof.Machine.execHist col row idx step s
  | .probe col row idx step => Sys2Proof.Machine.execProbe col row idx step s
  | .accept col row idx step => Sys2Proof.Machine.execAccept col row idx step s
  | .uevt col row idx step => Sys2Proof.Machine.execUevt col row idx step s
  | .stat col row idx step => Sys2Proof.Machine.execStat col row idx step s
  | .grainSlot col row step => Sys2Proof.Machine.execGrainSlot col row step s
  | .tableWrite h list => Sys2Proof.Machine.execTableWrite h list s
  | .tableWriteApply => Sys2Proof.Machine.execTableWriteApply s
  | .startSegment beats => Sys2Proof.Machine.execStartSegment beats s
  | .dataSegment beats => Sys2Proof.Machine.execDataSegment beats s
  | .endSegment beats => Sys2Proof.Machine.execEndSegment beats s
  | .abortSegment beats => Sys2Proof.Machine.execAbortSegment beats s
  | .cfgSelNHigh => Sys2Proof.Machine.execCfgSelNHigh s
  | .cfgSelNLow => Sys2Proof.Machine.execCfgSelNLow s
  | .frameTransmit n => Sys2Proof.Machine.execFrameTransmit n s
  | .receiveFrame n bits posOk first slack => Sys2Proof.Machine.execReceiveFrame n bits posOk first slack s
  | .lossFramesExpiry n => Sys2Proof.Machine.execLossFramesExpiry n s
  | .signalLoss n => Sys2Proof.Machine.execSignalLoss n s
  | .forwardedClockLoss n => Sys2Proof.Machine.execForwardedClockLoss n s
  | .trackingLimit n => Sys2Proof.Machine.execTrackingLimit n s
  | .forwardedClockDetect n rate => Sys2Proof.Machine.execForwardedClockDetect n rate s
  | .samplingPointCentred n => Sys2Proof.Machine.execSamplingPointCentred n s
  | .bitLock n => Sys2Proof.Machine.execBitLock n s
  | .trainTimeout n => Sys2Proof.Machine.execTrainTimeout n s
  | .lockTimeout n => Sys2Proof.Machine.execLockTimeout n s
  | .exchangeTimeout n => Sys2Proof.Machine.execExchangeTimeout n s
  | .attemptsLimit n => Sys2Proof.Machine.execAttemptsLimit n s
  | .capabilityMessage n => Sys2Proof.Machine.execCapabilityMessage n s
  | .timeMessage n => Sys2Proof.Machine.execTimeMessage n s
  | .receiverDetection n => Sys2Proof.Machine.execReceiverDetection n s
  | .tp1TimeEnd n => Sys2Proof.Machine.execTp1TimeEnd n s
  | .tp2TimeEnd n => Sys2Proof.Machine.execTp2TimeEnd n s
  | .txEnterActive n => Sys2Proof.Machine.execTxEnterActive n s
  | .lineClockPllLoss g => Sys2Proof.Machine.execLineClockPllLoss g s
  | .linkRetrain h => Sys2Proof.Machine.execLinkRetrain h s
  | .linkTakeDown h => Sys2Proof.Machine.execLinkTakeDown h s
  | .linkBringUp h => Sys2Proof.Machine.execLinkBringUp h s
  | .linkClear h => Sys2Proof.Machine.execLinkClear h s
  | .historyWrite => Sys2Proof.Machine.execHistoryWrite s
  | .spillEnd id => Sys2Proof.Machine.execSpillEnd id s
  | .releaseTransferEnd id => Sys2Proof.Machine.execReleaseTransferEnd id s
  | .retentionExpiry id => Sys2Proof.Machine.execRetentionExpiry id s
  | .acceptIn => Sys2Proof.Machine.execAcceptIn s
  | .acceptCommand h => Sys2Proof.Machine.execAcceptCommand h s
  | .windowComplete => Sys2Proof.Machine.execWindowComplete s
  | .instanceStart => Sys2Proof.Machine.execInstanceStart s
  | .taskDispatch => Sys2Proof.Machine.execTaskDispatch s
  | .taskComplete j outcome writes => Sys2Proof.Machine.execTaskComplete j outcome writes s
  | .taskTimeout j => Sys2Proof.Machine.execTaskTimeout j s
  | .gather j => Sys2Proof.Machine.execGather j s
  | .zsupp j => Sys2Proof.Machine.execZsupp j s
  | .pack j => Sys2Proof.Machine.execPack j s
  | .checksum j => Sys2Proof.Machine.execChecksum j s
  | .sendRing j => Sys2Proof.Machine.execSendRing j s
  | .sendLane j => Sys2Proof.Machine.execSendLane j s
  | .release j => Sys2Proof.Machine.execRelease j s
  | .ringWaitTimeout j => Sys2Proof.Machine.execRingWaitTimeout j s
  | .rdoGraphLoad h img => Sys2Proof.Machine.execRdoGraphLoad h img s
  | .rdoPolicy h => Sys2Proof.Machine.execRdoPolicy h s
  | .captureArm h => Sys2Proof.Machine.execCaptureArm h s
  | .captureDisarm h => Sys2Proof.Machine.execCaptureDisarm h s
  | .decisionInstant => Sys2Proof.Machine.execDecisionInstant s
  | .captureRearm u => Sys2Proof.Machine.execCaptureRearm u s
  | .segmentDelivery => Sys2Proof.Machine.execSegmentDelivery s
  | .deliveryWaitTimeout => Sys2Proof.Machine.execDeliveryWaitTimeout s
  | .tbusDrive => Sys2Proof.Machine.execTbusDrive s
  | .tbusSample lines => Sys2Proof.Machine.execTbusSample lines s
  | .chuteTake msgs => Sys2Proof.Machine.execChuteTake msgs s
  | .counterShaving m flits stalls => Sys2Proof.Machine.execCounterShaving m flits stalls s
  | .chunkTimeout => Sys2Proof.Machine.execChunkTimeout s
  | .traceStopInstant => Sys2Proof.Machine.execTraceStopInstant s
  | .sinkFullTimeout => Sys2Proof.Machine.execSinkFullTimeout s
  | .traceStart h => Sys2Proof.Machine.execTraceStart h s
  | .traceStop h => Sys2Proof.Machine.execTraceStop h s
  | .traceTrigger h => Sys2Proof.Machine.execTraceTrigger h s
  | .setSources h => Sys2Proof.Machine.execSetSources h s
  | .drain h => Sys2Proof.Machine.execDrain h s
  | .drainEnd => Sys2Proof.Machine.execDrainEnd s
  | .auth h buf => Sys2Proof.Machine.execAuth h buf s
  | .sealedRead u a len d => Sys2Proof.Machine.execSealedRead u a len d s
  | .sealedWrite u a b d => Sys2Proof.Machine.execSealedWrite u a b d s
  | .rekey h entropy => Sys2Proof.Machine.execRekey h entropy s
  | .rekeyAutoStart k entropy => Sys2Proof.Machine.execRekeyAutoStart k entropy s
  | .rekeyDeferredStart entropy => Sys2Proof.Machine.execRekeyDeferredStart entropy s
  | .rekeyWalkEnd => Sys2Proof.Machine.execRekeyWalkEnd s
  | .identityRetired kid => Sys2Proof.Machine.execIdentityRetired kid s
  | .timeSet h => Sys2Proof.Machine.execTimeSet h s
  | .timeAdj h => Sys2Proof.Machine.execTimeAdj h s
  | .slewEnd => Sys2Proof.Machine.execSlewEnd s
  | .timeIncrement h => Sys2Proof.Machine.execTimeIncrement h s
  | .incrementApply => Sys2Proof.Machine.execIncrementApply s
  | .holdoverTimeout => Sys2Proof.Machine.execHoldoverTimeout s
  | .ppsInEdge frac => Sys2Proof.Machine.execPpsInEdge frac s
  | .ppsOutPulse => Sys2Proof.Machine.execPpsOutPulse s
  | .timeAlarm => Sys2Proof.Machine.execTimeAlarm s
  | .mgmtFrame port frame frac through => Sys2Proof.Machine.execMgmtFrame port frame frac through s
  | .mgmtLinkChange port up => Sys2Proof.Machine.execMgmtLinkChange port up s
  | .ptpSync frame frac => Sys2Proof.Machine.execPtpSync frame frac s
  | .ptpFollowUp frame => Sys2Proof.Machine.execPtpFollowUp frame s
  | .ptpAnnounce frame => Sys2Proof.Machine.execPtpAnnounce frame s
  | .ptpDelayResp frame => Sys2Proof.Machine.execPtpDelayResp frame s
  | .delayReqSend frac => Sys2Proof.Machine.execDelayReqSend frac s
  | .announceTimeout => Sys2Proof.Machine.execAnnounceTimeout s
  | .eventRingWrite => Sys2Proof.Machine.execEventRingWrite s
  | .moderationTimeout r => Sys2Proof.Machine.execModerationTimeout r s
  | .completionBlockTimeout c => Sys2Proof.Machine.execCompletionBlockTimeout c s
  | .ringFault r poisoned => Sys2Proof.Machine.execRingFault r poisoned s
  | .serviceRequest flits urgent host balls => Sys2Proof.Machine.execServiceRequest flits urgent host balls s
  | .responseArrival ni tag flips => Sys2Proof.Machine.execResponseArrival ni tag flips s
  | .errorNotice => Sys2Proof.Machine.execErrorNotice s
  | .requestTimeout ni tag => Sys2Proof.Machine.execRequestTimeout ni tag s
  | .monConvert h => Sys2Proof.Machine.execMonConvert h s
  | .monitorScan => Sys2Proof.Machine.execMonitorScan s
  | .conversionEnd code => Sys2Proof.Machine.execConversionEnd code s
  | .openWireCheck ch => Sys2Proof.Machine.execOpenWireCheck ch s
  | .monitorCalibration => Sys2Proof.Machine.execMonitorCalibration s
  | .thermalComparator die code => Sys2Proof.Machine.execThermalComparator die code s
  | .fwUpdate h img => Sys2Proof.Machine.execFwUpdate h img s
  | .otpWriteRecord h payload burnt => Sys2Proof.Machine.execOtpWriteRecord h payload burnt s
  | .flashWriteEnd same => Sys2Proof.Machine.execFlashWriteEnd same s

end Sys2Proof.Machine
end

