-- ==== Sys2Proof/Machine/Vocabulary.lean ====
section
/-!
DEFINITION. The words in which the statements about the machine are put: when a command runs, when a spindle executes an
instruction, and the canonical form of the maps that a state holds.
-/
namespace Sys2Proof.Machine

/-- The state with another part. -/
def withPart (s : State) (p : Part) : State := { s with part := p }

/-- SYS_RST_N is high: the part is not held in reset (R423). -/
abbrev awake (s : State) : Prop := s.part.boot.rstLow = false

/-- A command of the host may begin, in no part halt and in D0 (R377, R180, R393). -/
abbrev mayRun (p : Part) (h : Hdr) (op : Nat) : Prop :=
  mayBegin h op p.host.inflight = true ∧ partHalted p = false ∧ inD3 p = false

/-- A command of the host begins and carries out its opcode: it may run, and no reserved bit of it is set (R16). -/
abbrev commandRuns (p : Part) (h : Hdr) (op : Nat) : Prop := mayRun p h op ∧ h.rsv = false

/-- The unit of a subsystem is present and not in self-test (R430, R433). -/
abbrev unitReady (p : Part) (n : Nat) : Prop := unitTesting p n = false ∧ unitAbsent p n = false

/-- A spindle executes the instruction `i` at a site: it issues, and the entry it fetches has no uncorrectable error and
spells `i` (R29, R58 to R60, R74). -/
abbrev executes (s : State) (a : Site) (i : SpInstr) : Prop :=
  awake s ∧ issues s.part a = true ∧ eccKind (seenEntry s.part a) ≠ .double ∧
  decodeSp (eccData (iword s.part (entryKey a))) = some i

/-- No word that the operands read has an uncorrectable error (R60). -/
abbrev readable (s : State) (a : Site) (os : List Opnd) : Prop := (readStages (fetched s.part a) a os).2 = false

/-- The part once the operands of a site are read, with their values (R31 to R37, R59, R79). -/
def opnds (s : State) (a : Site) (os : List Opnd) : Part × List Word :=
  opndValues (readStages (fetched s.part a) a os).1 a os

/-- Operand number `k` of a site. -/
def opndAt (s : State) (a : Site) (os : List Opnd) (k : Nat) : Word := val (opnds s a os).2 k

/-- The table access of a site is the one that its billet performs at the step: none was performed at it, and no spindle
of a lower index issues one (R97). -/
abbrev tableTurn (s : State) (a : Site) (os : List Opnd) : Prop :=
  smapGet (fun _ => 0) s.part.sp.tableStep a.bil ≠ a.step ∧
  ∀ i < a.idx, issuesTable (opnds s a os).1 { a with idx := i } = false

/-- The operands that an instruction reads from data memory, the bus, the grain or TR, in order. -/
def opndsOf : SpInstr → List Opnd
  | .nop | .ldi .. | .pin .. => []
  | .bool3 _ x y z _ _ | .sel _ x y z _ _ | .cmpxSide _ x y z _ _ _ => [x, y, z]
  | .add _ x y z _ _ _ => [x, y] ++ z.toList
  | .sub _ x y _ _ _ | .cmp _ x y _ _ _ | .min _ x y _ _ _ | .max _ x y _ _ _ => [x, y]
  | .move _ x _ | .cmpxPairs _ x _ _ _ _ _ | .shf _ x _ _ _ _ _ | .rot _ x _ _ _ _ | .prio _ x _ _ _ => [x]
  | .popc _ x m _ _ => [x] ++ m.toList
  | .ldiInsert _ x _ _ _ => [.mem x]
  | .send _ x _ | .bpub x | .pout x _ _ | .hist x _ | .probe x _ | .accept x | .uevt x | .stat x _ => [x]
  | .recv _ ch tag _ => [.grain ch tag]
  | .tblr idx _ => idx.toList.map Opnd.mem
  | .tblw idx b _ => idx.toList.map Opnd.mem ++ [.mem b]

/-- The row of the table for an opcode at a site. -/
def rowAt (op : SpOp) (a : Site) : Instr :=
  match op with
  | .nop => .nop a.col a.row a.idx a.step
  | .bool3 => .bool3 a.col a.row a.idx a.step
  | .move => .move a.col a.row a.idx a.step
  | .sel => .sel a.col a.row a.idx a.step
  | .add => .add a.col a.row a.idx a.step
  | .sub => .sub a.col a.row a.idx a.step
  | .cmp => .cmp a.col a.row a.idx a.step
  | .min => .min a.col a.row a.idx a.step
  | .max => .max a.col a.row a.idx a.step
  | .cmpx => .cmpx a.col a.row a.idx a.step
  | .shf => .shf a.col a.row a.idx a.step
  | .rot => .rot a.col a.row a.idx a.step
  | .popc => .popc a.col a.row a.idx a.step
  | .prio => .prio a.col a.row a.idx a.step
  | .ldi => .ldi a.col a.row a.idx a.step
  | .send => .send a.col a.row a.idx a.step
  | .recv => .recv a.col a.row a.idx a.step
  | .bpub => .bpub a.col a.row a.idx a.step
  | .tblr => .tblr a.col a.row a.idx a.step
  | .tblw => .tblw a.col a.row a.idx a.step
  | .pin => .pin a.col a.row a.idx a.step
  | .pout => .pout a.col a.row a.idx a.step
  | .hist => .hist a.col a.row a.idx a.step
  | .probe => .probe a.col a.row a.idx a.step
  | .accept => .accept a.col a.row a.idx a.step
  | .uevt => .uevt a.col a.row a.idx a.step
  | .stat => .stat a.col a.row a.idx a.step

/-- The result that a spindle's latest instruction is writing to data memory (R33, R34). -/
def pendAt (p : Part) (a : Site) : PendWrite := smapGet (fun _ => (⟨0, 0, 0⟩ : PendWrite)) p.sp.pend a.sp

/-- The slot of a spindle on its billet bus (R35, R39). -/
def busAt (p : Part) (a : Site) : BusSlot := smapGet (fun _ => (⟨0, 0, 0⟩ : BusSlot)) p.sp.bus a.sp

/-- What an instruction with a result leaves (R28, R33 to R35, R39, R81): the result on its way to d[dst], and in the
spindle's bus slot when PUB is 1. -/
def resultIs (s t : State) (a : Site) (dst : Nat) (pub : Bool) (r : Word) : Prop :=
  pendAt t.part a = ⟨a.step, dst, r⟩ ∧
  busAt t.part a = if pub then ⟨(busAt s.part a).latest, r, a.step⟩ else busAt s.part a

/-- A staging slot after a write of `v` (R45): the write with the later execute step, and of one step the higher spindle
index, takes effect. -/
def stagedIs (old new : Staged) (a : Site) (v : Word) : Prop :=
  new = if old.step < a.step ∨ (old.step = a.step ∧ old.idx ≤ a.idx) then ⟨a.step, a.idx, v⟩ else old

/-- TR of a spindle with the loads on their way (R36). -/
def trAt (p : Part) (a : Site) : TrState := smapGet (fun _ => (⟨0, []⟩ : TrState)) p.sp.tr a.sp

/-- The bits of the fields of a register do not overlap, and lie in its 32 bits. -/
abbrev fieldsApart (l : List FieldRow) : Prop :=
  l.Pairwise (fun f g => f.lo + f.width ≤ g.lo ∨ g.lo + g.width ≤ f.lo) ∧ ∀ f ∈ l, f.lo + f.width ≤ 32

/-- Does a write of this register have a rule of its own: the setup of rings, pages and windows, sealed regions and
encryption, the mode, routes and record clearing of the service network, the version override, HST_BOOT_GO, TIM_NOW_FRAC,
the alarm, and FAB_DBG_STATUS, whose flag frees another field of it? -/
def ownRule (off : Nat) : Bool :=
  setupReg off || (decide (0xa00100 ≤ off) && decide (off < 0xa00200)) || SVN_HOPS.hits off ||
  [SEAL_ENC_EN.off, SVN_MODE.off, SVN_EREC_CLR.off, SYS_OVR_EN.off, HST_BOOT_GO_F.off, TIM_NOW_F.off, TIM_ALARM_N.off,
   FAB_DBG_READ_ERR.off].contains off

/-- Does a unit act on a write of this register: the tick counter on T and E, the lanes on their controls, the time unit on
its mode and limits, the ordinary clock, and the monitor? -/
def actsOnWrite (off : Nat) : Bool :=
  (decide (0x300010 ≤ off) && decide (off < 0x300028)) || (decide (0x500000 ≤ off) && decide (off < 0x500080)) ||
  [TIM_MODE.off, TIM_YMAX_PPB.off, TIM_SLEW_PPB.off].contains off || [12, 14].contains (off / 0x100000)

/-- A single 32-bit register, in any block, that has no rule of its own for writes. -/
abbrev plainReg (off : Nat) : Prop := isPairLow off = false ∧ isPairHigh off = false ∧ ownRule off = false

/-- The fields of a register as a write of `v` leaves them by their access codes (R9, R168, R469). -/
def fieldsFollow (p q : Part) (off v : Nat) : Prop :=
  ∀ f ∈ rowsAt off, ∀ old new now : Nat,
    old = natBits (regAt p off).toNat f.lo f.width → new = natBits v f.lo f.width →
    now = natBits (regAt q off).toNat f.lo f.width →
    (f.acc = .rw → now = if f.admits new then new else old) ∧
    (f.acc = .rwl → now = if locked p = false ∧ f.admits new = true then new else old) ∧
    (f.acc = .rw1c → ∀ i, now.testBit i = (old.testBit i && !new.testBit i)) ∧
    (f.acc = .rw1s → ∀ i, now.testBit i = (old.testBit i || new.testBit i)) ∧
    (f.acc = .ro ∨ f.acc = .rc ∨ f.acc = .wo → now = old)

/-- Receive lane `n` is `l` after a command, and every other lane, the fabric and the spindles are as before. -/
def rxBecomes (s t : State) (n : Nat) (l : RxLane) : Prop :=
  rxLane t.part n = l ∧ (∀ k, k ≠ n → rxLane t.part k = rxLane s.part k) ∧ t.part.lanes.tx = s.part.lanes.tx ∧
  t.part.tk = s.part.tk ∧ t.part.gr = s.part.gr ∧ t.part.sp = s.part.sp

/-- Transmit lane `n` is `l` after a command, and every other lane, the fabric and the spindles are as before. -/
def txBecomes (s t : State) (n : Nat) (l : TxLane) : Prop :=
  txLane t.part n = l ∧ (∀ k, k ≠ n → txLane t.part k = txLane s.part k) ∧ t.part.lanes.rx = s.part.lanes.rx ∧
  t.part.tk = s.part.tk ∧ t.part.gr = s.part.gr ∧ t.part.sp = s.part.sp

/-- The byte at a sealed address, as the engine sealed it. -/
def sealedByte (p : Part) (x : Nat) : Byte := (lineBytes (sealLine p (x / 64)).data).getD (x % 64) 0

/-- Nothing that the stacks hold is disturbed, and no identity in use is retired (R333). -/
abbrev sealClean (p : Part) : Prop :=
  (∀ l, (sealLine p l).flips = 0) ∧ p.sm.tagFlips = [] ∧ p.sm.blkFlips = [] ∧ (∀ e ∈ p.sm.tagCache, e.2 = 0) ∧
  (∀ l, lineKid p l < 4 ∧ kidRetired p (lineKid p l) = false) ∧
  (∀ stack lvl idx, kidRetired p (blockKid p stack lvl idx) = false) ∧ kidRetired p (curKid p) = false

/-- The maps that hold registers, host memory, the OTP, the lanes, the spindle and table memories, and the results and
bus words of the spindles are in canonical form. -/
abbrev canon (p : Part) : Prop :=
  smapWf regReset p.regs = true ∧ smapWf (fun _ => (0 : Byte)) p.host.mem = true ∧
  smapWf (fun _ => (0 : Byte)) p.boot.otp = true ∧ smapWf (fun _ => RxLane.init) p.lanes.rx = true ∧
  smapWf (fun _ => TxLane.init) p.lanes.tx = true ∧ smapWf (fun _ => EccWord.zero) p.sp.dmem = true ∧
  smapWf (fun _ => EccWord.zero) p.sp.imem = true ∧ smapWf (fun _ => EccWord.zero) p.sp.table = true

end Sys2Proof.Machine
end

