-- ==== Sys2Proof/Certificates/Slice0/Obligations.lean ====
section
/-!
DEFINITION. The statements about the machine for the provers. Each says in its docstring what it states; the file
OBLIGATIONS.json gives the rules it formalises or rests on.
-/
open Sys2Proof Sys2Proof.Machine

/-- For every command c, queue rest and state s: a step of s with c at the front of its queue and rest behind it is
exec of c on s with the queue rest. -/
def Obligations.StepRunsFrontCommand : Prop :=
  ∀ (c : Instr) (rest : List Instr) (s : State),
    step { s with pending := c :: rest } = exec c { s with pending := rest }

/-- For every command c and state s, exec of c on s answers a next state t, never a fault or a refusal, and t has the
queue of s. With no command waiting, a step answers a next state: in reset, or while the time counter does not run,
the state before; otherwise device time grows by the increment INC in force, modulo the span of SEC (R344), and
nothing changes but device time and what a slew has still to absorb. That an empty queue passes one edge is the
model's choice (log 1). -/
def Obligations.CommandsKeepTheQueueAndIdleStepsPassTime : Prop :=
  (∀ (c : Instr) (s : State), ∃ t : State, exec c s = .next t ∧ t.pending = s.pending) ∧
  ∀ s : State, s.pending = [] →
    (s.part.boot.rstLow = true ∨ s.part.tim.run = false → step s = .next s) ∧
    (awake s → s.part.tim.run = true → ∃ left : Int,
      step s = .next (withPart s { s.part with
        now := (s.part.now + incNow s.part) % (2 ^ 48 * 10 ^ 9 * 2 ^ 32)
        tim := { s.part.tim with slewLeft := left } }))

/-- Power-on, the falling of SYS_RST_N (when it is high), and a falling edge on PERST_N (when it is high) answer a
next state in which every register reads its reset value but SYS_RESET_CAUSE, which names the cause; the fabric is OFF
and no region is loaded; the time counter is 0 and does not run; sealed memory and its keys are gone; every lane is
DOWN; and the part is in POWERUP while SYS_RST_N is low and in BOOT otherwise. No latched or held word is left, the
OTP, the flash, the two reset pins and host memory keep their contents, and the OTP contents of that moment are those
in force from then on. That host memory is kept (log 6), that latches and held words start empty (log 9) and that the
OTP in force is a copy of that moment (log 25) are the model's choice. While SYS_RST_N is low every command but the
five of the reset pins leaves the state as it is. -/
def Obligations.ResetReturnsEverything : Prop :=
  (∀ s : State, ∀ c : Instr, s.part.boot.rstLow = true → (∀ l b, c ≠ .powerOn l b) → c ≠ .sysRstNLow →
    (∀ b, c ≠ .sysRstNRelease b) → (∀ b, c ≠ .perstNFall b) → c ≠ .perstNRise → exec c s = .next s) ∧
  ∀ s : State, ∀ c : Instr, ∀ cause : Nat, ∀ low perst : Bool,
    (∃ b, c = .powerOn low b ∧ cause = 0 ∧ perst = true) ∨
    (c = .sysRstNLow ∧ s.part.boot.rstLow = false ∧ cause = 1 ∧ low = true ∧ perst = s.part.boot.perstLow) ∨
    (∃ b, c = .perstNFall b ∧ s.part.boot.perstLow = false ∧ cause = 2 ∧ low = s.part.boot.rstLow ∧ perst = true) →
    ∃ t : State, exec c s = .next t ∧
      (∀ off, regAt t.part off = if off = SYS_CAUSE.off then BitVec.ofNat 32 (2 ^ cause) else regReset off) ∧
      t.part.tk.fab = .off ∧ t.part.regions = [] ∧ t.part.blank = none ∧
      t.part.hiLatch = [] ∧ t.part.loHeld = [] ∧
      t.part.now = 0 ∧ t.part.tim.run = false ∧
      t.part.sm = SealState.init ∧
      (∀ n, (smapGet (fun _ => RxLane.init) t.part.lanes.rx n).st = .down ∧
            (smapGet (fun _ => TxLane.init) t.part.lanes.tx n).st = .down) ∧
      t.part.boot.ps = (if low then PartState.powerup else PartState.boot) ∧
      t.part.boot.rstLow = low ∧ t.part.boot.perstLow = perst ∧
      t.part.boot.otp = s.part.boot.otp ∧ t.part.boot.otpRead = s.part.boot.otp ∧
      t.part.boot.flash = s.part.boot.flash ∧ t.part.host.mem = s.part.host.mem

/-- With SYS_RST_N low, SYS_RST_N_RELEASE takes the part to BOOT and stage 1 with CFG_ADDR sampled. With PERST_N low,
PERST_N_RISE raises it, and the endpoint answers from then on if stage 1 has ended. PLL_LOCK in stage 1 ends it: the
time counter runs, and the endpoint answers if PERST_N is high. IMAGE_FETCH_END in stage 3, no host image being
awaited: with no flash, HST_FLASH reads 0 and the boot ROM waits for a host image; with a flash, HST_FLASH reads 1,
and the slot whose image passes with the higher FW_VER (slot 0 on equal versions: the model's choice, log 47) is taken
and ends stage 3, or the boot ROM waits when neither passes. A host image that was fetched is taken when it passes,
and otherwise HST_BOOT_ERR is set and the boot ROM waits again. HST_BOOT_GO, while the boot ROM waits: an image inside
a window is fetched; one outside every window is refused under R390, counted and reported, and sets HST_BOOT_ERR;
while no DMA may be issued HST_BOOT_ERR is set (that such a request ends at once is the model's choice, log 47); the
boot ROM still waits. Each of these answers exactly the state written; outside these conditions PLL_LOCK,
IMAGE_FETCH_END and HST_BOOT_GO change nothing. -/
def Obligations.BootStagesOneToThree : Prop :=
  (∀ (s : State) (pins : BitVec 6), s.part.boot.rstLow = true →
    exec (.sysRstNRelease pins) s = .next (withPart s (setPartState { s.part with
      boot := { s.part.boot with rstLow := false, stage := 1, pins := pins.toNat } } .boot))) ∧
  (∀ s : State, s.part.boot.perstLow = true → exec .perstNRise s = .next (withPart s { s.part with
    boot := { s.part.boot with perstLow := false }
    host := { s.part.host with endpointUp := s.part.host.endpointUp || decide (2 ≤ s.part.boot.stage) } })) ∧
  (∀ s : State, awake s → s.part.boot.stage = 1 → exec .pllLock s = .next (withPart s { s.part with
    boot := { s.part.boot with stage := 2 }
    host := { s.part.host with endpointUp := s.part.host.endpointUp || !s.part.boot.perstLow }
    tim := { s.part.tim with run := true } })) ∧
  (∀ s : State, awake s → s.part.boot.stage = 3 → fld s.part HST_WAIT_HOST = 0 → s.part.boot.hostFetch = false →
    exec (.imageFetchEnd .noFlash) s = .next (withPart s (setFld (setFld { s.part with
      boot := { s.part.boot with flash := none } } HST_FLASH 0) HST_WAIT_HOST 1))) ∧
  (∀ (s : State) (size : Nat) (s0 s1 : Option FwBytes) (p : Part), awake s → s.part.boot.stage = 3 →
    fld s.part HST_WAIT_HOST = 0 → s.part.boot.hostFetch = false →
    p = setFld { s.part with boot := { s.part.boot with
      flash := some ⟨size, s0.bind parseFw, s1.bind parseFw⟩ } } HST_FLASH 1 →
    (∀ i, bootTakes s.part s0 = some i → (∀ j, bootTakes s.part s1 = some j → j.ver ≤ i.ver) →
      exec (.imageFetchEnd (.flash size s0 s1)) s = .next (withPart s { setFld p HST_SOURCE 1 with
        boot := { p.boot with stage := 4, fw := some i, hostFetch := false, bootSlot := some 0 } })) ∧
    (∀ j, bootTakes s.part s1 = some j → (∀ i, bootTakes s.part s0 = some i → i.ver < j.ver) →
      exec (.imageFetchEnd (.flash size s0 s1)) s = .next (withPart s { setFld p HST_SOURCE 2 with
        boot := { p.boot with stage := 4, fw := some j, hostFetch := false, bootSlot := some 1 } })) ∧
    (bootTakes s.part s0 = none → bootTakes s.part s1 = none →
      exec (.imageFetchEnd (.flash size s0 s1)) s = .next (withPart s (setFld p HST_WAIT_HOST 1)))) ∧
  (∀ (s : State) (f : FwBytes), awake s → s.part.boot.stage = 3 → s.part.boot.hostFetch = true →
    (∀ i, bootTakes s.part (some f) = some i → exec (.imageFetchEnd (.host f)) s = .next (withPart s
      { setFld s.part HST_SOURCE 3 with
        boot := { s.part.boot with stage := 4, fw := some i, hostFetch := false, bootSlot := none } })) ∧
    (bootTakes s.part (some f) = none → exec (.imageFetchEnd (.host f)) s = .next (withPart s
      { setFld (setFld s.part HST_BOOT_ERR 1) HST_WAIT_HOST 1 with
        boot := { s.part.boot with hostFetch := false } }))) ∧
  (∀ s : State, awake s → fld s.part HST_WAIT_HOST = 1 →
    (dmaOk s.part = true →
      inWindow s.part .read (fld64 s.part HST_BOOT_ADDR_L HST_BOOT_ADDR_H) (fld s.part HST_BOOT_BYTES) = true →
      exec .hstBootGo s = .next (withPart s { setFld (setFld s.part HST_BOOT_ERR 0) HST_WAIT_HOST 0 with
        boot := { s.part.boot with hostFetch := true } })) ∧
    (∀ addr, addr = fld64 s.part HST_BOOT_ADDR_L HST_BOOT_ADDR_H → dmaOk s.part = true → canon s.part →
      inWindow s.part .read addr (fld s.part HST_BOOT_BYTES) = false →
      ∃ t : State, exec .hstBootGo s = .next t ∧ fld t.part HST_BOOT_ERR = 1 ∧ fld t.part HST_WAIT_HOST = 1 ∧
        fld t.part HIF_WIN_COUNT = min (fld s.part HIF_WIN_COUNT + 1) (2 ^ 32 - 1) ∧
        t.part.host = (refuseOther (setFld s.part HST_BOOT_ERR 0) 0 addr).host ∧
        t = withPart s { s.part with regs := t.part.regs, host := t.part.host }) ∧
    (dmaOk s.part = false →
      exec .hstBootGo s = .next (withPart s (setFld (setFld s.part HST_BOOT_ERR 0) HST_BOOT_ERR 1)))) ∧
  ∀ (s : State) (a : ImageFetch), awake s →
    (s.part.boot.stage ≠ 1 → exec .pllLock s = .next s) ∧
    (s.part.boot.stage ≠ 3 → exec (.imageFetchEnd a) s = .next s) ∧
    (fld s.part HST_WAIT_HOST = 0 → exec .hstBootGo s = .next s)

/-- OTP_READ in stage 2 ends it: the boot stage is 3, and the absent rails and the dies that answer are as read.
SYS_POWER_LIMIT has the limit of the record in force (4,000 when absent); TIM_LRX_ING and TIM_LTX_TRIM of each group,
PTP_Pi_ING and PTP_Pi_EGR of each port and TIM_PPS_IN_ING have the values of the delay record (0 when absent);
SEAL_ENC_FORCED is FORCE of the encryption record, and SEAL_ENC_EN is 0 exactly when FORCE is 0 and DEFAULT_OFF is 1.
Every register at another offset is as before, and so is the rest of the part. -/
def Obligations.OtpReadSetsResetValues : Prop :=
  ∀ (s : State) (noFab noHbm noSrd : Bool) (dies : BitVec 4), awake s → s.part.boot.stage = 2 → canon s.part →
    ∃ t : State, exec (.otpRead noFab noHbm noSrd dies) s = .next t ∧
      t = withPart s { s.part with
        regs := t.part.regs
        boot := { s.part.boot with stage := 3, noFab := noFab, noHbm := noHbm, noSrd := noSrd, dies := dies.toNat } } ∧
      fld t.part SYS_PWR_LIMIT = otpField s.part.boot.otpRead 6 0 4 4000 % 2 ^ 16 ∧
      (∀ g < 16, fldI t.part TIM_LRX_ING_PS g = otpField s.part.boot.otpRead 2 (4 * g) 4 0 % 2 ^ 32 ∧
                 fldI t.part TIM_LTX_TRIM_PS g = otpField s.part.boot.otpRead 2 (0x40 + 2 * g) 2 0 % 2 ^ 16) ∧
      (∀ i < 2, fldI t.part PTP_ING_PS i = otpField s.part.boot.otpRead 2 (0x60 + 8 * i) 4 0 % 2 ^ 32 ∧
                fldI t.part PTP_EGR_PS i = otpField s.part.boot.otpRead 2 (0x64 + 8 * i) 4 0 % 2 ^ 32) ∧
      fld t.part TIM_PPSI_ING_PS = otpField s.part.boot.otpRead 2 0x70 4 0 % 2 ^ 32 ∧
      fld t.part SEAL_ENC_FORCED = otpField s.part.boot.otpRead 8 0 4 0 % 2 ∧
      (fld t.part SEAL_ENC_EN = 0 ↔ otpField s.part.boot.otpRead 8 0 4 0 % 4 = 2) ∧
      ∀ off, (∀ f ∈ [SYS_PWR_LIMIT, TIM_PPSI_ING_PS, SEAL_ENC_FORCED, SEAL_ENC_EN], off ≠ f.at 0) →
        (∀ g < 16, off ≠ TIM_LRX_ING_PS.at g ∧ off ≠ TIM_LTX_TRIM_PS.at g) →
        (∀ i < 2, off ≠ PTP_ING_PS.at i ∧ off ≠ PTP_EGR_PS.at i) → regAt t.part off = regAt s.part off

/-- FIRMWARE_START in stage 4, with a firmware image held, takes the boot to stage 5: HST_FW_RUN is 1, and HST_FW_VER
and HST_HIV show the image. The self-tests of the service network and of the monitor run, and those of each fabric die
that is powered, and of sapwood, of the readout cores and of the two stacks where their rails are up; the stacks then
train. When the version rules pass, SYS_RESTRICTED is as before; when one refuses and the override is not in force,
SYS_RESTRICTED is 1 and SYS_VER_CAUSE is that cause. Nothing changes but registers, the state of the host interface
and the boot state. -/
def Obligations.FirmwareStartAndRestrictedOperation : Prop :=
  ∀ (s : State) (f : FwImage), awake s → canon s.part → s.part.boot.stage = 4 → s.part.boot.fw = some f →
    ∃ t : State, exec .firmwareStart s = .next t ∧ t.part.boot.stage = 5 ∧ fld t.part HST_FW_RUN = 1 ∧
      fld t.part HST_FW = f.ver % 2 ^ 32 ∧ fld t.part HST_HIV = f.hiv % 2 ^ 16 ∧
      (∀ i < 4, diePowered s.part i = true → testOf t.part i = 1) ∧
      (unitPowered s.part 9 = true → testOf t.part 4 = 1) ∧ (unitPowered s.part 10 = true → testOf t.part 5 = 1) ∧
      testOf t.part 6 = 1 ∧ testOf t.part 7 = 1 ∧
      (unitPowered s.part 13 = true → testOf t.part 8 = 1 ∧ testOf t.part 9 = 1 ∧
        t.part.boot.stack0 = .training ∧ t.part.boot.stack1 = .training) ∧
      (versionRules (minFirmware s.part) f = none → fld t.part SYS_RESTRICTED = fld s.part SYS_RESTRICTED) ∧
      (∀ cause party, versionRules (minFirmware s.part) f = some (cause, party) → overrideOn s.part = false →
        fld t.part SYS_RESTRICTED = 1 ∧ fld t.part SYS_VER_CAUSE = cause) ∧
      t = withPart s { s.part with regs := t.part.regs, host := t.part.host, boot := t.part.boot }

/-- With no D3hot request waiting: SELF_TEST_END of a running self-test of a fabric die, of sapwood, of the cores or
of the service network, nothing waiting for it, records passed (2) or failed (3) and no other test's result, and
leaves the monitor and host memory as they are; a fabric die that passes has its memories zeroed, and no other end of
a self-test changes spindles or grain; a failing calibration (test 7) records 3 and takes the converter's waiting
requests away. HBM_TRAINING_END of a stack in training takes it to its sealing initialisation, or to failed, and
leaves the other stack. SEALING_INITIALISATION_END of a stack being initialised takes it to READY with result 2 when
the key of this initialisation is drawn or the entropy source gives its draw, and to failed with result 3 otherwise; a
draw leaves identity 0 with a key and alone live; no bit of a stack that becomes READY is upset any more. When the
last of stages 5 and 6 ends so in part state BOOT, stage 7 is reached and the part is READY. -/
def Obligations.SelfTestsAndStacksEndTheBoot : Prop :=
  (∀ (s : State) (i : Fin 8) (pass : Bool), awake s → s.part.boot.d3Wanted = false → testOf s.part i.val = 1 →
    s.part.svn.waiting = [] →
    ∃ t : State, exec (.selfTestEnd i pass) s = .next t ∧
      (i.val ≠ 7 → testOf t.part i.val = (if pass then 2 else 3) ∧
        (∀ j, j ≠ i.val → testOf t.part j = testOf s.part j) ∧ t.part.mon = s.part.mon ∧ t.part.host.mem = s.part.host.mem) ∧
      (i.val = 7 → pass = false → testOf t.part 7 = 3 ∧ t.part.mon.waiting = [] ∧ t.part.mon.urgent = []) ∧
      (i.val < 4 → pass = true → t.part.sp = (zeroDie s.part i.val).sp ∧ t.part.gr = (zeroDie s.part i.val).gr) ∧
      (¬ (i.val < 4 ∧ pass = true) → t.part.sp = s.part.sp ∧ t.part.gr = s.part.gr) ∧
      t.part.tk = s.part.tk ∧ t.part.lanes = s.part.lanes ∧ t.part.sm = s.part.sm) ∧
  (∀ (s : State) (k : Fin 2) (ok : Bool), awake s → s.part.boot.d3Wanted = false → stackOf s.part k.val = .training →
    ∃ t : State, exec (.hbmTrainingEnd k ok) s = .next t ∧
      stackOf t.part k.val = (if ok then .initialising else .failed) ∧
      stackOf t.part (1 - k.val) = stackOf s.part (1 - k.val) ∧
      t = withPart s { s.part with boot := t.part.boot, host := t.part.host, regs := t.part.regs }) ∧
  (∀ (s : State) (k : Fin 2) (e : Option (BitVec 384)) (ok : Bool), awake s → canon s.part → s.part.boot.d3Wanted = false →
    stackOf s.part k.val = .initialising → ok = (s.part.sm.drawn.getD e.isSome) →
    ∃ t : State, exec (.sealingInitialisationEnd k e) s = .next t ∧
      stackOf t.part k.val = (if ok then .ready else .failed) ∧ testOf t.part (8 + k.val) = (if ok then 2 else 3) ∧
      t.part.sm.drawn = some ok ∧
      (s.part.sm.drawn = none → ok = true → fld t.part SEAL_KID_LIVE = 1 ∧
        (smapGet (fun _ => none) t.part.sm.keys 0).isSome = true) ∧
      (ok = true → (∀ l, lineStack l = k.val → (sealLine t.part l).flips = 0) ∧
        (∀ l, lineStack (8 * l) = k.val → tagLineFlips t.part l = 0) ∧
        ∀ lvl idx, lvl < 8 → blockFlips t.part k.val lvl idx = 0) ∧
      t = withPart s { s.part with boot := t.part.boot, host := t.part.host, regs := t.part.regs, sm := t.part.sm }) ∧
  (∀ (s : State) (k : Fin 2) (e : BitVec 384), awake s → canon s.part → s.part.boot.d3Wanted = false → s.part.boot.ps = .boot →
    (s.part.boot.stage = 5 ∨ s.part.boot.stage = 6) → testsEnded s.part = true → s.part.sm.drawn ≠ some false →
    stackOf s.part k.val = .initialising → stackPending (stackOf s.part (1 - k.val)) = false →
    ∃ t : State, exec (.sealingInitialisationEnd k (some e)) s = .next t ∧
      t.part.boot.ps = .ready ∧ t.part.boot.stage = 7)

/-- D3HOT_ENTRY in D0: during BOOT the request waits; with the fabric RUNNING and no STOP under way the part first
stops it at the end of the present tick; with the fabric not RUNNING, a part that was READY or OPERATING shows D3hot,
is in STANDBY, keeps the state it left, and has no poll and no START left, with its spindles, sealed memory and time
as before. D0_RETURN from D3hot, no command or request waiting for DMA, shows D0, takes a part in STANDBY back to the
state it left, and leaves no wake pending, with fabric, spindles and sealed memory as before. WAKE in D3hot, of a
source that is enabled, with no wake pending, records the cause in HIF_WAKE_CAUSE with PME_Status set, the message
sent when PME_En is 1; it changes nothing else. A wake of a source whose enable is clear changes nothing. -/
def Obligations.DStatesAndWakes : Prop :=
  (∀ s : State, awake s → s.part.host.endpointUp = true → inD3 s.part = false →
    (s.part.boot.ps = .boot → exec .d3hotEntry s = .next (withPart s { s.part with
      boot := { s.part.boot with d3Wanted := true } })) ∧
    (s.part.boot.ps ≠ .boot → running s.part = true → s.part.tk.stopAt = none →
      exec .d3hotEntry s = .next (withPart s { s.part with
        tk := { s.part.tk with stopAt := some s.part.tk.tick }
        boot := { s.part.boot with d3Wanted := false, d3Stopping := true } })) ∧
    (canon s.part → s.part.boot.ps = .ready ∨ s.part.boot.ps = .operating → running s.part = false →
      ∃ t : State, exec .d3hotEntry s = .next t ∧ inD3 t.part = true ∧ t.part.boot.ps = .standby ∧
        t.part.boot.left = s.part.boot.ps ∧ t.part.host.batches = [] ∧ t.part.tk.start = none ∧
        t.part.sp = s.part.sp ∧ t.part.sm = s.part.sm ∧ t.part.tim = s.part.tim ∧ t.part.now = s.part.now)) ∧
  (∀ s : State, awake s → canon s.part → inD3 s.part = true → s.part.svn.waiting = [] →
    ∃ t : State, exec .d0Return s = .next t ∧ fld t.part HIF_DSTATE = 0 ∧
      t.part.boot.ps = (if s.part.boot.ps = .standby then s.part.boot.left else s.part.boot.ps) ∧
      fld t.part HIF_PME_PENDING = 0 ∧ t.part.tk = s.part.tk ∧ t.part.sp = s.part.sp ∧ t.part.sm = s.part.sm) ∧
  (∀ (s : State) (src : WakeSource) (cause group : Nat), awake s → inD3 s.part = true →
    fld s.part HIF_PME_PENDING = 0 →
    (∃ g : Fin 16, src = .rxGroup g ∧ cause = 0 ∧ group = g.val ∧ fldI s.part LNK_RX_EN g.val = 1 ∧
      (fld s.part HIF_WAKE_RXG).testBit g.val = true) ∨
    (src = .acceptIn ∧ cause = 1 ∧ group = 0 ∧ fld s.part HIF_WAKE_ACC = 1) ∨
    (src = .timeAlarm ∧ cause = 2 ∧ group = 0 ∧ fld s.part HIF_WAKE_ALARM = 1) ∨
    (src = .monitor ∧ cause = 3 ∧ group = 0 ∧ fld s.part HIF_WAKE_MON = 1) →
    ∃ t : State, exec (.wake src) s = .next t ∧
      t = withPart s { setFld (setFld (setFld (setFld (setFld s.part HIF_WAKE_SRC cause) HIF_WAKE_GRP group)
            HIF_WAKE_VALID 1) HIF_WAKE_SUPERSEDED 0) HIF_PME_PENDING 1 with
        host := { s.part.host with
          pmeSent := s.part.host.pci.pmeEn, pci := { s.part.host.pci with pmeStatus := true } } }) ∧
  (∀ (s : State) (src : WakeSource), awake s →
    (∃ g : Fin 16, src = .rxGroup g ∧ (fld s.part HIF_WAKE_RXG).testBit g.val = false) ∨
    (src = .acceptIn ∧ fld s.part HIF_WAKE_ACC = 0) ∨ (src = .timeAlarm ∧ fld s.part HIF_WAKE_ALARM = 0) ∨
    (src = .monitor ∧ fld s.part HIF_WAKE_MON = 0) → exec (.wake src) s = .next s)

/-- SYS_OVR_EN_WRITE before START's lock: a 1, with the OTP record that allows it, sets SYS_OVR_EN and SYS_OVR_ACTIVE
and clears SYS_RESTRICTED; without that record it changes nothing; a 0 clears SYS_OVR_EN and SYS_OVR_ACTIVE, and
SYS_RESTRICTED is 1 exactly when a version cause stands (that a write of 0 takes the override back, and that
RESTRICTED follows the override, are the model's choice, log 47). Once locked it changes nothing. FW_UPDATE that runs:
without a flash, or with another update on its way, it completes with ERR_STATE; with a flash, an image in a window
that the part can fetch, sound, of its stated length and fitting the slot, is taken up for writing when it passes the
version rules, and is otherwise, the override not in force, refused with event source 203, CATCH_VERSION while
OPERATING, and ERR_AUTH for its signature or ERR_VERSION. FLASH_WRITE_END with an agreeing read-back puts the image
into the slot that did not boot and completes the command with OK after event source 202; with a differing one the
command completes with ERR_INTEGRITY and the flash is as before. -/
def Obligations.VersionOverrideAndFirmwareUpdate : Prop :=
  (∀ s : State, awake s → canon s.part → locked s.part = false →
    (otpField s.part.boot.otpRead 4 0 4 0).testBit 0 = true →
    ∃ t : State, exec (.sysOvrEnWrite true) s = .next t ∧ fld t.part SYS_OVR_EN = 1 ∧ fld t.part SYS_OVR_ACTIVE = 1 ∧
      fld t.part SYS_RESTRICTED = 0 ∧
      t = withPart s { s.part with regs := t.part.regs, tk := (rwlAccepted s.part).tk }) ∧
  (∀ s : State, awake s → canon s.part → locked s.part = false →
    ∃ t : State, exec (.sysOvrEnWrite false) s = .next t ∧ fld t.part SYS_OVR_EN = 0 ∧ fld t.part SYS_OVR_ACTIVE = 0 ∧
      fld t.part SYS_RESTRICTED = (if fld s.part SYS_VER_CAUSE = 0 then 0 else 1) ∧
      t = withPart s { s.part with regs := t.part.regs, tk := (rwlAccepted s.part).tk }) ∧
  (∀ (s : State) (v : Bool), awake s → locked s.part = true → exec (.sysOvrEnWrite v) s = .next s) ∧
  (∀ s : State, awake s → (otpField s.part.boot.otpRead 4 0 4 0).testBit 0 = false →
    exec (.sysOvrEnWrite true) s = .next s) ∧
  (∀ (s : State) (h : Hdr) (img : FwBytes), awake s → commandRuns s.part h 0x58 →
    (s.part.boot.flash = none ∨ s.part.boot.update.isSome = true →
      exec (.fwUpdate h img) s = .next (withPart s (complete (begun s.part h 0x58) h .errState 0 0))) ∧
    ∀ (fl : Flash) (f : FwImage) (q : Part), s.part.boot.flash = some fl → s.part.boot.update = none →
      dmaOk s.part = true → inWindow s.part .read (h.par 0x08 8) (h.par 0x10 4) = true → parseFw img = some f →
      f.len = h.par 0x10 4 → f.len ≤ fl.slotBytes → f.len ≤ 2 ^ 26 →
      (versionRules (minFirmware s.part) f = none →
        exec (.fwUpdate h img) s = .next (withPart s { begun s.part h 0x58 with
          boot := { s.part.boot with update := some (h, f) } })) ∧
      ∀ cause party, versionRules (minFirmware s.part) f = some (cause, party) → overrideOn s.part = false →
        q = raise (begun s.part h 0x58) 203 [(1, cause), (1, party), (4, refusedVersion f party)] →
        exec (.fwUpdate h img) s = .next (withPart s (complete
          (if s.part.boot.ps = .operating then blockCatch q .version 18 cause else q) h
          (if cause = 8 then .errAuth else .errVersion) 0 0))) ∧
  (∀ (s : State) (h : Hdr) (f : FwImage) (fl : Flash), awake s → s.part.boot.update = some (h, f) →
    s.part.boot.flash = some fl →
    exec (.flashWriteEnd true) s = .next (withPart s (complete (raise { s.part with boot := { s.part.boot with
      update := none
      flash := some (if s.part.boot.bootSlot = some 0 then { fl with slot1 := some f }
                     else { fl with slot0 := some f }) } } 202 [(4, f.ver)]) h .ok 0 0)) ∧
    exec (.flashWriteEnd false) s = .next (withPart s (complete { s.part with boot := { s.part.boot with
      update := none } } h .errIntegrity 0 0)))

/-- OTP_WRITE_RECORD that runs, with the fabric not RUNNING, of a listed type with its length, a payload that the part
can fetch and that breaks no rule of its type, and a free slot, answers a next state in which the record is programmed
as the generation g of the lowest unused slot, and what the part reads as the OTP in force, and the rest of the boot
state, is as before; nothing else changes but the state of the host interface and registers. When the slot then holds
generation g (its header matches and its CRC checks) the command completes with OK and g in RESULT after event source
204 (and 205 when it is slot 3). -/
def Obligations.OtpWriteRecord : Prop :=
  ∀ (s : State) (h : Hdr) (k : Nat) (payload : List Byte) (g : Nat),
    awake s → commandRuns s.part h 0x48 → running s.part = false → k = h.par 0x08 2 → 1 ≤ k → k ≤ 8 →
    h.par 0x0A 2 = (otpArea k).2.1 → payload.length = (otpArea k).2.1 → dmaOk s.part = true →
    inWindow s.part .read (h.par 0x10 8) (h.par 0x0A 2) = true → otpPayloadBad s.part k payload = false →
    g < 4 → otpUsed s.part.boot.otp k g = false → (∀ j < g, otpUsed s.part.boot.otp k j = true) →
    ∃ t : State, exec (.otpWriteRecord h payload none) s = .next t ∧
      t.part.boot = { s.part.boot with
        otp := otpProgram s.part.boot.otp ((otpArea k).1 + g * (otpArea k).2.2.1) (otpRecord k g payload) } ∧
      t = withPart s { s.part with boot := t.part.boot, host := t.part.host, regs := t.part.regs } ∧
      (otpBytesOk k g (otpSlot t.part.boot.otp k g) = true →
        t.part = complete (
          if g = 3 then raise (raise { begun s.part h 0x48 with boot := t.part.boot } 204 [(2, k), (1, g)]) 205 [(2, k)]
          else raise { begun s.part h 0x48 with boot := t.part.boot } 204 [(2, k), (1, g)]) h .ok 0 g)

/-- LOW_WORD_READ and READ_CLEAR of an offset below the debug windows, other than TIM_NOW_FRAC, with no word latched
for it: the value is the register's, the high word of a 64-bit quantity is latched by a read of its low word, every RC
field of the register is 0 afterwards, and every other field and register is as before. A read by I2C_ACCESS at the
part's address, outside POWERUP, of the 4 bytes of such an offset does the same and leaves the PEC byte of the
transaction. TIM_NOW_FRAC_READ returns FRAC of device time and latches NS and SEC of that instant (in a state that
stores no bits of its own at these read-only mirrors). DEBUG_WINDOW_READ with no word latched for it: in STOPPED or
HALTED, of a billet of the loaded grid and of a word without an uncorrectable error, it returns the low half and
latches the high half (at an offset that is a multiple of 8), or returns the high half; outside STOPPED and HALTED it
returns 0 and sets FAB_DBG_STATE_ERR. That such a read latches 0 for the high half (log 19) and what PEC byte stands
after a read (log 63) are the model's choice. Each of these changes nothing else. -/
def Obligations.RegisterReads : Prop :=
  (∀ (s : State) (off : BitVec 26) (balls : BitVec 64), awake s → canon s.part → off.toNat < 0x2000000 →
    off.toNat ≠ TIM_NOW_F.off → latched s.part off.toNat = none → fieldsApart (rowsAt off.toNat) →
    ∃ t : State, t = withPart s { s.part with regs := t.part.regs, readData := t.part.readData, hiLatch := t.part.hiLatch } ∧
      exec (.lowWordRead off balls) s = .next t ∧ exec (.readClear off balls) s = .next t ∧
      (∀ addr : BitVec 7, addr.toNat = i2cAddress s.part → s.part.boot.ps ≠ .powerup →
        exec (.i2cAccess addr (leBytes 4 off.toNat) true balls) s = .next (withPart s { t.part with
          readPec := (smbusPec (i2cByte addr false :: leBytes 4 off.toNat ++
            i2cByte addr true :: leBytes 4 t.part.readData)).toNat })) ∧
      t.part.readData = regView s.part balls off.toNat ∧
      t.part.hiLatch = (if isPairLow off.toNat then
        smapSet (fun _ => none) s.part.hiLatch (off.toNat + 4) (some (regView s.part balls (off.toNat + 4)))
        else s.part.hiLatch) ∧
      (∀ a, a ≠ off.toNat → regAt t.part a = regAt s.part a) ∧
      (∀ f ∈ rowsAt off.toNat, natBits (regAt t.part off.toNat).toNat f.lo f.width =
        if f.acc = .rc then 0 else natBits (regAt s.part off.toNat).toNat f.lo f.width)) ∧
  (∀ s : State, awake s → regAt s.part TIM_NOW_N.off = 0 → regAt s.part TIM_NOW_S_H.off = 0 →
    ∃ t : State, exec .timNowFracRead s = .next t ∧
    t = withPart s { s.part with readData := t.part.readData, hiLatch := t.part.hiLatch } ∧
    t.part.readData = s.part.now % 2 ^ 32 ∧
    latched t.part TIM_NOW_N.off = some (nsOf s.part.now) ∧
    latched t.part TIM_NOW_S_L.off = some (secOf s.part.now % 2 ^ 32) ∧
    latched t.part TIM_NOW_S_H.off = some (secOf s.part.now / 2 ^ 32)) ∧
  (∀ (s : State) (off : BitVec 25) (b : Nat), awake s → (s.part.tk.fab = .stopped ∨ s.part.tk.fab = .halted) →
    latched s.part (0x2000000 + off.toNat) = none → b = 64 * fld s.part FAB_DBG_PAGE_SEL + off.toNat / 0x80000 →
    b < 32 * blankCv s.part → eccKind (windowWord s.part b (off.toNat % 0x80000 / 8 * 8)) ≠ .double →
    ∃ t : State, exec (.debugWindowRead off) s = .next t ∧
      t = withPart s { s.part with readData := t.part.readData, hiLatch := t.part.hiLatch } ∧
      (off.toNat % 8 = 0 →
        t.part.readData = (eccData (windowWord s.part b (off.toNat % 0x80000))).toNat % 2 ^ 32 ∧
        latched t.part (0x2000000 + off.toNat + 4) =
          some ((eccData (windowWord s.part b (off.toNat % 0x80000))).toNat / 2 ^ 32)) ∧
      (off.toNat % 8 ≠ 0 → t.part.hiLatch = s.part.hiLatch ∧
        t.part.readData = (eccData (windowWord s.part b (off.toNat % 0x80000 / 8 * 8))).toNat / 2 ^ 32)) ∧
  (∀ (s : State) (off : BitVec 25), awake s → s.part.tk.fab ≠ .stopped → s.part.tk.fab ≠ .halted →
    latched s.part (0x2000000 + off.toNat) = none →
    exec (.debugWindowRead off) s = .next (withPart s { setFld s.part FAB_DBG_STATE_ERR 1 with
      readData := 0
      hiLatch := if off.toNat % 8 = 0 then smapSet (fun _ => none) s.part.hiLatch (0x2000000 + off.toNat + 4) (some 0)
                 else s.part.hiLatch }))

/-- After a read of the low word of a 64-bit quantity at an offset off (with no word latched there, and off not
TIM_NOW_FRAC, which has a rule of its own), in every state in which the latch still stands, whatever else has changed,
a read of the high word at off + 4 returns the high word as it was at the read of the low word, and the latch is then
gone (the model's choice, log 19). -/
def Obligations.HighWordLatch : Prop :=
  ∀ (s : State) (off hi : BitVec 26) (balls : BitVec 64), awake s → off.toNat < 0x1FFFFFC → isPairLow off.toNat = true →
    off.toNat ≠ TIM_NOW_F.off → off.toNat + 4 ≠ TIM_NOW_F.off → hi.toNat = off.toNat + 4 →
    latched s.part off.toNat = none →
    ∃ t : State, exec (.lowWordRead off balls) s = .next t ∧ t.part.readData = regView s.part balls off.toNat ∧
      ∀ (u : State) (balls2 : BitVec 64), awake u → u.part.hiLatch = t.part.hiLatch →
        ∃ w : State, exec (.lowWordRead hi balls2) u = .next w ∧
          w.part.readData = regView s.part balls (off.toNat + 4) ∧
          (smapWf (fun _ => (none : Option Nat)) s.part.hiLatch = true → latched w.part hi.toNat = none)

/-- For every BAR0 offset below the debug windows that no register table lists: with no word latched for it, a read of
it by the host returns 0 and changes nothing but the value read, and over I2C at the part's address, outside POWERUP,
nothing but that and the PEC byte; REGISTER_WRITE, RING_SETUP_WRITE and a write by I2C_ACCESS of any value leave the
whole state as it is. What an I2C transaction looks like and what PEC byte stands after it are the model's choice (log
63). -/
def Obligations.UnlistedOffsets : Prop :=
  ∀ (s : State) (off : BitVec 26) (v : Reg32) (balls : BitVec 64), awake s → canon s.part → off.toNat < 0x2000000 →
    rowsAt off.toNat = [] → latched s.part off.toNat = none →
    exec (.lowWordRead off balls) s = .next (withPart s { s.part with readData := 0 }) ∧
    exec (.readClear off balls) s = .next (withPart s { s.part with readData := 0 }) ∧
    (∀ addr : BitVec 7, addr.toNat = i2cAddress s.part → s.part.boot.ps ≠ .powerup →
      exec (.i2cAccess addr (leBytes 4 off.toNat) true balls) s = .next (withPart s { s.part with
        readData := 0
        readPec := (smbusPec (i2cByte addr false :: leBytes 4 off.toNat ++ i2cByte addr true :: leBytes 4 0)).toNat })) ∧
    exec (.registerWrite off v) s = .next s ∧ exec (.ringSetupWrite off v) s = .next s ∧
    ∀ addr : BitVec 7, exec (.i2cAccess addr (leBytes 4 off.toNat ++ leBytes 4 v.toNat) false balls) s = .next s

/-- REGISTER_WRITE of a value v to a single register of any block without a rule of its own, or the 4 bytes of its
offset and the 4 of v by I2C_ACCESS at the part's address outside POWERUP, with or without a PEC byte: an RW field
takes its bits of v when the field may have that value; an RWL field too while the part is not locked; an RW1C field
loses the bits written as 1; an RW1S field gains them; RO, RC and WO fields keep theirs. Where no unit acts on the
register every other register is as before, and besides registers only the fabric's state may change (ADMITTED back to
LOADED). With a PEC byte that does not check nothing changes (what makes a transaction whole: the model's choice, log
63). FAB_CATCH_POLICY: PIN, SW and VERSION keep their policy on a value above 1, the data classes on 3, SEAL and
THERMAL always (R168). A new epoch moves the tick counter to floor((now - E)/T) and 0 before E. LNK_RX_CTRL,
LNK_TX_CTRL: a DOWN lane newly enabled enters DETECT, in STANDBY too (the model's choice, log 52); one no longer
enabled goes DOWN with cause 14; other receive lanes stay. A new TIM_MODE sets the servo free, to acquire unless it
follows already, or to software. TIM_ALARM_NS: a time already passed clears the enable at once. A write to MON ends a
scan whose enable is 0 and the open-wire checks of channels outside mode 3, and leaves the fabric alone. -/
def Obligations.WriteAccessCodes : Prop :=
  (∀ (s : State) (off : BitVec 26) (v : Reg32) (balls : BitVec 64), awake s → canon s.part → plainReg off.toNat →
    fieldsApart (rowsAt off.toNat) → ∃ t : State, exec (.registerWrite off v) s = .next t ∧
      (∀ (addr : BitVec 7) (l : List Byte) (pec : Byte), addr.toNat = i2cAddress s.part → s.part.boot.ps ≠ .powerup →
        l = leBytes 4 off.toNat ++ leBytes 4 v.toNat →
        exec (.i2cAccess addr l false balls) s = .next t ∧
        exec (.i2cAccess addr (l ++ [pec]) false balls) s =
          .next (if pec = smbusPec (i2cByte addr false :: l) then t else s)) ∧
      fieldsFollow s.part t.part off.toNat v.toNat ∧
      (actsOnWrite off.toNat = false →
        t = withPart s { s.part with regs := t.part.regs, tk := t.part.tk } ∧
        (t.part.tk = s.part.tk ∨ t.part.tk = { s.part.tk with fab := .loaded }) ∧
        ∀ a, a ≠ off.toNat → regAt t.part a = regAt s.part a) ∧
      (off.toNat / 0x100000 = 14 → t = withPart s { s.part with
        regs := t.part.regs
        mon := { s.part.mon with
          scan := if fld t.part MON_SCAN_EN = 1 then s.part.mon.scan else []
          checks := smapFilter (fun ch => pullMode t.part ch == 3) s.part.mon.checks } }) ∧
      t.part.sp = s.part.sp ∧ t.part.gr = s.part.gr ∧ t.part.sm = s.part.sm ∧ t.part.loHeld = s.part.loHeld) ∧
  (∀ (s : State) (v : Reg32), awake s → canon s.part →
    ∃ t : State, exec (.registerWrite (BitVec.ofNat 26 FAB_POL_PIN.off) v) s = .next t ∧
      (∀ f ∈ [FAB_POL_PIN, FAB_POL_SW, FAB_POL_VERSION], fld t.part f =
        if locked s.part = false ∧ natBits v.toNat f.lo 2 ≤ 1 then natBits v.toNat f.lo 2 else fld s.part f) ∧
      (∀ f ∈ [FAB_POL_IMEM, FAB_POL_DMEM, FAB_POL_TABLE, FAB_POL_SLOT], fld t.part f =
        if locked s.part = false ∧ natBits v.toNat f.lo 2 ≤ 2 then natBits v.toNat f.lo 2 else fld s.part f) ∧
      fld t.part FAB_POL_SEAL = fld s.part FAB_POL_SEAL ∧ fld t.part FAB_POL_THERMAL = fld s.part FAB_POL_THERMAL) ∧
  (∀ (s : State) (v : Reg32), awake s → canon s.part → ∃ t : State,
    exec (.registerWrite (BitVec.ofNat 26 FAB_EPOCH_NSEC.off) v) s = .next t ∧
    (epochE t.part ≠ epochE s.part → ticksOn t.part = true →
      t.part.tk.tick = (if s.part.now < epochE t.part then 0 else (s.part.now - epochE t.part) / tickT t.part) ∧
      t.part.tk.reached = decide (epochE t.part ≤ s.part.now))) ∧
  (∀ (s : State) (v : Reg32) (g : Nat) (off : BitVec 26), awake s → canon s.part → g < 16 →
    off.toNat = LNK_RX_EN.at g ∨ off.toNat = LNK_TX_EN.at g → ∃ t : State, exec (.registerWrite off v) s = .next t ∧
      ∀ n < 128,
        (rxEnabled s.part n = false → rxEnabled t.part n = true → (rxLane s.part n).st = .down →
          (rxLane t.part n).st = .detect) ∧
        (rxEnabled s.part n = true → rxEnabled t.part n = false →
          (rxLane t.part n).st = .down ∧ (rxLane t.part n).cause = 14) ∧
        (rxEnabled s.part n = rxEnabled t.part n → rxLane t.part n = rxLane s.part n) ∧
        (txEnabled s.part n = false → txEnabled t.part n = true → (txLane s.part n).st = .down →
          (txLane t.part n).st = .detect) ∧
        (txEnabled s.part n = true → txEnabled t.part n = false →
          (txLane t.part n).st = .down ∧ (txLane t.part n).cause = 14)) ∧
  (∀ (s : State) (v : Reg32), awake s → canon s.part → locked s.part = false → v.toNat % 4 ≤ 2 →
    fld s.part TIM_MODE ≠ v.toNat % 4 → ∃ t : State,
      exec (.registerWrite (BitVec.ofNat 26 TIM_MODE.off) v) s = .next t ∧ fld t.part TIM_MODE = v.toNat % 4 ∧
      t.part.tim.swSum = 0 ∧ t.part.tim.swCount = 0 ∧
      t.part.tim.srv = (if v.toNat % 4 = 0 then .free else if v.toNat % 4 = 2 then .software
        else if s.part.tim.srv = .free ∨ s.part.tim.srv = .software then .acquire else s.part.tim.srv)) ∧
  (∀ (s : State) (v : Reg32), awake s → canon s.part → ∃ t : State,
    exec (.registerWrite (BitVec.ofNat 26 TIM_ALARM_N.off) v) s = .next t ∧
    fld t.part TIM_ALARM_N = v.toNat % 2 ^ 30 ∧
    fld t.part TIM_ALARM_EN = (if v.getLsbD 31 = true ∧
        s.part.now < (fld64 s.part TIM_ALARM_S_L TIM_ALARM_S_H * 10 ^ 9 + v.toNat % 2 ^ 30) * 2 ^ 32 then 1 else 0))

/-- REGISTER_WRITE of the low word of a 64-bit quantity that can be written is held: no register and no unit changes.
When the high word is then written, in any state in which the low word is still held, both words have what their
access codes give them and the low word is no longer held: so for HST_BOOT_ADDR, the base increment and the alarm's
seconds; for T and the epoch's seconds, where the tick counter moves with them when they changed; and, while the part
is not locked, for the bases of command, completion, event and readout rings, of windows, and of the doorbell and
writeback pages, where the write leaves no enabled ring or page outside every window. Then HST_BOOT_ADDR has the whole
64-bit value and nothing else changes, and an alarm time already passed clears the alarm's enable. -/
def Obligations.LowWordWritesAreHeld : Prop :=
  (∀ (s : State) (off : BitVec 26) (v : Reg32), awake s → heldLow off.toNat = true → rowsAt off.toNat ≠ [] →
    setupReg off.toNat = false → ¬ (0xa00100 ≤ off.toNat ∧ off.toNat < 0xa00200) → SVN_HOPS.hits off.toNat = false →
    off.toNat ≠ SEAL_ENC_EN.off → off.toNat ≠ SVN_MODE.off → off.toNat ≠ SVN_EREC_CLR.off → off.toNat ≠ SYS_OVR_EN.off →
    off.toNat ≠ HST_BOOT_GO_F.off → off.toNat ≠ TIM_NOW_F.off →
    exec (.registerWrite off v) s = .next (withPart s { s.part with
      loHeld := smapSet (fun _ => none) s.part.loHeld off.toNat (some v.toNat) })) ∧
  (∀ (s : State) (off hi : BitVec 26) (v w : Reg32), awake s → canon s.part → heldLow off.toNat = true →
    hi.toNat = off.toNat + 4 → heldAt s.part off.toNat = some v.toNat →
    smapWf (fun _ => (none : Option Nat)) s.part.loHeld = true →
    (setupReg off.toNat = true → setupReg hi.toNat = true ∧ locked s.part = false ∧
      setupFault (plainWrite s.part hi.toNat w.toNat) hi.toNat = none) →
    ∃ t : State, exec (.registerWrite hi w) s = .next t ∧ fieldsFollow s.part t.part off.toNat v.toNat ∧
      fieldsFollow s.part t.part hi.toNat w.toNat ∧ heldAt t.part off.toNat = none ∧
      (tickT t.part ≠ tickT s.part ∨ epochE t.part ≠ epochE s.part → ticksOn t.part = true →
        t.part.tk.tick = (if s.part.now < epochE t.part then 0 else (s.part.now - epochE t.part) / tickT t.part)) ∧
      (off.toNat = TIM_ALARM_S_L.off → alarmAt t.part ≤ s.part.now → fld t.part TIM_ALARM_EN = 0) ∧
      (off.toNat = HST_BOOT_ADDR_L.off → fld64 t.part HST_BOOT_ADDR_L HST_BOOT_ADDR_H = v.toNat + w.toNat * 2 ^ 32 ∧
        t = withPart s { s.part with regs := t.part.regs, loHeld := t.part.loHeld }) ∧
      t.part.sp = s.part.sp ∧ t.part.gr = s.part.gr ∧ t.part.sm = s.part.sm)

/-- SEAL_REGION_WRITE of a region 2 to 15 before START's lock takes effect when the region, if used, then lies inside
the sealed space and meets no other used region, and clears SEAL_RGN_ERR; otherwise it sets nothing but SEAL_RGN_ERR.
Once locked it does nothing. SEAL_ENC_EN_WRITE: nothing while encryption is forced or once locked; a refusal shown by
SEAL_RGN_ERR unless the fabric is OFF and no load is in progress; with the value the field has already, only
SEAL_RGN_ERR is cleared; with the other value, sealed memory, its keys, counters and identities are erased, a stack
that was READY is to be initialised anew, a stop of the engine stays, and a rekey walk ends, its REKEY completing with
ERR_ABORTED (this end, the stop that stays, and 43,008 MiB as the end of the sealed space are the model's choice, log
49). RING_SETUP_WRITE: once locked nothing; a write of a setup register that is no held low word and that would leave
an enabled ring or page outside every window sets HIF_CFG_ERR and no register but the counters of refusals and of lost
events; any other sets the registers as its access codes say and clears HIF_CFG_ERR, and a ring newly enabled, with no
completion held on die, starts with its counts at 0 (in what order rings are tested and start is the model's choice,
log 23). -/
def Obligations.SealAndRingSetupWrites : Prop :=
  (∀ (s : State) (k : Fin 16) (size : Bool) (v : Reg32) (q : Part), awake s → 2 ≤ k.val → locked s.part = false →
    q = (if size then setFldI (setFldI s.part SEAL_SIZE_MIB (k.val - 2) (v.toNat % 2 ^ 16)) SEAL_INIT (k.val - 2)
                        (v.toNat / 2 ^ 16 % 2 ^ 5)
         else setFldI s.part SEAL_BASE_MIB (k.val - 2) (v.toNat % 2 ^ 16)) →
    ((rgnSize q k.val = 0 ∨ (rgnBase q k.val + rgnSize q k.val ≤ 43008 ∧ ∀ j < 16, rgnClash q j k.val = false)) →
      exec (.sealRegionWrite k size v) s = .next (withPart s (rwlAccepted (setFld q SEAL_RGN_ERR 0)))) ∧
    (rgnSize q k.val ≠ 0 → (43008 < rgnBase q k.val + rgnSize q k.val ∨ ∃ j < 16, rgnClash q j k.val = true) →
      exec (.sealRegionWrite k size v) s = .next (withPart s (setFld s.part SEAL_RGN_ERR 1)))) ∧
  (∀ (s : State) (k : Fin 16) (size v : Bool) (w : Reg32), awake s → locked s.part = true →
    exec (.sealRegionWrite k size w) s = .next s ∧ exec (.sealEncEnWrite v) s = .next s) ∧
  (∀ (s : State) (v : Bool), awake s → locked s.part = false →
    (fld s.part SEAL_ENC_FORCED = 1 → exec (.sealEncEnWrite v) s = .next s) ∧
    (fld s.part SEAL_ENC_FORCED = 0 → s.part.tk.fab ≠ .off ∨ loadInProgress s.part = true →
      exec (.sealEncEnWrite v) s = .next (withPart s (setFld s.part SEAL_RGN_ERR 1))) ∧
    (canon s.part → fld s.part SEAL_ENC_FORCED = 0 → s.part.tk.fab = .off → loadInProgress s.part = false →
      (fld s.part SEAL_ENC_EN = (if v then 1 else 0) →
        exec (.sealEncEnWrite v) s = .next (withPart s (setFld s.part SEAL_RGN_ERR 0))) ∧
      (fld s.part SEAL_ENC_EN ≠ (if v then 1 else 0) → ∃ t : State, exec (.sealEncEnWrite v) s = .next t ∧
        fld t.part SEAL_ENC_EN = (if v then 1 else 0) ∧ fld t.part SEAL_KID_LIVE = 0 ∧
        t.part.sm = { SealState.init with drbg := s.part.sm.drbg, stopped := s.part.sm.stopped,
                                          lastStatus := s.part.sm.lastStatus, lastRead := s.part.sm.lastRead } ∧
        (s.part.boot.stack0 = .ready → t.part.boot.stack0 = .initialising) ∧
        (s.part.boot.stack1 = .ready → t.part.boot.stack1 = .initialising) ∧
        (∀ k h, s.part.sm.walk = some (k, some h) → t.part.host = (complete s.part h .errAborted 0 0).host) ∧
        ((∀ k h, s.part.sm.walk ≠ some (k, some h)) → t.part.host = s.part.host) ∧
        t = withPart s { s.part with regs := t.part.regs, sm := t.part.sm, boot := t.part.boot, host := t.part.host }))) ∧
  (∀ (s : State) (off : BitVec 26) (v : Reg32), awake s → locked s.part = true →
    exec (.ringSetupWrite off v) s = .next s) ∧
  (∀ (s : State) (off : BitVec 26) (v : Reg32), awake s → canon s.part → locked s.part = false →
    setupReg off.toNat = true → rowsAt off.toNat ≠ [] → heldLow off.toNat = false →
    (∀ kase addr, setupFault (plainWrite s.part off.toNat v.toNat) off.toNat = some (kase, addr) →
      ∃ t : State, exec (.ringSetupWrite off v) s = .next t ∧ fld t.part HIF_CFG_ERR = 1 ∧
        (∀ a, a ≠ HIF_CFG_ERR.off → a ≠ HIF_WIN_COUNT.off → a ≠ HIF_LOST_COUNT.off → regAt t.part a = regAt s.part a) ∧
        t = withPart s { s.part with regs := t.part.regs, host := t.part.host }) ∧
    (setupFault (plainWrite s.part off.toNat v.toNat) off.toNat = none →
      ∃ t : State, exec (.ringSetupWrite off v) s = .next t ∧ fld t.part HIF_CFG_ERR = 0 ∧
        (∀ a, a ≠ HIF_CFG_ERR.off → regAt t.part a = regAt (plainWrite s.part off.toNat v.toNat) a) ∧
        (smapWf (fun _ => (0 : Nat)) s.part.host.partCount = true → smapWf (fun _ => (0 : Nat)) s.part.host.hostCount = true →
          s.part.host.heldCpl = [] → ∀ r, ringEn t.part r = true → ringEn s.part r = false →
          partCount t.part r = 0 ∧ hostCount t.part r = 0) ∧
        t = withPart s { s.part with regs := t.part.regs, loHeld := t.part.loHeld, host := t.part.host }))

/-- ROUTE_WRITE before START's lock, for an NI that joins a router: the route of at most 8 hops is written, and
SVN_ROUTE_ERR cleared, exactly when every west hop precedes every hop in another direction, no hop reverses the hop
before it, no hop leaves the mesh, and the route ends at the central router that the entry names. Any other write is
ignored but for SVN_ROUTE_ERR, which is set; once locked, a write does nothing. After a reset every entry holds the
X-then-Y route, which meets the rule. -/
def Obligations.RouteTurnRule : Prop :=
  (∀ (s : State) (n : Fin 64) (d : Fin 8) (v : Reg32) (r : Nat) (hops : List Nat), awake s → locked s.part = false →
    niRouter n.val = some r → hops = routeHops v.toNat →
    ((natBits v.toNat 16 4 ≤ 8 ∧
      (∀ i j : Nat, i < j → hops[j]? = some 3 → hops[i]? = some 3) ∧
      (∀ (i : Nat) a b, hops[i]? = some a → hops[i + 1]? = some b → b ≠ (a + 2) % 4) ∧
      (∀ k ≤ hops.length, hopsEnd r (hops.take k) ≠ none) ∧ hopsEnd r hops = some d.val) →
      exec (.routeWrite n d v) s = .next (withPart s
        (setFld (setRegAt s.part (SVN_HOPS.at (n.val * 8 + d.val)) (v &&& 0xFFFFF#32)) SVN_ROUTE_ERR 0))) ∧
    (¬ (natBits v.toNat 16 4 ≤ 8 ∧
      (∀ i j : Nat, i < j → hops[j]? = some 3 → hops[i]? = some 3) ∧
      (∀ (i : Nat) a b, hops[i]? = some a → hops[i + 1]? = some b → b ≠ (a + 2) % 4) ∧
      (∀ k ≤ hops.length, hopsEnd r (hops.take k) ≠ none) ∧ hopsEnd r hops = some d.val) →
      exec (.routeWrite n d v) s = .next (withPart s (setFld s.part SVN_ROUTE_ERR 1)))) ∧
  (∀ (s : State) (n : Fin 64) (d : Fin 8) (v : Reg32), awake s → locked s.part = true →
    exec (.routeWrite n d v) s = .next s) ∧
  (∀ (n : Fin 64) (d : Fin 8) (r : Nat), niRouter n.val = some r →
    regReset (SVN_HOPS.at (n.val * 8 + d.val)) =
      BitVec.ofNat 32 (packHops (xyHops r d.val) + (xyHops r d.val).length * 2 ^ 16) ∧
    routeOk n.val d.val (packHops (xyHops r d.val) + (xyHops r d.val).length * 2 ^ 16) = true)

/-- SVN_MODE_WRITE before START's lock sets SVN_MODE, and SVN_SWITCHING exactly when the mode written differs from the
one in force; the mode in force stays, and once locked the write does nothing. While the switch waits, with no packet
under way, SERVICE_REQUEST of a request that is not posted keeps it in its NI behind the others held and does nothing
else. SVN_MODE_SWITCH while the switch waits, with no packet under way and no request held: with no request
outstanding it puts the mode of SVN_MODE in force, shows it in SVN_MODE_NOW and clears SVN_SWITCHING; with one
outstanding it changes nothing. -/
def Obligations.DeadlockModeSwitch : Prop :=
  (∀ (s : State) (sink : Bool), awake s → locked s.part = false →
    exec (.svnModeWrite sink) s = .next (withPart s
      { setFld (setFld s.part SVN_MODE (if sink then 1 else 0)) SVN_SWITCHING (if s.part.svn.sink = sink then 0 else 1) with
        svn := { s.part.svn with switching := decide (s.part.svn.sink ≠ sink) } })) ∧
  (∀ (s : State) (sink : Bool), awake s → locked s.part = true → exec (.svnModeWrite sink) s = .next s) ∧
  (∀ (s : State) (flits : List Flit) (urgent : Bool) (host : List Byte) (balls : BitVec 64) (h : NetHeader), awake s →
    s.part.svn.switching = true → s.part.svn.net.packets = [] → readPacket flits = some h → requestOk h = true →
    h.op ≠ 2 → exec (.serviceRequest flits urgent host balls) s = .next (withPart s { s.part with
      svn := { s.part.svn with held := s.part.svn.held ++ [⟨h, flits, urgent, host.take 1024, balls⟩] } })) ∧
  (∀ s : State, awake s → s.part.svn.switching = true → s.part.svn.net.packets = [] → s.part.svn.held = [] →
    (s.part.svn.outstanding = [] → exec .svnModeSwitch s = .next (withPart s
      { setFld (setFld s.part SVN_SWITCHING 0) SVN_MODE_NOW (if fldOn s.part SVN_MODE then 1 else 0) with
        svn := { s.part.svn with sink := fldOn s.part SVN_MODE, switching := false } })) ∧
    (s.part.svn.outstanding ≠ [] → exec .svnModeSwitch s = .next s))

/-- SERVICE_REQUEST of flits that spell a request. While its NI may not send it, or holds an earlier one that goes
before it (of its class, or of any while both wait for the response buffer), with no packet under way, it is held
there and nothing else happens. Otherwise it is sent, and, unless posted, is outstanding from then on with its
response room; let pk be what the network then delivers at its target, and count its corrected flit errors. With an
uncorrectable flit (cause 4), an address that the target does not decode (1), a target stopped by a halt (3) or
URGENT-abort at a block in self-test (5) it fails: a posted write leaves a record of initiator, target, cause, address
and device time in the error log unless that is full, raises event source 152 and starts a notice; any other is
answered with a status that is not OK. One whose target is busy waits there. Otherwise: a control read makes the read
of its BAR0 offset and answers OK with the 4 bytes; a control write makes the write and answers OK, unless posted;
host memory inside a window is read or written, and outside every window the refusal counts and the request fails with
cause 2; the local memory of a readout core is read or written; sealed memory answers with the status and bytes of the
sealing engine. The status by cause (logs 13, 60), that a packet crosses within its row (log 28) and the size of a
read (log 60) are the model's choice. -/
def Obligations.ServiceRequests : Prop :=
  ∀ (s : State) (flits : List Flit) (urgent : Bool) (host : List Byte) (balls : BitVec 64) (h : NetHeader)
    (pk0 : NetPacket) (c : Instr), awake s → readPacket flits = some h → requestOk h = true →
    pk0 = ⟨h, flits, urgent, host.take 1024, balls⟩ → c = .serviceRequest flits urgent host balls →
    (s.part.svn.net.packets = [] → maySend s.part h = false ∨ heldBefore s.part h = true →
      exec c s = .next (withPart s { s.part with
        svn := { s.part.svn with held := s.part.svn.held ++ [pk0] } })) ∧
    ∀ (q p : Part) (pk : NetPacket) (a : NetHeader) (data : List Byte) (answered : Part → Status → List Byte → Part),
      maySend s.part h = true → heldBefore s.part h = false →
      netSettle (sendRequest s.part pk0) = (q, [pk]) → p = bumpFld q SVN_CE_N (flitErrors pk.flits) → a = pk.head →
      data = (pk.flits.drop 2).flatMap flitBytes →
      answered = (fun (p : Part) (st : Status) (b : List Byte) => { p with svn := { p.svn with
        responses := p.svn.responses ++ [⟨a.dst, a.src, a.tag, controlVc a.cls, st, b⟩] } }) →
      (q = { s.part with svn := q.svn } ∧ q.svn.outstanding = (if h.op = 2 then s.part.svn.outstanding
        else s.part.svn.outstanding ++ [⟨h.src, h.tag, h.dst, h.addr, h.cls == 0, h.op == 0,
          responseFlits h⟩])) ∧
      (∀ (cause : Nat) (p2 : Part), p2 = (if cause = 2 then refuseOther p 4 a.addr else p) →
        (if pk.flits.any flitPoisoned then cause = 4 else if targetDecodes pk = false then cause = 1
         else if targetHalted p a then cause = 3 else pk.urgent = true ∧ targetTesting p a = true ∧ cause = 5) ∨
        (pk.flits.any flitPoisoned = false ∧ targetDecodes pk = true ∧ targetHalted p a = false ∧
          targetBusy p a = false ∧ controlVc a.cls = false ∧ a.dst = 0 ∧
          inWindow p (if a.op = 0 then .read else .write) a.addr (requestBytes pk) = false ∧ cause = 2) →
        (a.op ≠ 2 → causeStatus a.addr cause ≠ .ok ∧
          exec c s = .next (withPart s (answered p2 (causeStatus a.addr cause) []))) ∧
        (a.op = 2 → ∃ t : State, exec c s = .next t ∧
          t.part.svn = { p.svn with
            errorLog := if p.svn.errorLog.length < 64 then
                p.svn.errorLog ++ [⟨a.src, a.dst, cause, a.addr, nsOf p.now⟩] else p.svn.errorLog
            notices := p.svn.notices ++ [(a.dst, a.src)] } ∧
          t = withPart s { p with regs := t.part.regs, host := t.part.host, svn := t.part.svn })) ∧
      (pk.flits.any flitPoisoned = false → targetDecodes pk = true → targetHalted p a = false →
        (pk.urgent = false ∨ targetTesting p a = false) →
        (targetBusy p a = true → exec c s = .next (withPart s { p with
          svn := { p.svn with waiting := p.svn.waiting ++ [.packet pk] } })) ∧
        (targetBusy p a = false →
          (controlVc a.cls = true →
            (a.op = 0 → exec c s = .next (withPart s
              (answered (busRead p pk.balls a.addr).1 .ok (leBytes 4 (busRead p pk.balls a.addr).2)))) ∧
            (a.op = 1 → exec c s = .next (withPart s
              (answered (busWrite p a.addr (BitVec.ofNat 32 (leNat (data.take 4)))) .ok []))) ∧
            (a.op = 2 → exec c s = .next (withPart s (busWrite p a.addr (BitVec.ofNat 32 (leNat (data.take 4))))))) ∧
          (controlVc a.cls = false → a.dst = 0 →
            inWindow p (if a.op = 0 then .read else .write) a.addr (requestBytes pk) = true →
            (a.op = 0 → exec c s = .next (withPart s (answered p .ok pk.host))) ∧
            (a.op = 1 → exec c s = .next (withPart s (answered (hostWrite p a.addr data) .ok []))) ∧
            (a.op = 2 → exec c s = .next (withPart s (hostWrite p a.addr data)))) ∧
          (controlVc a.cls = false → 8 ≤ a.dst → a.dst < 40 →
            (a.op = 0 → exec c s = .next (withPart s (answered p .ok (coreBytes p (a.dst - 8) a.addr 64)))) ∧
            (a.op = 1 → exec c s = .next (withPart s (answered (setCoreBytes p (a.dst - 8) a.addr data) .ok []))) ∧
            (a.op = 2 → exec c s = .next (withPart s (setCoreBytes p (a.dst - 8) a.addr data)))) ∧
          (∀ u, controlVc a.cls = false → (a.dst = 43 ∨ a.dst = 44) → sealUserOf a.src = some u →
            (a.op = 0 → exec c s = .next (withPart s
              (answered (sealRead p u a.addr 64).1 (sealRead p u a.addr 64).2.1 (sealRead p u a.addr 64).2.2))) ∧
            (a.op = 1 → exec c s = .next (withPart s
              (answered (sealWrite p u a.addr data).1 (sealWrite p u a.addr data).2 []))))))

/-- With no request held in its NI: RESPONSE_ARRIVAL of a response that a target has given, which crosses the network
alone and leaves it empty, takes it from the responses given, counts its corrected flit errors, and, while its request
is outstanding, ends that request and hands the response to its unit as the latest, a poisoned one as ERR_INTEGRITY
without data; no longer awaited, it is counted in SVN_LATE_COUNT and handed to nobody. REQUEST_TIMEOUT of an
outstanding request, with no packet under way, ends the request, hands its unit ERR_TIMEOUT as the latest, counts one
in SVN_TMO_COUNT (which saturates) and raises event source 153; a BAR0 read of the host that times out returns
0xFFFF_FFFF. ERROR_NOTICE sets the sticky bit of the NI of the oldest notice and takes it from the notices; besides,
only the routers change. SVN_EREC_CLR empties the error log and its overflow count, and changes nothing else. That a
response or notice crosses within its row, and what a unit is handed as the latest, are the model's choice (log 28).
-/
def Obligations.ResponsesTimeoutsAndNotices : Prop :=
  (∀ (s : State) (ni : Fin 64) (tag : BitVec 12) (flips : List (BitVec 144)) (r : SvnResponse) (q p : Part)
    (pk : NetPacket), awake s → s.part.svn.held = [] →
    s.part.svn.responses.find? (fun r => r.ni == ni.val && r.tag == tag.toNat) = some r →
    netSettle (netLaunch { s.part with svn := { s.part.svn with
        responses := s.part.svn.responses.eraseP (fun q => q.ni == ni.val && q.tag == tag.toNat) } }
      (replyPacket r.tgt r.ni 3 (if r.control then 1 else 3) r.tag r.status.code r.data flips)) = (q, [pk]) →
    q.svn.net.packets = [] → p = bumpFld q SVN_CE_N (flitErrors pk.flits) →
    (s.part.svn.outstanding.any (fun q => q.ni == r.ni && q.tag == r.tag) = true → ∃ t : State,
      exec (.responseArrival ni tag flips) s = .next t ∧
      t = withPart s { p with readData := t.part.readData, svn := t.part.svn } ∧
      t.part.svn.responses = s.part.svn.responses.eraseP (fun q => q.ni == ni.val && q.tag == tag.toNat) ∧
      t.part.svn.outstanding = s.part.svn.outstanding.eraseP (fun q => q.ni == r.ni && q.tag == r.tag) ∧
      t.part.svn.delivered.head? = some (if pk.flits.any flitPoisoned
        then { r with status := .errIntegrity, data := [] }
        else { r with data := ((pk.flits.drop 2).flatMap flitBytes).take r.data.length })) ∧
    (s.part.svn.outstanding.any (fun q => q.ni == r.ni && q.tag == r.tag) = false →
      exec (.responseArrival ni tag flips) s = .next (withPart s (bumpFld p SVN_LATE_N 1)))) ∧
  (∀ (s : State) (ni : Fin 64) (tag : BitVec 12) (q : SvnRequest), awake s → canon s.part → s.part.svn.held = [] →
    s.part.svn.net.packets = [] →
    s.part.svn.outstanding.find? (fun q => q.ni == ni.val && q.tag == tag.toNat) = some q →
    ∃ t : State, exec (.requestTimeout ni tag) s = .next t ∧
      t = withPart s { s.part with
        regs := t.part.regs, host := t.part.host, readData := t.part.readData, svn := t.part.svn } ∧
      (ni.val = 0 → q.read = true → q.control = true → t.part.readData = 0xFFFFFFFF) ∧
      t.part.svn.outstanding = s.part.svn.outstanding.eraseP (fun q => q.ni == ni.val && q.tag == tag.toNat) ∧
      t.part.svn.delivered.head? = some ⟨q.tgt, ni.val, tag.toNat, q.control, .errTimeout,
        if q.read then List.replicate 4 0xFF else []⟩ ∧
      fld t.part SVN_TMO_N = min (fld s.part SVN_TMO_N + 1) (2 ^ 32 - 1) ∧
      t.part.host = (raise (bumpFld s.part SVN_TMO_N 1) 153 [(2, ni.val), (2, q.tgt), (8, q.addr)]).host) ∧
  (∀ (s : State) (tgt n : Nat) (rest : List (Nat × Nat)), awake s → s.part.svn.notices = (tgt, n) :: rest →
    ∃ net : NetState,
    (n < 32 → exec .errorNotice s = .next (withPart s
      { setFld s.part SVN_PERR_L (fld s.part SVN_PERR_L ||| 2 ^ n) with
        svn := { s.part.svn with notices := rest, net := net } })) ∧
    (32 ≤ n → exec .errorNotice s = .next (withPart s
      { setFld s.part SVN_PERR_H (fld s.part SVN_PERR_H ||| 2 ^ (n % 32)) with
        svn := { s.part.svn with notices := rest, net := net } }))) ∧
  (∀ s : State, awake s → exec .svnErecClr s = .next (withPart s
    { setFld s.part SVN_EREC_OVF 0 with svn := { s.part.svn with errorLog := [] } }))

/-- HOT_RESET in D0, the endpoint out of reset, resets PCI configuration space and the MSI-X table with its pending
messages, ends polls and takes back a D3hot request that waits; in D3hot, nothing waiting, it also shows D0 (the
model's choice, log 62). BUS_MASTER_ENABLE with the link up sets Bus Master Enable; with no completion, message,
command or request waiting it changes nothing else. PCIE_LINK_CHANGE in D0 shows the rate and width, follows the link
up or down (down does what a hot reset does) and raises event source 169. AER_ERROR adds the status bits to those of
its kind and raises 174. MSIX_UNMASK puts the entry of its vector, unmasked, and sends the message that pends, once,
where DMA may be issued. MODERATION_TIMEOUT of a ring with entries waiting and a time rule sends its message and takes
the entries as signalled. COMPLETION_BLOCK_TIMEOUT of an enabled completion ring that has no free slot and blocks a
command ring raises 171. RING_FAULT stops an enabled ring and raises 168 with its kind, number and cause. -/
def Obligations.HostLinkAndInterruptRows : Prop :=
  (∀ (s : State) (p : Part), awake s → s.part.host.endpointUp = true →
    p = { s.part with host := { s.part.host with pci := .init, batches := [], msix := [], vecPending := [], vecDue := [] } } →
    (inD3 s.part = false → exec .hotReset s = .next (withPart s { p with
      boot := { s.part.boot with d3Wanted := false, d3Stopping := false } })) ∧
    (inD3 s.part = true → canon s.part → ∃ t : State, exec .hotReset s = .next t ∧ fld t.part HIF_DSTATE = 0 ∧
      t.part.host.pci.busMaster = false ∧ t.part.host.batches = [] ∧ t.part.host.msix = [])) ∧
  (∀ s : State, awake s → s.part.host.endpointUp = true → s.part.host.linkUp = true → s.part.svn.waiting = [] →
    ∃ t : State, exec .busMasterEnable s = .next t ∧ t.part.host.pci.busMaster = true ∧
      t = withPart s { s.part with host := t.part.host } ∧
      (s.part.host.heldCpl = [] → s.part.host.vecDue = [] →
        t.part.host = { s.part.host with pci := { s.part.host.pci with busMaster := true } })) ∧
  (∀ (s : State) (rate : Fin 7) (width : Fin 17), awake s → s.part.host.endpointUp = true → inD3 s.part = false →
    (rate.val ≠ 0 → exec (.pcieLinkChange rate width) s = .next (withPart s (raise
      { setFld (setFld s.part HIF_LINK_RATE rate.val) HIF_LINK_WIDTH width.val with
        host := { s.part.host with linkUp := true } } 169 [(1, rate.val), (1, width.val), (1, 1)]))) ∧
    (rate.val = 0 → canon s.part → exec (.pcieLinkChange rate width) s = .next (withPart s (raise
      { setFld (setFld s.part HIF_LINK_RATE 0) HIF_LINK_WIDTH 0 with
        host := { s.part.host with
          linkUp := false, pci := .init, batches := [], msix := [], vecPending := [], vecDue := [] },
        boot := { s.part.boot with d3Wanted := false, d3Stopping := false } } 169 [(1, 0), (1, 0), (1, 0)])))) ∧
  (∀ (s : State) (kind : Fin 3) (status : BitVec 32) (old : Nat), awake s →
    old = smapGet (fun _ => 0) s.part.host.pci.aerStatus kind.val →
    exec (.aerError kind status) s = .next (withPart s (raise { s.part with host := { s.part.host with
      pci := { s.part.host.pci with
        aerStatus := smapSet (fun _ => 0) s.part.host.pci.aerStatus kind.val (old ||| status.toNat) } } } 174
      [(1, kind.val), (4, status.toNat)]))) ∧
  (∀ (s : State) (v : Fin 64) (addr : BitVec 64) (data : BitVec 32), awake s →
    ∃ t : State, exec (.msixUnmask v addr data) s = .next t ∧ msixEntry t.part v.val = ⟨addr, data, false⟩ ∧
    t = withPart s { s.part with host := { s.part.host with
      msix := t.part.host.msix
      vecPending := t.part.host.vecPending
      vecSent := t.part.host.vecSent
      vecDue := t.part.host.vecDue } } ∧
    (smapGet (fun _ => false) s.part.host.vecPending v.val = false → t.part.host.vecSent = s.part.host.vecSent) ∧
    (smapGet (fun _ => false) s.part.host.vecPending v.val = true → dmaOk s.part = true →
      smapGet (fun _ => 0) t.part.host.vecSent v.val = smapGet (fun _ => 0) s.part.host.vecSent v.val + 1)) ∧
  (∀ (s : State) (r : RingId) (v cnt ns : Nat), awake s → ringIrq s.part r = some (v, true, cnt, ns) → ns ≠ 0 →
    0 < unsignalled s.part r → dmaOk s.part = true → (msixEntry s.part v).masked = false →
    ∃ t : State, exec (.moderationTimeout r) s = .next t ∧
      smapGet (fun _ => 0) t.part.host.vecSent v = smapGet (fun _ => 0) s.part.host.vecSent v + 1 ∧
      (smapWf (fun _ => (0 : Nat)) s.part.host.unsignalled = true → unsignalled t.part r = 0) ∧
      t = withPart s { s.part with host := { s.part.host with unsignalled := t.part.host.unsignalled,
                                                              vecPending := t.part.host.vecPending,
                                                              vecSent := t.part.host.vecSent } }) ∧
  (∀ (s : State) (c : Fin 16) (i : Nat), awake s → ringEn s.part (.cpl c) = true → cplFree s.part c = 0 → i < 16 →
    fldI s.part HIF_CMD_WAIT_CPL i = 1 →
    exec (.completionBlockTimeout c) s = .next (withPart s (raise s.part 171 [(1, c.val)]))) ∧
  (∀ (s : State) (r : RingId) (poisoned : Bool), awake s → ringEn s.part r = true → ringStopped s.part r = false →
    exec (.ringFault r poisoned) s = .next (withPart s (raise { s.part with host := { s.part.host with
      stopped := smapSet (fun _ => false) s.part.host.stopped (ringKey r) true } } 168
      [(1, ringKind r), (1, ringNum r), (1, if poisoned then 2 else 1)])))

/-- POLL, while polling is enabled, the firmware runs and DMA may be issued, issues one more batch, of each enabled
command ring from its head of that moment, and changes nothing else. POLL_BATCH_RETURN of the one batch under way, for
a command ring that is enabled, stands where the batch read it and shows one posted descriptor, the next one, of the
right phase, with a free slot in its enabled completion ring, the writeback page in a window and no event held back
from D3hot: the ring's count advances by one, and no batch is left under way. Its command, when its opcode is listed
and no TABLE_WRITE, is picked up: one slot of the completion ring is reserved for it, it joins the end of the commands
in flight, not begun, with what the part found at its pickup (the tick, a part halt, for what loads the state allowed,
whether a TRIGGER took effect), and completions held and, but for a HALT and a TRIGGER while trace runs, events,
fabric and trace are as before. That batches return in the order of their issue is the model's choice (log 27). -/
def Obligations.PollingAndPickup : Prop :=
  (∀ s : State, awake s → fld s.part HIF_POLL_EN = 1 → fld s.part HST_FW_RUN = 1 → dmaOk s.part = true →
    exec .poll s = .next (withPart s { s.part with host := { s.part.host with
      batches := s.part.host.batches ++
        [((List.finRange 16).filter (fun i => ringEn s.part (.cmd i))).map (fun i => (i.val, partCount s.part (.cmd i)))] } })) ∧
  (∀ (s : State) (i : Fin 16) (d : BitVec 512) (h : Hdr) (rtt n : Nat) (heads : List (Nat × Nat)) (trig : Bool), awake s →
    canon s.part → s.part.host.batches = [heads] → heads.lookup i.val = some n →
    inWindow s.part .write (wbBase s.part) 4096 = true →
    trig = decide (h.op = 0x28 ∧ h.traceAction = 2 ∧ h.rsv = false ∧
      (s.part.trc.st = .running ∨ s.part.trc.st = .triggered)) →
    dmaOk s.part = true → ringEn s.part (.cmd i) = true → ringStopped s.part (.cmd i) = false → h = ⟨i, d⟩ →
    partCount s.part (.cmd i) = n → h.phase = phaseOf n (ringSize s.part (.cmd i)) → s.part.host.evtHeld = 0 →
    ringEn s.part (.cpl h.cpl) = true → 0 < cplFree s.part h.cpl → opcodeKnown h.op = true → h.op ≠ 0x51 →
    ∃ t : State,
      exec (.pollBatchReturn ⟨rtt, [⟨i, n + 1, [d]⟩], [], none, []⟩) s = .next t ∧
      t = withPart s { s.part with regs := t.part.regs, host := t.part.host, tk := t.part.tk, trc := t.part.trc } ∧
      partCount t.part (.cmd i) = n + 1 ∧
      reservedSlots t.part h.cpl.val = reservedSlots s.part h.cpl.val + 1 ∧
      t.part.host.inflight = s.part.host.inflight ++ [⟨h, false, false, findAt s.part trig⟩] ∧
      t.part.host.batches = [] ∧ t.part.host.heldCpl = s.part.host.heldCpl ∧
      (h.op ≠ 0x07 → trig = false → t.part.host.events = s.part.host.events ∧ t.part.tk = s.part.tk ∧ t.part.trc = s.part.trc))

/-- When a command completes while DMA may be issued and its completion ring is enabled and has not stopped, the slot
n mod S of the ring holds TAG in 2 bytes, STATUS in 1, the phase of entry n in bit 0 and the command ring in bits 4 to
1 of the next, AUX in 4 and RESULT in 8 bytes, all little-endian; every other byte of host memory is as before; the
ring's count is n + 1 and one reserved slot fewer is held. -/
def Obligations.CompletionEntryLayout : Prop :=
  ∀ (p : Part) (h : Hdr) (st : Status) (aux result n base : Nat), canon p → dmaOk p = true →
    ringEn p (.cpl h.cpl) = true → ringStopped p (.cpl h.cpl) = false → partCount p (.cpl h.cpl) = n →
    base = ringBase p (.cpl h.cpl) + n % ringSize p (.cpl h.cpl) * 16 →
    leNat ((List.range 2).map (fun i => smapGet (fun _ => 0) (complete p h st aux result).host.mem (base + i))) =
      h.tag.toNat ∧
    (smapGet (fun _ => 0) (complete p h st aux result).host.mem (base + 2)).toNat = st.code ∧
    (smapGet (fun _ => 0) (complete p h st aux result).host.mem (base + 3)).toNat =
      (if n / ringSize p (.cpl h.cpl) % 2 = 0 then 1 else 0) + 2 * h.ring.val ∧
    leNat ((List.range 4).map (fun i => smapGet (fun _ => 0) (complete p h st aux result).host.mem (base + 4 + i))) =
      aux % 2 ^ 32 ∧
    leNat ((List.range 8).map (fun i => smapGet (fun _ => 0) (complete p h st aux result).host.mem (base + 8 + i))) =
      result % 2 ^ 64 ∧
    (∀ a, a < base ∨ base + 16 ≤ a →
      smapGet (fun _ => 0) (complete p h st aux result).host.mem a = smapGet (fun _ => 0) p.host.mem a) ∧
    partCount (complete p h st aux result) (.cpl h.cpl) = n + 1 ∧
    (smapWf (fun _ => (0 : Nat)) p.host.reserved = true →
      reservedSlots (complete p h st aux result) h.cpl.val = reservedSlots p h.cpl.val - 1)

/-- Raising an event: a masked source is discarded; with fewer than 256 entries waiting it joins the end of the queue,
carrying LOST exactly when an event was lost since the last entry joined; with 256 waiting it is discarded and counted
in HIF_EVT_LOST (which saturates), and the next entry that joins will carry LOST. EVENT_RING_WRITE, while the event
ring is enabled, not stopped and has a free slot and DMA may be issued, moves the front of the queue into the ring's
next slot: its 32 bytes stand in host memory, with the phase of the slot, the ring's count grows by one, and the
others wait in the same order. With the ring full it changes nothing. -/
def Obligations.EventQueue : Prop :=
  (∀ (p : Part) (src : Nat) (l : List (Nat × Nat)),
    (eventMasked p src = true → raise p src l = p) ∧
    (eventMasked p src = false → p.host.events.length < 256 →
      raise p src l = { p with host := { p.host with
        events := p.host.events ++ [⟨src, false, p.host.lostNext, nsOf p.now, l⟩], lostNext := false } }) ∧
    (canon p → eventMasked p src = false → 256 ≤ p.host.events.length →
      (raise p src l).host = { p.host with lostNext := true } ∧
      fld (raise p src l) HIF_LOST_COUNT = min (fld p HIF_LOST_COUNT + 1) (2 ^ 32 - 1))) ∧
  (∀ (s : State) (e : Event) (rest : List Event) (n size : Nat), awake s → canon s.part →
    s.part.host.events = e :: rest → partCount s.part .evt = n → ringSize s.part .evt = size →
    dmaOk s.part = true → ringEn s.part .evt = true → ringStopped s.part .evt = false →
    (n < hostCount s.part .evt + size → ∃ t : State, exec .eventRingWrite s = .next t ∧
      t = withPart s { s.part with host := t.part.host } ∧ t.part.host.events = rest ∧
      partCount t.part .evt = n + 1 ∧
      (∀ i < 32, smapGet (fun _ => 0) t.part.host.mem (ringBase s.part .evt + n % size * 32 + i) =
        (eventBytes e (phaseOf n size) (s.part.host.evtSeq % 65536)).getD i 0) ∧
      (∀ a, a < ringBase s.part .evt + n % size * 32 ∨ ringBase s.part .evt + n % size * 32 + 32 ≤ a →
        smapGet (fun _ => 0) t.part.host.mem a = smapGet (fun _ => 0) s.part.host.mem a)) ∧
    (hostCount s.part .evt + size ≤ n → exec .eventRingWrite s = .next s))

/-- NOP that runs completes with OK. QUERY that may begin in D0, with no reserved bit set, with a buffer of at least
64 bytes inside a window for writing and DMA allowed, puts its 64-byte block there and completes with OK and 64 in
RESULT, also in a part halt; with a smaller buffer it completes with ERR_PARAM and writes nothing there. COUNTERS_READ
(CLEAR 0), begun alike, of set 1 or 2, of entries within the set, with a buffer that is large enough and inside a
window, writes 8 bytes for each billet, or 24 for each catch, and completes with OK and their total in RESULT, also in
a part halt; COUNTERS_READ_CLEAR (CLEAR 1) does the same and then sets the counters read to 0 (set 1), or empties the
catch log and its overflow count (set 2). -/
def Obligations.NopQueryAndCounters : Prop :=
  (∀ (s : State) (h : Hdr), awake s → commandRuns s.part h 0x00 →
    exec (.nopCommand h) s = .next (withPart s (complete (begun s.part h 0x00) h .ok 0 0))) ∧
  (∀ (s : State) (h : Hdr), awake s → mayBegin h 0x01 s.part.host.inflight = true →
    inD3 s.part = false → h.rsv = false →
    (64 ≤ h.par 0x10 4 → inWindow s.part .write (h.par 0x08 8) (h.par 0x10 4) = true → dmaOk s.part = true →
      exec (.query h) s = .next (withPart s
        (complete (hostWrite (begun s.part h 0x01) (h.par 0x08 8) (queryBlock s.part)) h .ok 0 64))) ∧
    (h.par 0x10 4 < 64 → exec (.query h) s = .next (withPart s (complete (begun s.part h 0x01) h .errParam 0 0)))) ∧
  (∀ (s : State) (h : Hdr) (set first count size stop : Nat) (bytes : List Byte) (q : Part), awake s →
    mayBegin h 0x50 s.part.host.inflight = true → inD3 s.part = false → h.rsv = false → dmaOk s.part = true →
    set = h.par 0x08 1 → first = h.par 0x0A 2 → count = h.par 0x0C 4 →
    (set = 1 ∧ size = 8 ∧ stop = setEnd s.part ∧
      bytes = (List.range count).flatMap (fun i => counterEntry s.part (first + i))) ∨
    (set = 2 ∧ size = 24 ∧ stop = 256 ∧
      bytes = (List.range count).flatMap (fun i => catchEntry s.part (first + i))) →
    first + count ≤ stop → count * size ≤ h.par 0x18 4 →
    inWindow s.part .write (h.par 0x10 8) (h.par 0x18 4) = true →
    q = hostWrite (begun s.part h 0x50) (h.par 0x10 8) bytes →
    (clearSet h = false →
      exec (.countersRead h) s = .next (withPart s (complete q h .ok 0 (count * size)))) ∧
    (clearSet h = true → set = 1 → ∃ r : Part, exec (.countersReadClear h) s = .next (withPart s
        (complete r h .ok 0 (count * size))) ∧ r = { q with sp := r.sp } ∧
      r.sp = { s.part.sp with ceD := r.sp.ceD, ceI := r.sp.ceI, ceT := r.sp.ceT } ∧
      (smapWf (fun _ => (0 : Nat)) s.part.sp.ceD = true → smapWf (fun _ => (0 : Nat)) s.part.sp.ceI = true →
       smapWf (fun _ => (0 : Nat)) s.part.sp.ceT = true → ∀ i < count,
        smapGet (fun _ => 0) r.sp.ceD (physBillet s.part (first + i)) = 0 ∧
        smapGet (fun _ => 0) r.sp.ceI (physBillet s.part (first + i)) = 0 ∧
        smapGet (fun _ => 0) r.sp.ceT (physBillet s.part (first + i)) = 0)) ∧
    (clearSet h = true → set = 2 → exec (.countersReadClear h) s = .next (withPart s
      (complete { setFld q SVN_CATCH_OVF 0 with
        tk := { s.part.tk with catchLog := [], catchOvf := [], classSeen := [], log154 := false } } h .ok 0
        (count * size)))))

/-- For NOP, ADMIT, STOP, START, LOAD_BLANK, LOAD_REGION, RDO_GRAPH_LOAD, RDO_POLICY, CAPTURE_DISARM, REKEY,
MON_CONVERT, FW_UPDATE and OTP_WRITE_RECORD picked up and next to begin: in a part halt the command completes with
ERR_HALTED, and with a reserved bit set (in no part halt and in D0) it completes with ERR_PARAM; in either case it
does nothing else. A HALT next to begin completes with ERR_HALTED when it was picked up in a part halt, and otherwise,
in no part halt, with ERR_PARAM when a reserved bit is set. One of these that may not begin, because it was not picked
up, or its turn has not come, changes nothing. -/
def Obligations.CommandRefusals : Prop :=
  (∀ (s : State) (h : Hdr) (img : List Byte) (f : FwBytes) (burnt : Option (List Byte)) (e : Option (BitVec 384))
    (c : Instr) (op : Nat), awake s →
    (c, op) ∈ [(Instr.nopCommand h, 0x00), (.admitFabric h, 0x04), (.stop h, 0x06), (.start h, 0x05),
      (.loadBlank h img, 0x02), (.loadRegion h img, 0x03), (.rdoGraphLoad h img, 0x19), (.rdoPolicy h, 0x1A),
      (.captureDisarm h, 0x21), (.rekey h e, 0x38), (.monConvert h, 0x40), (.fwUpdate h f, 0x58),
      (.otpWriteRecord h img burnt, 0x48)] →
    (mayBegin h op s.part.host.inflight = true → partHalted s.part = true →
      exec c s = .next (withPart s (complete (begun s.part h op) h .errHalted 0 0))) ∧
    (mayRun s.part h op → h.rsv = true →
      exec c s = .next (withPart s (complete (begun s.part h op) h .errParam 0 0))) ∧
    (mayBegin h op s.part.host.inflight = false → exec c s = .next s)) ∧
  (∀ (s : State) (h : Hdr) (e : Inflight), awake s →
    s.part.host.inflight.find? (fun e => e.hdr == h && !e.begun) = some e →
    (mayBegin h 0x07 s.part.host.inflight = true → e.found.late = true →
      exec (.halt h) s = .next (withPart s (complete (begun s.part h 0x07) h .errHalted 0 0))) ∧
    (mayRun s.part h 0x07 → e.found.late = false → h.rsv = true →
      exec (.halt h) s = .next (withPart s (complete (begun s.part h 0x07) h .errParam 0 0))) ∧
    (mayBegin h 0x07 s.part.host.inflight = false → exec (.halt h) s = .next s))

/-- Where a spindle executes a BOOL3, MOVE, SEL or LDI and no word that it reads has an uncorrectable error, its row
answers a next state in which the result r is on its way to d[dst], and in the spindle's bus slot when PUB is 1.
BOOL3: bit j of r is bit 4a[j] + 2b[j] + c[j] of TT. MOVE: r is a. SEL: lane k of r is lane k of a where lane k of c
is not zero, else lane k of b. LDI, mode 0: each 16-bit lane is IMM; mode 1: IMM zero-extended; mode 2: IMM sign-
extended; mode 3: a with the named 16-bit lane replaced by IMM. A BOOL3 with an uncorrectable word among its operands,
whatever its TT, is suppressed: it leaves no result. An LDI word of mode 0 to 2 with SA, SB or SC nonzero, or of mode
3 with SB[7:2] or SC nonzero, is refused by the decoder. -/
def Obligations.BitwiseMoveSelectAndImmediate : Prop :=
  (∀ (s : State) (a : Site) (dst : Nat) (x y z : Opnd) (pub : Bool) (tt : Nat),
    executes s a (.bool3 dst x y z pub tt) →
    (readable s a [x, y, z] → ∃ (t : State) (r : Word), exec (rowAt .bool3 a) s = .next t ∧ resultIs s t a dst pub r ∧
      ∀ j < 64, r.getLsbD j = tt.testBit (4 * ((opndAt s a [x, y, z] 0).getLsbD j).toNat +
        2 * ((opndAt s a [x, y, z] 1).getLsbD j).toNat + ((opndAt s a [x, y, z] 2).getLsbD j).toNat)) ∧
    (¬ readable s a [x, y, z] → ∃ t : State, exec (rowAt .bool3 a) s = .next t ∧
      pendAt t.part a = pendAt (fetched s.part a) a ∧ busAt t.part a = busAt s.part a ∧
      suppressedAt t.part a.sp a.step = true)) ∧
  (∀ (s : State) (a : Site) (dst : Nat) (x : Opnd) (pub : Bool), executes s a (.move dst x pub) → readable s a [x] →
    ∃ t : State, exec (rowAt .move a) s = .next t ∧ resultIs s t a dst pub (opndAt s a [x] 0)) ∧
  (∀ (s : State) (a : Site) (dst : Nat) (x y z : Opnd) (pub : Bool) (lm w : Nat),
    executes s a (.sel dst x y z pub lm) → readable s a [x, y, z] → w = laneWidth lm →
    ∃ (t : State) (r : Word), exec (rowAt .sel a) s = .next t ∧ resultIs s t a dst pub r ∧
      ∀ k < 64 / w, lane w r k = if lane w (opndAt s a [x, y, z] 2) k ≠ 0 then lane w (opndAt s a [x, y, z] 0) k
                                 else lane w (opndAt s a [x, y, z] 1) k) ∧
  (∀ (s : State) (a : Site) (dst imm mode : Nat) (pub : Bool), executes s a (.ldi dst imm mode pub) →
    ∃ (t : State) (r : Word), exec (rowAt .ldi a) s = .next t ∧ resultIs s t a dst pub r ∧
      (mode = 0 → ∀ k < 4, lane 16 r k = imm) ∧ (mode = 1 → r.toNat = imm) ∧
      (mode = 2 → r = (BitVec.ofNat 16 imm).signExtend 64)) ∧
  (∀ (s : State) (a : Site) (dst x sel imm : Nat) (pub : Bool), executes s a (.ldiInsert dst x sel imm pub) →
    readable s a [.mem x] → ∃ (t : State) (r : Word), exec (rowAt .ldi a) s = .next t ∧ resultIs s t a dst pub r ∧
      ∀ k < 4, lane 16 r k = if k = sel then imm else lane 16 (opndAt s a [.mem x] 0) k) ∧
  (∀ w : Word, (splitFields w.toNat).op = 0x14 →
    (((splitFields w.toNat).spec / 2 ^ 8 % 4 ≠ 3 ∧ ((splitFields w.toNat).sa ≠ 0 ∨ (splitFields w.toNat).sb ≠ 0 ∨
        (splitFields w.toNat).sc ≠ 0)) ∨
      ((splitFields w.toNat).spec / 2 ^ 8 % 4 = 3 ∧ (4 ≤ (splitFields w.toNat).sb ∨ (splitFields w.toNat).sc ≠ 0))) →
    decodeSp w = none)

/-- Where a spindle executes one of these and no word that it reads has an uncorrectable error, its row answers a next
state in which the result r is on its way to d[dst], and in the spindle's bus slot when PUB is 1. In every lane of the
lane mode's width w: ADD and SUB give the exact sum of two or three operands, or the exact difference, narrowed by
wrapping, or saturated to the unsigned or the signed range of the lane as OVF says (operands are read signed for the
signed saturation); CMP gives all ones where its condition holds, else zero; MIN and MAX give the lesser or the
greater lane, signed or unsigned, a on equality; CMPX with FORM 1 compares a AND c with b AND c, unsigned, and gives
the side that SIDE names; CMPX with FORM 0 puts each pair of lanes of a in order, ascending or descending, and keeps
every other lane. -/
def Obligations.LaneArithmetic : Prop :=
  (∀ (s : State) (a : Site) (dst : Nat) (x y : Opnd) (z : Option Opnd) (pub : Bool) (lm ovf w : Nat),
    executes s a (.add dst x y z pub lm ovf) → readable s a ([x, y] ++ z.toList) → w = laneWidth lm →
    ∃ (t : State) (r : Word), exec (rowAt .add a) s = .next t ∧ resultIs s t a dst pub r ∧
      ∀ k < 64 / w, ∀ sum : Int,
        sum = ovfLane w ovf (opndAt s a ([x, y] ++ z.toList) 0) k + ovfLane w ovf (opndAt s a ([x, y] ++ z.toList) 1) k +
          (if z.isSome then ovfLane w ovf (opndAt s a ([x, y] ++ z.toList) 2) k else 0) →
        (ovf = 0 → (lane w r k : Int) = sum % 2 ^ w) ∧
        (ovf = 1 → (lane w r k : Int) = Min.min sum (2 ^ w - 1)) ∧
        (ovf = 2 → laneSigned w r k = Max.max (-(2 ^ (w - 1))) (Min.min sum (2 ^ (w - 1) - 1)))) ∧
  (∀ (s : State) (a : Site) (dst : Nat) (x y : Opnd) (pub : Bool) (lm ovf w : Nat),
    executes s a (.sub dst x y pub lm ovf) → readable s a [x, y] → w = laneWidth lm →
    ∃ (t : State) (r : Word), exec (rowAt .sub a) s = .next t ∧ resultIs s t a dst pub r ∧
      ∀ k < 64 / w, ∀ diff : Int,
        diff = ovfLane w ovf (opndAt s a [x, y] 0) k - ovfLane w ovf (opndAt s a [x, y] 1) k →
        (ovf = 0 → (lane w r k : Int) = diff % 2 ^ w) ∧
        (ovf = 1 → (lane w r k : Int) = Max.max 0 diff) ∧
        (ovf = 2 → laneSigned w r k = Max.max (-(2 ^ (w - 1))) (Min.min diff (2 ^ (w - 1) - 1)))) ∧
  (∀ (s : State) (a : Site) (dst : Nat) (x y : Opnd) (pub : Bool) (lm cond w : Nat),
    executes s a (.cmp dst x y pub lm cond) → readable s a [x, y] → w = laneWidth lm →
    ∃ (t : State) (r : Word), exec (rowAt .cmp a) s = .next t ∧ resultIs s t a dst pub r ∧
      ∀ k < 64 / w, lane w r k =
        if cmpHolds w cond (opndAt s a [x, y] 0) (opndAt s a [x, y] 1) k then 2 ^ w - 1 else 0) ∧
  (∀ (s : State) (a : Site) (dst : Nat) (x y : Opnd) (pub : Bool) (lm w : Nat) (sgn : Bool), w = laneWidth lm →
    readable s a [x, y] →
    (executes s a (.min dst x y pub lm sgn) → ∃ (t : State) (r : Word), exec (rowAt .min a) s = .next t ∧
      resultIs s t a dst pub r ∧ ∀ k < 64 / w,
        (sgn = false → lane w r k = Min.min (lane w (opndAt s a [x, y] 0) k) (lane w (opndAt s a [x, y] 1) k)) ∧
        (sgn = true → laneSigned w r k =
          Min.min (laneSigned w (opndAt s a [x, y] 0) k) (laneSigned w (opndAt s a [x, y] 1) k))) ∧
    (executes s a (.max dst x y pub lm sgn) → ∃ (t : State) (r : Word), exec (rowAt .max a) s = .next t ∧
      resultIs s t a dst pub r ∧ ∀ k < 64 / w,
        (sgn = false → lane w r k = Max.max (lane w (opndAt s a [x, y] 0) k) (lane w (opndAt s a [x, y] 1) k)) ∧
        (sgn = true → laneSigned w r k =
          Max.max (laneSigned w (opndAt s a [x, y] 0) k) (laneSigned w (opndAt s a [x, y] 1) k)))) ∧
  (∀ (s : State) (a : Site) (dst : Nat) (x : Opnd) (pub : Bool) (lm w dist : Nat) (sgn desc : Bool)
    (pairs : List (Nat × Nat)), executes s a (.cmpxPairs dst x pub lm sgn desc dist) → readable s a [x] →
    w = laneWidth lm → cmpxPairsOf lm dist = some pairs →
    ∃ (t : State) (r : Word), exec (rowAt .cmpx a) s = .next t ∧ resultIs s t a dst pub r ∧
      (∀ lo hi, (lo, hi) ∈ pairs →
        ((lane w r lo = lane w (opndAt s a [x] 0) lo ∧ lane w r hi = lane w (opndAt s a [x] 0) hi) ∨
         (lane w r lo = lane w (opndAt s a [x] 0) hi ∧ lane w r hi = lane w (opndAt s a [x] 0) lo)) ∧
        (sgn = false → desc = false → lane w r lo ≤ lane w r hi) ∧ (sgn = false → desc = true → lane w r hi ≤ lane w r lo) ∧
        (sgn = true → desc = false → laneSigned w r lo ≤ laneSigned w r hi) ∧
        (sgn = true → desc = true → laneSigned w r hi ≤ laneSigned w r lo)) ∧
      (∀ k < 64 / w, (∀ p ∈ pairs, p.1 ≠ k ∧ p.2 ≠ k) → lane w r k = lane w (opndAt s a [x] 0) k)) ∧
  (∀ (s : State) (a : Site) (dst : Nat) (x y z : Opnd) (pub : Bool) (lm w : Nat) (side : Bool),
    executes s a (.cmpxSide dst x y z pub lm side) → readable s a [x, y, z] → w = laneWidth lm →
    ∃ (t : State) (r : Word), exec (rowAt .cmpx a) s = .next t ∧ resultIs s t a dst pub r ∧
      ∀ k < 64 / w, ∀ ka kb : Nat, ka = lane w (opndAt s a [x, y, z] 0 &&& opndAt s a [x, y, z] 2) k →
        kb = lane w (opndAt s a [x, y, z] 1 &&& opndAt s a [x, y, z] 2) k →
        lane w r k = if (kb < ka ↔ side = true) then lane w (opndAt s a [x, y, z] 0) k
                     else lane w (opndAt s a [x, y, z] 1) k)

/-- Where a spindle executes one of these and no word that it reads has an uncorrectable error, its row answers a next
state in which the result r is on its way to d[dst], and in the spindle's bus slot when PUB is 1. In every lane of
width w, bit by bit: SHF left moves bit i to i + AMT with zeros below; SHF right moves bit i + AMT to i with zeros, or
copies of the lane's sign bit, above; ROT moves bit i to i + AMT, or bit i + AMT to i, modulo w; POPC counts the set
bits of a, or of a AND b; PRIO gives the position of the highest, or lowest, set bit, and all ones for a lane of zero.
-/
def Obligations.ShiftsAndBitCounts : Prop :=
  (∀ (s : State) (a : Site) (dst : Nat) (x : Opnd) (pub : Bool) (lm w amt kind : Nat) (right : Bool),
    executes s a (.shf dst x pub lm right amt kind) → readable s a [x] → w = laneWidth lm →
    ∃ (t : State) (r : Word), exec (rowAt .shf a) s = .next t ∧ resultIs s t a dst pub r ∧
      ∀ k < 64 / w, ∀ i < w,
        (right = false → (lane w r k).testBit i =
          (decide (amt ≤ i) && (lane w (opndAt s a [x] 0) k).testBit (i - amt))) ∧
        (right = true → kind = 0 → (lane w r k).testBit i = (lane w (opndAt s a [x] 0) k).testBit (i + amt)) ∧
        (right = true → kind = 1 → (lane w r k).testBit i =
          (lane w (opndAt s a [x] 0) k).testBit (Min.min (i + amt) (w - 1)))) ∧
  (∀ (s : State) (a : Site) (dst : Nat) (x : Opnd) (pub : Bool) (lm w amt : Nat) (right : Bool),
    executes s a (.rot dst x pub lm right amt) → readable s a [x] → w = laneWidth lm →
    ∃ (t : State) (r : Word), exec (rowAt .rot a) s = .next t ∧ resultIs s t a dst pub r ∧
      ∀ k < 64 / w, ∀ i < w,
        (right = false → (lane w r k).testBit ((i + amt) % w) = (lane w (opndAt s a [x] 0) k).testBit i) ∧
        (right = true → (lane w r k).testBit i = (lane w (opndAt s a [x] 0) k).testBit ((i + amt) % w))) ∧
  (∀ (s : State) (a : Site) (dst : Nat) (x : Opnd) (m : Option Opnd) (pub : Bool) (lm w : Nat) (v : Word),
    executes s a (.popc dst x m pub lm) → readable s a ([x] ++ m.toList) → w = laneWidth lm →
    v = (if m.isSome then opndAt s a ([x] ++ m.toList) 0 &&& opndAt s a ([x] ++ m.toList) 1
         else opndAt s a ([x] ++ m.toList) 0) →
    ∃ (t : State) (r : Word), exec (rowAt .popc a) s = .next t ∧ resultIs s t a dst pub r ∧
      ∀ k < 64 / w, lane w r k = ((List.range w).filter (fun i => (lane w v k).testBit i)).length) ∧
  (∀ (s : State) (a : Site) (dst : Nat) (x : Opnd) (pub : Bool) (lm w : Nat) (low : Bool),
    executes s a (.prio dst x pub lm low) → readable s a [x] → w = laneWidth lm →
    ∃ (t : State) (r : Word), exec (rowAt .prio a) s = .next t ∧ resultIs s t a dst pub r ∧
      ∀ k < 64 / w,
        (lane w (opndAt s a [x] 0) k = 0 → lane w r k = 2 ^ w - 1) ∧
        (lane w (opndAt s a [x] 0) k ≠ 0 → (lane w (opndAt s a [x] 0) k).testBit (lane w r k) = true ∧
          ∀ i < w, (lane w (opndAt s a [x] 0) k).testBit i = true →
            if low then lane w r k ≤ i else i ≤ lane w r k))

/-- Where a spindle executes a NOP, its row answers a next state that differs only by what passing the step and
fetching the entry leave: a data-memory word is as before, or is the result of an instruction that the same spindle
executed at least two steps earlier; every instruction-memory entry but the fetched one is as before, and the fetched
one is as before or has its single-bit error corrected; a corrected entry is counted and queued for write-back.
Nothing else changes. A word decodes to NOP exactly when it is zero, and a spindle that issues on an all-zero entry
without errors executes a NOP. -/
def Obligations.NopHasNoEffect : Prop :=
  (∀ (s : State) (a : Site), executes s a .nop →
    exec (rowAt .nop a) s = .next (withPart s (fetched s.part a)) ∧
    fetched s.part a = { s.part with sp := { s.part.sp with
      dmem := (fetched s.part a).sp.dmem, pend := (fetched s.part a).sp.pend, dQueue := (fetched s.part a).sp.dQueue,
      iQueue := (fetched s.part a).sp.iQueue, imem := (fetched s.part a).sp.imem,
      iUsed := (fetched s.part a).sp.iUsed, iFixed := (fetched s.part a).sp.iFixed, ceI := (fetched s.part a).sp.ceI,
      lastStep := (fetched s.part a).sp.lastStep } } ∧
    (∀ k, dword (fetched s.part a) k = dword s.part k ∨
      ((pendAt s.part a).step + 2 ≤ a.step ∧ k = a.sp * 256 + (pendAt s.part a).addr ∧
       (canon s.part → dword (fetched s.part a) k = cleanWord (pendAt s.part a).val))) ∧
    (∀ k, k ≠ entryKey a → iword (fetched s.part a) k = iword s.part k) ∧
    (canon s.part → iword (fetched s.part a) (entryKey a) = iword s.part (entryKey a) ∨
      iword (fetched s.part a) (entryKey a) = fixWord (iword s.part (entryKey a)))) ∧
  (∀ w : Word, decodeSp w = some .nop ↔ w = 0) ∧
  (∀ (s : State) (a : Site), awake s → issues s.part a = true → iword s.part (entryKey a) = EccWord.zero →
    seenEntry s.part a = EccWord.zero →
    executes s a .nop)

/-- For every opcode: when the entry that a spindle fetches has an uncorrectable error, or when the instruction it
executes reads a word that has one, the row answers a next state in which the instruction has left no data-memory
write, no bus word, no table access, no load of TR, no SEND and no staging write (data memory is as passing the step,
or as fetching and reading the operands, leaves it, with no new result on its way); the spindle is marked as
suppressed at that step. A router slot whose entry with good parity such a spindle owns by injection at the next step,
and into which no SEND went, is then sent a zero word under its tag, without a catch of the router, where the column
is in no held region. -/
def Obligations.SuppressedInstructions : Prop :=
  (∀ (s : State) (a : Site) (op : SpOp) (i : SpInstr) (os : List Opnd) (p : Part), awake s → issues s.part a = true →
    (eccKind (seenEntry s.part a) = .double ∧ p = passStep s.part a) ∨
      (executes s a i ∧ spOpOf i = op ∧ os = opndsOf i ∧ ¬ readable s a os ∧
        p = (readStages (fetched s.part a) a os).1) →
    ∃ t : State, exec (rowAt op a) s = .next t ∧
      t.part.sp.dmem = p.sp.dmem ∧ t.part.sp.pend = (passStep s.part a).sp.pend ∧
      t.part.sp.bus = s.part.sp.bus ∧ t.part.sp.table = s.part.sp.table ∧ t.part.sp.tr = s.part.sp.tr ∧
      t.part.sp.tableStep = s.part.sp.tableStep ∧ t.part.gr = s.part.gr ∧
      suppressedAt t.part a.sp a.step = true) ∧
  (∀ (p : Part) (col row ch step idx : Nat), colHeld p col = false →
    slotAt p (billetNo col row) ch step = ⟨.inject idx, (slotAt p (billetNo col row) ch step).tag, false⟩ →
    (∀ j ∈ smapGet (fun _ => []) p.gr.inject (billetNo col row * 16 + ch), j.1 ≠ step) → 0 < step →
    suppressedAt p (billetNo col row * 64 + idx) (step - 1) = true →
    routerSlot col row step p ch =
      routerSend p col row ch step ⟨(slotAt p (billetNo col row) ch step).tag, 0⟩)

/-- Where a spindle executes a TBLR whose operands are readable, as the table access of its billet at that step (none
of that billet was performed at it, and no spindle of a lower index issues one): the addressed table word, corrected
where it has a single-bit error, is on its way to TR for the step s + 3; a word with an uncorrectable error puts zero
on its way instead and raises CATCH_TABLE (with FLAGS bit 4 clear: the model's choice, log 39). Where a spindle
executes a TBLW so, the addressed table word holds operand B without errors from then on, and no other table word
changes. An access that is not this one is suppressed with CATCH_SLOT for its spindle and does neither. The address is
OFS, or the low 14 bits of operand A plus OFS modulo 16,384. -/
def Obligations.TableAccesses : Prop :=
  (∀ (s : State) (a : Site) (idx : Option Nat) (ofs addr : Nat) (os : List Opnd), os = idx.toList.map Opnd.mem →
    executes s a (.tblr idx ofs) → readable s a os →
    addr = (if idx.isSome then ((opndAt s a os 0).toNat % 2 ^ 14 + ofs) % 16384 else ofs) →
    ∃ t : State, exec (rowAt .tblr a) s = .next t ∧ t.part.sp.table = s.part.sp.table ∧
      (tableTurn s a os →
        (eccKind (tword s.part (a.bil * 16384 + addr)) ≠ .double →
          (trAt t.part a).coming = (trAt s.part a).coming ++ [(a.step + 3, eccData (tword s.part (a.bil * 16384 + addr)))] ∧
          t.part.tk = s.part.tk) ∧
        (eccKind (tword s.part (a.bil * 16384 + addr)) = .double →
          (trAt t.part a).coming = (trAt s.part a).coming ++ [(a.step + 3, 0)] ∧
          t.part.tk.catchLog = (raiseCatch (opnds s a os).1 .table (.spindle a.col a.row a.idx) a.step 0 addr).tk.catchLog)) ∧
      (¬ tableTurn s a os → t.part.sp.tr = s.part.sp.tr ∧
        t.part.tk.catchLog = (raiseCatch (opnds s a os).1 .slot (.spindle a.col a.row a.idx) a.step 16 0).tk.catchLog)) ∧
  (∀ (s : State) (a : Site) (idx : Option Nat) (b ofs addr : Nat) (os : List Opnd),
    os = idx.toList.map Opnd.mem ++ [.mem b] → executes s a (.tblw idx b ofs) → readable s a os →
    addr = (if idx.isSome then ((opndAt s a os 0).toNat % 2 ^ 14 + ofs) % 16384 else ofs) →
    ∃ t : State, exec (rowAt .tblw a) s = .next t ∧ t.part.sp.tr = s.part.sp.tr ∧
      (tableTurn s a os →
        (canon s.part → tword t.part (a.bil * 16384 + addr) = ⟨opndAt s a os (if idx.isSome then 1 else 0), 0⟩) ∧
        (∀ k, k ≠ a.bil * 16384 + addr → tword t.part k = tword s.part k) ∧ t.part.tk = s.part.tk) ∧
      (¬ tableTurn s a os → t.part.sp.table = s.part.sp.table ∧
        t.part.tk.catchLog = (raiseCatch (opnds s a os).1 .slot (.spindle a.col a.row a.idx) a.step 16 0).tk.catchLog))

/-- Where a spindle executes one of these and its operand is readable. SEND: the word is accepted for the slot of its
channel at the next step when that slot is owned by injection from this spindle under the SEND's tag; otherwise it is
refused, nothing is injected, and CATCH_SLOT is raised for the spindle with the channel and the tag. RECV: the grain
operand of the channel and tag is the result. BPUB: operand A goes into the spindle's bus slot and no data-memory
write follows. PIN in a port billet: the named word of the receive window of its lane is the result. On the edge I/O
channel of a corner billet an accepted SEND with good parity writes the output staging of the cell that DEST [3:0]
names, and RECV gives the input word of the cell that the tag names, or 0 while GIO_CTRL does not enable the corner,
with no catch. At TICK_BOUNDARY the staging of the cells leaves (an unwritten cell repeats its word), the record of a
ball gives its cell's input word, and the delays written take effect. A sampled input with OFS 0 in a tick of 40 ns
has in bit k, 0 to 35, the level 0.50 ns after half-cycle k begins less the input delay, and 0 above. A ball with OE 0
is not driven; one not driving its word has the level of SAFE: low, high, the last bit driven, or none; one that
drives has bit k of its latest word in half-cycle 8 + OFS + k, 1.50 ns and the output delay later, or bit 0 in level
mode. That E(t) is the first whole nanosecond at or after the boundary is the model's reading (log 35). -/
def Obligations.GrainBusAndWindowOperations : Prop :=
  (∀ (s : State) (a : Site) (tag ch k : Nat) (x : Opnd) (e : SlotEntry), executes s a (.send tag x ch) →
    readable s a [x] → e = slotAt s.part a.bil ch (a.step + 1) → k = a.bil * 16 + ch →
    ∃ t : State, exec (rowAt .send a) s = .next t ∧ t.part.sp.bus = s.part.sp.bus ∧
      pendAt t.part a = pendAt (fetched s.part a) a ∧
      (e.owner = .inject a.idx → e.tag = tag →
        smapGet (fun _ => []) t.part.gr.inject k =
          smapGet (fun _ => []) s.part.gr.inject k ++ [(a.step + 1, .accepted ⟨tag, opndAt s a [x] 0⟩)] ∧
        t.part.tk = (opnds s a [x]).1.tk) ∧
      (e.owner ≠ .inject a.idx ∨ e.tag ≠ tag →
        smapGet (fun _ => []) t.part.gr.inject k =
          smapGet (fun _ => []) s.part.gr.inject k ++ [(a.step + 1, .refused)] ∧
        t.part.tk.catchLog = (raiseCatch (opnds s a [x]).1 .slot (.spindle a.col a.row a.idx) a.step 0
          (ch * 256 + tag)).tk.catchLog)) ∧
  (∀ (s : State) (a : Site) (dst ch tag : Nat) (pub : Bool), executes s a (.recv dst ch tag pub) →
    ∃ t : State, exec (rowAt .recv a) s = .next t ∧
      resultIs s t a dst pub (grainValue (fetched s.part a) a ch tag).2) ∧
  (∀ (s : State) (a : Site) (x : Opnd), executes s a (.bpub x) → readable s a [x] →
    ∃ t : State, exec (rowAt .bpub a) s = .next t ∧ pendAt t.part a = pendAt (fetched s.part a) a ∧
      busAt t.part a = ⟨(busAt s.part a).latest, opndAt s a [x] 0, a.step⟩) ∧
  (∀ (s : State) (a : Site) (dst ln wix n : Nat) (pub : Bool), executes s a (.pin dst ln wix pub) →
    portLane s.part a ln = some n → ∃ t : State, exec (rowAt .pin a) s = .next t ∧
      resultIs s t a dst pub (smapGet (fun _ => 0) s.part.gr.rxVisible (n * 128 + wix))) ∧
  (∀ (s : State) (a : Site) (tag ch k : Nat) (x : Opnd) (e : SlotEntry), executes s a (.send tag x ch) →
    readable s a [x] → e = slotAt s.part a.bil ch (a.step + 1) → edgeChannel s.part a.col a.row ch = true →
    k = 16 * cornerOf a.col a.row + tag % 16 → e.owner = .inject a.idx → e.tag = tag → e.badParity = false →
    smapWf (fun _ => Staged.none) s.part.gr.gioStage = true →
    ∃ t : State, exec (rowAt .send a) s = .next t ∧
      stagedIs (smapGet (fun _ => Staged.none) s.part.gr.gioStage k) (smapGet (fun _ => Staged.none) t.part.gr.gioStage k)
        a (opndAt s a [x] 0) ∧
      ∀ j, j ≠ k → smapGet (fun _ => Staged.none) t.part.gr.gioStage j =
        smapGet (fun _ => Staged.none) s.part.gr.gioStage j) ∧
  (∀ (s : State) (a : Site) (dst ch tag : Nat) (pub : Bool), executes s a (.recv dst ch tag pub) →
    edgeChannel s.part a.col a.row ch = true → ∃ t : State, exec (rowAt .recv a) s = .next t ∧ t.part.tk = s.part.tk ∧
      resultIs s t a dst pub (if (fld s.part GIO_CORNER_EN).testBit (cornerOf a.col a.row) = true
        then smapGet (fun _ => 0) s.part.gr.gioIn (16 * cornerOf a.col a.row + tag % 16) else 0)) ∧
  (∀ (s : State) (phase : Int) (w : BallWave), awake s → ticksOn s.part = true → s.part.tim.run = true →
    smapWf (fun _ => ([] : List Word)) s.part.gr.gioWords = true →
    ∃ t : State, exec (.tickBoundary phase [w]) s = .next t ∧ t.part.gr.gioStage = [] ∧
      smapGet (fun _ => 0) t.part.gr.gioIn w.ball.val =
        cellInput s.part w.ball.val (boundaryAt s.part s.part.tk.tick) (boundaryAt s.part (nextTick s.part)) w ∧
      ∀ j < 64, inDelay t.part j = fldI s.part GIO_IDLY j ∧ outDelay t.part j = fldI s.part GIO_ODLY j ∧
        (∀ v, smapGet (fun _ => Staged.none) s.part.gr.gioStage j = v → v.step ≠ 0 →
          cellWords t.part j = (v.val :: cellWords s.part j).take 24) ∧
        (∀ u l, (smapGet (fun _ => Staged.none) s.part.gr.gioStage j).step = 0 → cellWords s.part j = u :: l →
          cellWords t.part j = (u :: u :: l).take 24)) ∧
  (∀ (p : Part) (j b e : Nat) (w : BallWave), fldI p GIO_MODE j = 0 → fldI p GIO_OFS j = 0 → e = (b + 40) * 2 ^ 32 →
    ∀ k < 64, (cellInput p j (b * 2 ^ 32) e w).getLsbD k = (decide (k ≤ 35) && waveAt w (250 + 100 * k - inDelay p j))) ∧
  (∀ (p : Part) (j x k from' : Nat), from' = ((edgeNs (boundaryAt p p.tk.tick) + 8 + fldI p GIO_OFS j) * 100 + 150 +
      outDelay p j) * 2 ^ 32 →
    (fldI p GIO_OE j = 0 → cellLevel p j x = none) ∧
    (fldI p GIO_OE j = 1 → cellLive p j = false →
      (fldI p GIO_SAFE j = 0 → cellLevel p j x = some false) ∧ (fldI p GIO_SAFE j = 1 → cellLevel p j x = some true) ∧
      (fldI p GIO_SAFE j = 2 → cellLevel p j x = smapGet (fun _ => none) p.gr.gioLast j) ∧
      (fldI p GIO_SAFE j = 3 → cellLevel p j x = none)) ∧
    (fldI p GIO_OE j = 1 → cellLive p j = true →
      (fldI p GIO_MODE j = 0 → k < 64 → from' + 100 * k * 2 ^ 32 ≤ 100 * x → 100 * x < from' + 100 * (k + 1) * 2 ^ 32 →
        cellLevel p j x = some (((cellWords p j).headD 0).getLsbD k)) ∧
      (fldI p GIO_MODE j = 1 → from' ≤ 100 * x → cellLevel p j x = some (((cellWords p j).headD 0).getLsbD 0))))

/-- Where a spindle executes one of these and its operand is readable: POUT in a port billet writes the named word of
its lane's transmit window, HIST and PROBE the named slot of the billet; of two writes of one slot in a tick the one
with the later execute step stands, and of one step that of the higher spindle index. ACCEPT, UEVT and STAT of the
spindle that the blank declares for the port write that port, and of any other spindle they write nothing. Nothing
else of the grain's state changes, and the memories, bus slots and tables are as fetching and reading the operand
leave them. -/
def Obligations.StagingWrites : Prop :=
  ∀ (s : State) (a : Site) (x : Opnd) (v : Word), readable s a [x] → v = opndAt s a [x] 0 →
    (∀ ln wix n, executes s a (.pout x ln wix) → portLane s.part a ln = some n →
      ∃ t : State, exec (rowAt .pout a) s = .next t ∧
        stagedIs (smapGet (fun _ => Staged.none) s.part.gr.txStage (n * 128 + wix))
          (smapGet (fun _ => Staged.none) t.part.gr.txStage (n * 128 + wix)) a v ∧
        (∀ k, k ≠ n * 128 + wix → smapGet (fun _ => Staged.none) t.part.gr.txStage k =
          smapGet (fun _ => Staged.none) s.part.gr.txStage k) ∧
        t.part.gr = { s.part.gr with txStage := t.part.gr.txStage } ∧ t.part.sp = (opnds s a [x]).1.sp) ∧
    (∀ hix, executes s a (.hist x hix) → ∃ t : State, exec (rowAt .hist a) s = .next t ∧
        stagedIs (smapGet (fun _ => Staged.none) s.part.gr.hist (a.bil * 8 + hix))
          (smapGet (fun _ => Staged.none) t.part.gr.hist (a.bil * 8 + hix)) a v ∧
        (∀ k, k ≠ a.bil * 8 + hix → smapGet (fun _ => Staged.none) t.part.gr.hist k =
          smapGet (fun _ => Staged.none) s.part.gr.hist k) ∧
        t.part.gr = { s.part.gr with hist := t.part.gr.hist } ∧ t.part.sp = (opnds s a [x]).1.sp) ∧
    (∀ pix, executes s a (.probe x pix) → ∃ t : State, exec (rowAt .probe a) s = .next t ∧
        stagedIs (smapGet (fun _ => Staged.none) s.part.gr.probe (a.bil * 4 + pix))
          (smapGet (fun _ => Staged.none) t.part.gr.probe (a.bil * 4 + pix)) a v ∧
        (∀ k, k ≠ a.bil * 4 + pix → smapGet (fun _ => Staged.none) t.part.gr.probe k =
          smapGet (fun _ => Staged.none) s.part.gr.probe k) ∧
        t.part.gr = { s.part.gr with probe := t.part.gr.probe } ∧ t.part.sp = (opnds s a [x]).1.sp) ∧
    (executes s a (.accept x) → ∃ t : State, exec (rowAt .accept a) s = .next t ∧
        t.part.gr = { s.part.gr with accept :=
          if (declOf s.part).accept = some a.sp then ⟨a.step, a.idx, v⟩ else s.part.gr.accept } ∧
        t.part.sp = (opnds s a [x]).1.sp) ∧
    (executes s a (.uevt x) → ∃ t : State, exec (rowAt .uevt a) s = .next t ∧
        t.part.gr = { s.part.gr with uevt :=
          if (declOf s.part).uevt = some a.sp then ⟨a.step, a.idx, v⟩ else s.part.gr.uevt } ∧
        t.part.sp = (opnds s a [x]).1.sp) ∧
    (∀ six, executes s a (.stat x six) → ∃ t : State, exec (rowAt .stat a) s = .next t ∧
        (smapGet (fun _ => none) (declOf s.part).stat six = some a.sp →
          smapGet (fun _ => Staged.none) t.part.gr.stat six = ⟨a.step, a.idx, v⟩) ∧
        (smapGet (fun _ => none) (declOf s.part).stat six ≠ some a.sp → t.part.gr.stat = s.part.gr.stat) ∧
        (∀ k, k ≠ six → smapGet (fun _ => Staged.none) t.part.gr.stat k =
          smapGet (fun _ => Staged.none) s.part.gr.stat k) ∧
        t.part.gr = { s.part.gr with stat := t.part.gr.stat } ∧ t.part.sp = (opnds s a [x]).1.sp)

/-- The row of every opcode, at every site and in every state, answers a next state in which: no instruction-memory
entry changes but the one the site fetches (a correction may be written back to it); the data memory, the result on
its way, the bus slot and TR of every other spindle are as before; the table changes only by TBLW and only in the
spindle's own billet; and the loaded blank, its regions, the loader, the lanes, sealed memory, history, readout,
capture, device time, the boot and host memory are as before. -/
def Obligations.SpindleFrame : Prop :=
  ∀ (s : State) (op : SpOp) (a : Site), ∃ t : State, exec (rowAt op a) s = .next t ∧
    (∀ k, k ≠ entryKey a → iword t.part k = iword s.part k) ∧
    (∀ k, (∀ x < 256, k ≠ a.sp * 256 + x) → (pendAt s.part a).addr < 256 → dword t.part k = dword s.part k) ∧
    (∀ k, k ≠ a.sp → smapGet (fun _ => (⟨0, 0, 0⟩ : PendWrite)) t.part.sp.pend k =
        smapGet (fun _ => (⟨0, 0, 0⟩ : PendWrite)) s.part.sp.pend k ∧
      smapGet (fun _ => (⟨0, 0, 0⟩ : BusSlot)) t.part.sp.bus k = smapGet (fun _ => (⟨0, 0, 0⟩ : BusSlot)) s.part.sp.bus k ∧
      smapGet (fun _ => (⟨0, []⟩ : TrState)) t.part.sp.tr k = smapGet (fun _ => (⟨0, []⟩ : TrState)) s.part.sp.tr k) ∧
    (op ≠ .tblw → t.part.sp.table = s.part.sp.table) ∧
    (∀ k, k / 16384 ≠ a.bil → tword t.part k = tword s.part k) ∧
    t.part.blank = s.part.blank ∧ t.part.regions = s.part.regions ∧ t.part.loader = s.part.loader ∧
    t.part.lanes = s.part.lanes ∧ t.part.sm = s.part.sm ∧ t.part.his = s.part.his ∧ t.part.rdo = s.part.rdo ∧
    t.part.cap = s.part.cap ∧ t.part.tim = s.part.tim ∧ t.part.now = s.part.now ∧ t.part.boot = s.part.boot ∧
    t.part.host.mem = s.part.host.mem

/-- For every spindle instruction whose fields hold values that their definitions allow, decoding its 64-bit encoding
gives exactly that instruction; and for every 64-bit word that decodes to an instruction, the instruction's fields
hold allowed values and its encoding is that word. -/
def Obligations.SpindleDecodeEncode : Prop :=
  (∀ i : SpInstr, spWf i = true → decodeSp (encodeSp i) = some i) ∧
  (∀ (w : Word) (i : SpInstr), decodeSp w = some i → spWf i = true ∧ encodeSp i = w)

/-- What the part finds at a pickup: a full blank is allowed while the HBM stacks are READY, no configuration stream
is active, all four dies are present and the fabric is in OFF, LOADED, ADMITTED or STOPPED or in a fabric halt; a
partial one for the regions that are LIVE, with the stacks READY, no stream, and the fabric in LOADED, ADMITTED,
STOPPED or RUNNING. Then a LOAD_BLANK or LOAD_REGION that begins while the unit of the fabric is present and not in
self-test. Where what was found at its pickup allows it, and (LOAD_REGION) its u0 is 0 or from the tick of its pickup
to 2^24 ticks after it: an image of at most 1 GiB inside a DMA window is staged behind the loads before it while DMA
may be issued, and nothing else changes; an image beyond 1 GiB is refused as check 3 with ERR_PARAM, and a buffer
outside the windows with ERR_WINDOW. A LOAD_REGION with another u0 completes with ERR_PARAM. Where what was found does
not allow the load, the command completes with ERR_STATE and nothing else changes, whatever has changed since. The
address, the length and u0 are those of the descriptor. The order of these tests, and that the fetch comes first of
all loads in the order they begin, is the model's choice (log 32). -/
def Obligations.LoadsTakenUp : Prop :=
  (∀ (p : Part) (b : Bool), (findAt p b).tick = p.tk.tick ∧
    ((findAt p b).blankOk = true ↔ hbmReady p = true ∧ p.loader.stream = none ∧ (∀ d < 4, diePresent p d = true) ∧
      p.tk.fab ≠ .running ∧ (p.tk.fab = .halted → partHalted p = false)) ∧
    (∀ k, k ∈ (findAt p b).regions ↔ hbmReady p = true ∧ p.loader.stream = none ∧
      p.tk.fab ∈ [FabState.loaded, .admitted, .stopped, .running] ∧ k < p.regions.length ∧
      (regionAt p k).state = .live)) ∧
  (∀ (s : State) (h : Hdr) (img : List Byte) (addr len : Nat) (p : Part), awake s → commandRuns s.part h 0x02 →
    unitReady s.part 1 → addr = h.par 0x08 8 → len = h.par 0x10 8 → p = begun s.part h 0x02 →
    ((foundOf p h).blankOk = true →
      (len ≤ 2 ^ 30 → inWindow s.part .read addr len = true → dmaOk s.part = true →
        exec (.loadBlank h img) s = .next (withPart s { p with loader :=
          { s.part.loader with jobs := s.part.loader.jobs ++ [⟨some h, false, 0, fitBytes len img, false⟩] } })) ∧
      (len ≤ 2 ^ 30 → inWindow s.part .read addr len = false →
        exec (.loadBlank h img) s = .next (withPart s (refuseWindow p h h.op addr len))) ∧
      (2 ^ 30 < len → exec (.loadBlank h img) s =
        .next (withPart s (refuseLoad p (some h) none ⟨3, .errParam, 0, 0, none⟩)))) ∧
    ((foundOf p h).blankOk = false →
      exec (.loadBlank h img) s = .next (withPart s (complete p h .errState 0 0)))) ∧
  (∀ (s : State) (h : Hdr) (img : List Byte) (addr len u0 v : Nat) (p : Part), awake s → commandRuns s.part h 0x03 →
    unitReady s.part 1 → addr = h.par 0x08 8 → len = h.par 0x10 8 → u0 = h.par 0x18 8 → p = begun s.part h 0x03 →
    v = pickupTick p h →
    (hdrRegion img ∈ (foundOf p h).regions →
      (u0 = 0 ∨ (v ≤ u0 ∧ u0 ≤ v + 2 ^ 24) →
        (len ≤ 2 ^ 30 → inWindow s.part .read addr len = true → dmaOk s.part = true →
          exec (.loadRegion h img) s = .next (withPart s { p with loader := { s.part.loader with
            jobs := s.part.loader.jobs ++ [⟨some h, true, u0, fitBytes len img, false⟩] } })) ∧
        (len ≤ 2 ^ 30 → inWindow s.part .read addr len = false →
          exec (.loadRegion h img) s = .next (withPart s (refuseWindow p h h.op addr len))) ∧
        (2 ^ 30 < len → exec (.loadRegion h img) s =
          .next (withPart s (refuseLoad p (some h) (some (hdrRegion img % 8)) ⟨3, .errParam, 0, 0, none⟩)))) ∧
      (u0 ≠ 0 → u0 < v ∨ v + 2 ^ 24 < u0 →
        exec (.loadRegion h img) s = .next (withPart s (complete p h .errParam 0 0)))) ∧
    (hdrRegion img ∉ (foundOf p h).regions →
      exec (.loadRegion h img) s = .next (withPart s (complete p h .errState 0 0))))

/-- LOAD_CHECK of the first load, while no blank is being written and the fabric is not in self-test: where its image
cannot be staged in sealed memory (a stream has staged its own) and read back, that status is reported as check 0, the
model's choice (log 33); otherwise the first refusal of checks 1 to 12, else of check 13, else of the state test after
the checks, is; in each case the load leaves the loader. A full blank that none refuses puts the fabric in LOADED,
ends a fabric halt, zeroes bus slots and TR, and begins to be written; a partial one, while the fabric is not RUNNING,
puts its region in LOADING at once (ADMITTED becomes LOADED), and no other region changes. While another blank is
being written, or the fabric is in self-test, or no load waits, LOAD_CHECK changes nothing. LOAD_WRITE_END: every
data-memory, instruction-memory and table word holds the image's word without errors, and zero where the image gives
none; no result is on its way; the declarations and the columns in use are the blank's; each declared region is LIVE
and every other EMPTY; no blank is being written any more, and the command of the load is no longer in flight. -/
def Obligations.FullBlankChecksAndWrite : Prop :=
  (∀ (s : State) (p : Part) (img : List Byte) (st : Status) (job new : LoadJob) (rest : List LoadJob), awake s →
    s.part.loader.jobs = job :: rest → loaderWriting s.part = false → unitTesting s.part 1 = false →
    stageImage { s.part with loader := { s.part.loader with jobs := rest } } job = (p, st, img) →
    new = { job with image := img } →
    (st ≠ .ok → exec .loadCheck s = .next (withPart s (refuseLoad p job.hdr (jobRegion job) ⟨0, st, 0, 0, none⟩))) ∧
    (∀ f, st = .ok → (imageFail p new = some f ∨ (imageFail p new = none ∧ regionFail p job.u0 img = some f) ∨
        (imageFail p new = none ∧ regionFail p job.u0 img = none ∧ stateFail p img = some f)) →
      exec .loadCheck s = .next (withPart s (refuseLoad p job.hdr (jobRegion new) f))) ∧
    (st = .ok → imageFail p new = none → regionFail p job.u0 img = none → stateFail p img = none →
      (hdrPartial img = false → ∃ t : State, exec .loadCheck s = .next t ∧ t.part.tk.fab = .loaded ∧
        t.part.tk.halt = none ∧ t.part.sp.bus = [] ∧ t.part.sp.tr = [] ∧ t.part.loader.jobs = p.loader.jobs ∧
        t.part.loader.writing = some ⟨new, imageInfo img, imageWords img, (placement p (hdrC img)).getD []⟩ ∧
        t.part.sp.imem = p.sp.imem ∧ t.part.sp.dmem = p.sp.dmem ∧
        t.part.regions = p.regions ∧ t.part.blank = p.blank ∧ t.pending = s.pending) ∧
      (hdrPartial img = true → running p = false → hdrRegion img < p.regions.length →
        ∃ t : State, exec .loadCheck s = .next t ∧
          t.part.tk.fab = (if p.tk.fab = .admitted then .loaded else p.tk.fab) ∧
          (regionAt t.part (hdrRegion img)).state = .loading ∧
          (regionAt t.part (hdrRegion img)).coming = some (imageInfo img) ∧
          (regionAt t.part (hdrRegion img)).imgs = imageWords img ∧
          (∀ j, j ≠ hdrRegion img → regionAt t.part j = regionAt p j) ∧
          t = withPart s { p with tk := t.part.tk, regions := t.part.regions }))) ∧
  (∀ s : State, awake s → loaderWriting s.part = true ∨ unitTesting s.part 1 = true ∨ s.part.loader.jobs = [] →
    exec .loadCheck s = .next s) ∧
  (∀ (s : State) (w : Writing), awake s → s.part.loader.writing = some w →
    ∃ t : State, exec .loadWriteEnd s = .next t ∧
      (∀ k, dword t.part k = match w.imgs.dmem.reverse.find? (fun e => e.1 == k) with
        | some e => cleanWord e.2 | none => EccWord.zero) ∧
      (∀ k, iword t.part k = match w.imgs.imem.reverse.find? (fun e => e.1 == k) with
        | some e => cleanWord e.2 | none => EccWord.zero) ∧
      (∀ k, tword t.part k = match w.imgs.table.reverse.find? (fun e => e.1 == k) with
        | some e => cleanWord e.2 | none => EccWord.zero) ∧
      t.part.sp.pend = [] ∧ t.part.blank = some w.info ∧ t.part.cols = w.cols ∧
      (∀ k, (regionAt t.part k).state = if k < 8 ∧ k < w.info.regions.length then .live else .empty) ∧
      t.part.loader.writing = none ∧ t.part.loader.jobs = s.part.loader.jobs ∧ t.part.tk = s.part.tk ∧
      (∀ h, w.job.hdr = some h → (∃ e ∈ s.part.host.inflight, e.hdr = h ∧ e.begun = true) →
        t.part.host.inflight = dropInflight h s.part.host.inflight))

/-- ENTER_LOADING outside a halt and with none about to take effect: every region that waits for the boundary is
LOADING, no region changes otherwise. ENTER_HELD of a region that is LOADING while the fabric is RUNNING and no halt
is in effect: the data and instruction memories of its columns hold the partial blank's images and zero elsewhere,
those of other columns are as before, and the region is HELD with the release tick max(tick + CFG_REL_LEAD, u0), and
where the load came from the configuration port it has ended and CFG_DONE is released; while the fabric is not RUNNING
it is LIVE at once. REGION_RELEASE, where one HELD region has reached its release tick in a tick that executes: that
region becomes LIVE. A region that becomes LIVE so has its bus slots and TR zero, its new slot tables in force and its
declarations replaced; no other region, and no other column's bus slot or TR, changes. -/
def Obligations.RegionsLoadHoldAndRelease : Prop :=
  (∀ s : State, awake s → s.part.tk.fab ≠ .halted → partHalted s.part = false →
    s.part.tk.haltDue = none → ∃ t : State, exec .enterLoading s = .next t ∧
      (∀ k, (regionAt s.part k).waits = true →
        regionAt t.part k = { regionAt s.part k with state := .loading, waits := false }) ∧
      (∀ k, (regionAt s.part k).waits = false → regionAt t.part k = regionAt s.part k) ∧
      t.part.gr.status.s2 = regionBits t.part ∧
      t = withPart s { s.part with regions := t.part.regions, gr := { s.part.gr with status := t.part.gr.status } }) ∧
  (∀ (s : State) (k : Fin 8) (q : BlankInfo), awake s → (regionAt s.part k.val).coming = some q →
    (regionAt s.part k.val).state = .loading → s.part.tk.fab ≠ .halted → partHalted s.part = false →
    k.val < s.part.regions.length →
    (s.part.tk.fab = .running → ∃ t : State, exec (.enterHeld k) s = .next t ∧
      regionAt t.part k.val = { regionAt s.part k.val with
        state := .held
        release := some (max (s.part.tk.tick + fld s.part CFG_REL_LEAD) (regionAt s.part k.val).u0) } ∧
      ((regionAt s.part k.val).cmd = none → t.part.loader.doneLow = false) ∧
      (canon s.part → (∀ e ∈ (regionAt s.part k.val).imgs.dmem, inBlankCols q (e.1 / 524288) = true) →
        ∀ a, dword t.part a = if inBlankCols q (a / 524288)
          then (match (regionAt s.part k.val).imgs.dmem.reverse.find? (fun e => e.1 == a) with
            | some e => cleanWord e.2 | none => EccWord.zero)
          else dword s.part a) ∧
      (canon s.part → (∀ e ∈ (regionAt s.part k.val).imgs.imem, inBlankCols q (e.1 / 1048576) = true) →
        ∀ a, iword t.part a = if inBlankCols q (a / 1048576)
          then (match (regionAt s.part k.val).imgs.imem.reverse.find? (fun e => e.1 == a) with
            | some e => cleanWord e.2 | none => EccWord.zero)
          else iword s.part a)) ∧
    (s.part.tk.fab ≠ .running → ∃ t : State, exec (.enterHeld k) s = .next t ∧
      (regionAt t.part k.val).state = .live ∧ (regionAt t.part k.val).relTick = none)) ∧
  (∀ (s : State) (k u : Nat) (q : BlankInfo), awake s → executing s.part = true → k < 8 →
    k < s.part.regions.length → (regionAt s.part k).coming = some q → (regionAt s.part k).state = .held →
    (regionAt s.part k).release = some u → u ≤ s.part.tk.tick →
    (∀ j v, j ≠ k → (regionAt s.part j).state = .held → (regionAt s.part j).release = some v → s.part.tk.tick < v) →
    exec .regionRelease s = .next (withPart s (becomeLive s.part k (some s.part.tk.tick)))) ∧
  (∀ (p : Part) (k : Nat) (u : Option Nat) (q : BlankInfo) (b : BlankInfo), (regionAt p k).coming = some q →
    k < p.regions.length → p.blank = some b →
    (regionAt (becomeLive p k u) k).state = .live ∧ (regionAt (becomeLive p k u) k).relTick = u ∧
    (regionAt (becomeLive p k u) k).coming = none ∧
    (∀ j, j ≠ k → regionAt (becomeLive p k u) j = regionAt p j) ∧
    (∀ a, smapGet (fun _ => (⟨0, 0, 0⟩ : BusSlot)) (becomeLive p k u).sp.bus a =
      if inBlankCols q (a / 2048) then ⟨0, 0, 0⟩ else smapGet (fun _ => (⟨0, 0, 0⟩ : BusSlot)) p.sp.bus a) ∧
    (∀ a, smapGet (fun _ => (⟨0, []⟩ : TrState)) (becomeLive p k u).sp.tr a =
      if inBlankCols q (a / 2048) then ⟨0, []⟩ else smapGet (fun _ => (⟨0, []⟩ : TrState)) p.sp.tr a) ∧
    (∀ a, inBlankCols q (a / 262144) = false → (∀ e ∈ (regionAt p k).imgs.slots, e.1 ≠ a) →
      smapGet (fun _ => SlotEntry.none) (becomeLive p k u).gr.slots a = smapGet (fun _ => SlotEntry.none) p.gr.slots a) ∧
    (becomeLive p k u).blank = some { b with
      decl := declAfter p q
      runs := b.runs.filter (fun r => !inBlankCols q (r.1 / 32)) ++ q.runs })

/-- For a part that is selected with its port enabled; a segment's fields are read from its beats. A segment that is
not good (SYNC, a field or the CRC) is NACKed with cause CRC, and a good one that comes while the loader is busy with
cause BUSY, unless the part acts on nothing before a START; then all but a good START change nothing but CFG_NACK_N. A
good segment of another KIND than the row's is not that row's. A good START that matches begins a stream of its length
with no bytes, expecting SEQ 1, with CFG_DONE low, and one that does not match leaves no stream. Of a stream: a SEQ
below the expected one is counted as a repeat and nothing else happens; one above it is NACKed as a gap; a matching
DATA inside the START length and 1 GiB writes its payload at its offset in the load area of sealed memory and the next
SEQ is expected; one past the START length is not stored and is remembered; a DATA for others only moves the expected
SEQ; END hands the image, with zero where nothing was written, in the load area too, to the checks; ABORT ends the
stream with event 215. Any other kind without a stream changes nothing but CFG_NACK_N. CFG_SEL_N high ends the stream,
drops staged images of the port, releases both pins, and the part acts on nothing before a START; low selects the
part. That a field out of range counts as a CRC error, that a segment of another KIND does nothing in the row, when
CFG_DONE goes low, and when payloads and gaps are written are the model's choice (log 34). -/
def Obligations.ConfigurationSegments : Prop :=
  (∀ (s : State) (beats : List (BitVec 16)) (seg : SegHead) (q : Part) (rows : List (Nat × Instr)), awake s →
    portActs s.part = true → seg = readSegment beats →
    rows = [(1, .startSegment beats), (2, .dataSegment beats), (3, .endSegment beats), (4, .abortSegment beats)] →
    q = { s.part with loader := { s.part.loader with nackLow := false } } →
    (s.part.loader.awaits = true → seg.good = false ∨ seg.kind ≠ 1 → ∀ r ∈ rows, exec r.2 s = .next (withPart s q)) ∧
    (s.part.loader.awaits = false → seg.good = false → ∀ r ∈ rows,
      exec r.2 s = .next (withPart s (nackSegment q 0)) ∧ (nackSegment q 0).loader.nackLow = true ∧
      (canon s.part → fld (nackSegment q 0) CFG_CAUSE_CRC = 1)) ∧
    (seg.good = true → ∀ r ∈ rows, seg.kind ≠ r.1 → exec r.2 s = .next (withPart s q)) ∧
    (s.part.loader.awaits = false → seg.good = true → portBusy s.part = true → ∀ r ∈ rows, seg.kind = r.1 →
      exec r.2 s = .next (withPart s (nackSegment q 2)) ∧ (nackSegment q 2).loader.nackLow = true ∧
      (canon s.part → fld (nackSegment q 2) CFG_CAUSE_BUSY = 1)) ∧
    (seg.good = true → s.part.loader.stream = none → portBusy s.part = false → ∀ r ∈ rows, r.1 ≠ 1 →
      exec r.2 s = .next (withPart s q)) ∧
    (seg.good = true → seg.kind = 1 → portBusy s.part = false →
      ∃ t : State, exec (.startSegment beats) s = .next t ∧ t.part.loader.nackLow = false ∧
        (segMatches s.part seg = true → t.part.loader.stream = some ⟨leNat seg.payload, [], false⟩ ∧
          t.part.loader.doneLow = true ∧
          (canon s.part → fld t.part CFG_SEQ_EXPECT = 1 ∧ fld t.part CFG_STREAM_ID = seg.id % 65536)) ∧
        (segMatches s.part seg = false → t.part.loader.stream = none ∧ t.part.loader.doneLow = false) ∧
        t.part.loader.jobs = s.part.loader.jobs ∧ t.part.loader.awaits = false)) ∧
  (∀ (s : State) (beats : List (BitVec 16)) (seg : SegHead) (q : Part) (st : CfgStream) (rows : List (Nat × Instr)),
    awake s → portActs s.part = true → s.part.loader.awaits = false → seg = readSegment beats → seg.good = true →
    portBusy s.part = false → s.part.loader.stream = some st →
    rows = [(2, .dataSegment beats), (3, .endSegment beats), (4, .abortSegment beats)] →
    q = { s.part with loader := { s.part.loader with nackLow := false } } →
    (seg.seq < fld s.part CFG_SEQ_EXPECT → ∀ r ∈ rows, seg.kind = r.1 →
      exec r.2 s = .next (withPart s (bumpFld q CFG_REPEATS 1))) ∧
    (fld s.part CFG_SEQ_EXPECT < seg.seq → ∀ r ∈ rows, seg.kind = r.1 → ∃ t : State, exec r.2 s = .next t ∧
      t = withPart s (nackSegment { q with loader := { q.loader with gap := true } } 1) ∧
      t.part.loader.nackLow = true ∧ t.part.loader.stream = some st ∧ (canon s.part → fld t.part CFG_CAUSE_GAP = 1)) ∧
    (seg.seq = fld s.part CFG_SEQ_EXPECT → seg.kind = 2 →
      (segMatches s.part seg = true → seg.off + seg.payload.length ≤ st.len → seg.off + seg.payload.length ≤ 2 ^ 30 →
        ∀ r : Part, r = (stageAt q seg.off seg.payload).1 → ∃ t : State, exec (.dataSegment beats) s = .next t ∧
          t.part = { expectSeq r (seg.seq + 1) with loader := { (expectSeq r (seg.seq + 1)).loader with
            stream := some ⟨st.len,
              smapSetMany (fun _ => 0) st.bytes (seg.payload.zipIdx.map (fun e => (seg.off + e.2, e.1))), st.overLen⟩ } } ∧
          t.part.sm = r.sm ∧ t.pending = s.pending ∧
          (canon r → fld t.part CFG_SEQ_EXPECT = (seg.seq + 1) % 2 ^ 32 ∧ fld t.part CFG_RETRY_SEG = 0)) ∧
      (segMatches s.part seg = true → st.len < seg.off + seg.payload.length →
        ∃ t : State, exec (.dataSegment beats) s = .next t ∧
          t.part.loader.stream = some ⟨st.len, st.bytes, true⟩) ∧
      (segMatches s.part seg = false → ∃ t : State, exec (.dataSegment beats) s = .next t ∧
        t.part.loader.stream = some st ∧ (canon s.part → fld t.part CFG_SEQ_EXPECT = (seg.seq + 1) % 2 ^ 32))) ∧
    (seg.seq = fld s.part CFG_SEQ_EXPECT → seg.kind = 3 → ∀ g : Part,
      g = (streamGaps (min st.len (2 ^ 30)) 0 st.bytes).foldl (fun p e => (stageAt p e.1 (List.replicate e.2 0)).1) q →
      exec (.endSegment beats) s = .next (withPart s { g with loader := { g.loader with
        stream := none
        jobs := g.loader.jobs ++
          [⟨none, false, 0, fitBytes (min st.len (2 ^ 30)) (streamBytes 0 st.bytes), st.overLen⟩] } })) ∧
    (seg.seq = fld s.part CFG_SEQ_EXPECT → seg.kind = 4 →
      ∃ t : State, exec (.abortSegment beats) s = .next t ∧ t.part.loader.stream = none ∧
        t.part.loader.doneLow = false ∧ t.part.host.events =
          (raise q 215 [(2, fld q CFG_STREAM_ID), (1, 1)]).host.events)) ∧
  (∀ s : State, awake s → s.part.loader.selected = true →
    ∃ t : State, exec .cfgSelNHigh s = .next t ∧ t.part.loader.stream = none ∧ t.part.loader.nackLow = false ∧
      t.part.loader.doneLow = false ∧ t.part.loader.selected = false ∧ t.part.loader.awaits = true ∧
      t.part.loader.jobs = s.part.loader.jobs.filter (fun j => j.hdr.isSome) ∧
      (s.part.loader.stream ≠ none ∨ (∃ j ∈ s.part.loader.jobs, j.hdr = none) →
        t.part.host.events = (raise s.part 215 [(2, fld s.part CFG_STREAM_ID), (1, 2)]).host.events)) ∧
  (∀ s : State, awake s → exec .cfgSelNLow s =
    .next (withPart s { s.part with loader := { s.part.loader with selected := true } }))

/-- ADMIT in LOADED, ADMITTED, STOPPED or RUNNING with no blank being written: admission runs and is reported in
FAB_ADM_RESULT and FAB_ADM_DETAIL; passing, the command completes with OK and LOADED becomes ADMITTED; failing, it
completes with ERR_ADMIT and the fabric state stays. START in LOADED, ADMITTED or STOPPED, none pending: admission
failing, it completes with ERR_ADMIT, and ADMITTED becomes LOADED; passing, a u0 of 0 or within 2^24 ticks from the
tick plus FAB_START_LEAD on leaves START pending for the later of that tick and u0, with FAB_LOCKED set and the fabric
state, the spindles and the grain as admission left them; another u0 completes with ERR_PARAM, with nothing locked and
nothing pending. In any other fabric state, with a START pending or while a blank is being written, it completes with
ERR_STATE and changes nothing else. STOP while RUNNING sets the last tick (that of its pickup, or u1, and, the model's
choice of log 27, no earlier than the present one), and the earlier of two; a u1 before its pickup completes with
ERR_PARAM; while a START is pending it cancels it, the START ending with ERR_ABORTED and the STOP with OK; otherwise
it completes with ERR_STATE. -/
def Obligations.AdmitStartAndStop : Prop :=
  (∀ (s : State) (h : Hdr) (q : Part) (r : AdmResult), awake s → commandRuns s.part h 0x04 →
    s.part.tk.fab ∈ [FabState.loaded, .admitted, .stopped, .running] → s.part.loader.writing = none →
    runAdmission (begun s.part h 0x04) = (q, r) →
    (r = none → exec (.admitFabric h) s = .next (withPart s (complete
      { q with tk := { q.tk with fab := if q.tk.fab = .loaded then .admitted else q.tk.fab } } h .ok 0 0))) ∧
    (∀ c d, r = some (c, d) → exec (.admitFabric h) s =
      .next (withPart s (complete q h .errAdmit (5 + c * 256) d)))) ∧
  (∀ (p q : Part) (b : BlankInfo) (r : AdmResult), canon p → p.blank = some b → runAdmission p = (q, r) →
    fld q FAB_ADM_DONE = 1 ∧ (r = none → fld q FAB_ADM_CODE = 0 ∧ fld q FAB_ADM_INFO = 0) ∧
    (∀ c d, r = some (c, d) → fld q FAB_ADM_CODE = c % 2 ^ 8 ∧ fld q FAB_ADM_INFO = d % 2 ^ 32) ∧
    q.tk.fab = p.tk.fab ∧ q.blank = p.blank ∧ q.sp = p.sp ∧ q.gr = p.gr) ∧
  (∀ (s : State) (h : Hdr) (u0 : Nat) (q : Part) (r : AdmResult), awake s → commandRuns s.part h 0x05 →
    s.part.tk.fab ∈ [FabState.loaded, .admitted, .stopped] → s.part.loader.writing = none →
    s.part.tk.start = none → u0 = h.par 0x08 8 → runAdmission (begun s.part h 0x05) = (q, r) →
    (∀ c d, r = some (c, d) → ∃ t : State, exec (.start h) s = .next t ∧
      t = withPart s (complete { q with tk := { q.tk with
        fab := if q.tk.fab = .admitted then .loaded else q.tk.fab } } h .errAdmit (5 + c * 256) d)) ∧
    (r = none → ∀ first, first = q.tk.tick + fld q FAB_LEAD →
      (u0 = 0 ∨ (first ≤ u0 ∧ u0 ≤ first + 2 ^ 24) →
        ∃ t : State, exec (.start h) s = .next t ∧ t.part.tk.start = some (h, max first u0) ∧
          t.part.tk.fab = s.part.tk.fab ∧ (canon q → fld t.part FAB_LOCKED = 1) ∧
          t.part.host.inflight = q.host.inflight ∧ t.part.sp = q.sp ∧ t.part.gr = q.gr) ∧
      (u0 ≠ 0 → u0 < first ∨ first + 2 ^ 24 < u0 →
        exec (.start h) s = .next (withPart s (complete q h .errParam 0 0))))) ∧
  (∀ (s : State) (h : Hdr), awake s → commandRuns s.part h 0x05 →
    s.part.tk.fab ∈ [FabState.off, .running, .halted] ∨ s.part.tk.start ≠ none ∨ s.part.loader.writing ≠ none →
    exec (.start h) s = .next (withPart s (complete (begun s.part h 0x05) h .errState 0 0))) ∧
  (∀ (s : State) (h : Hdr) (u1 v : Nat), awake s → commandRuns s.part h 0x06 → u1 = h.par 0x08 8 →
    v = pickupTick (begun s.part h 0x06) h →
    (s.part.tk.fab = .running → u1 = 0 ∨ v ≤ u1 → ∀ last, last = max s.part.tk.tick (if u1 = 0 then v else u1) →
      exec (.stop h) s = .next (withPart s { begun s.part h 0x06 with tk := { s.part.tk with
        stopAt := some (match s.part.tk.stopAt with
          | some w => min w last
          | none => last)
        stopCmds := s.part.tk.stopCmds ++ [h] } })) ∧
    (s.part.tk.fab = .running → u1 ≠ 0 → u1 < v →
      exec (.stop h) s = .next (withPart s (complete (begun s.part h 0x06) h .errParam 0 0))) ∧
    (∀ g u, s.part.tk.fab ≠ .running → s.part.tk.start = some (g, u) →
      exec (.stop h) s = .next (withPart s (complete (complete
        { begun s.part h 0x06 with tk := { s.part.tk with start := none } } g .errAborted 0 0) h .ok 0 0))) ∧
    (s.part.tk.fab ≠ .running → s.part.tk.start = none →
      exec (.stop h) s = .next (withPart s (complete (begun s.part h 0x06) h .errState 0 0))))

/-- TICK_BOUNDARY while the time counter runs and T is at least 12 ns: the tick counter reads the next tick (0 at the
epoch), staging slots are empty, no word of the ended tick stays in the grain, and S0 is the tick. Where the fabric
executed the ended tick, its staging is taken up (words for the lanes, history, probes, the accept, user events,
status outputs), the lanes present their frames, and last the memories are patrolled and corrections written back.
What these do: an accept word with VALID is refused with cause 5, 1 or 2, or enters the queue clamped, and at a part
halt is only counted; bit k of the user-event word raises source 216 + k; a status output shows the word staged, and
VETO_OUT and BUSY_OUT follow output 0 where enabled; a receive window holds its lane's one good frame, and zeros where
lane-valid is 0; the patrol corrects four words and entries of a spindle and moves on; up to three queued words of
each memory are corrected, and a word that the blank writes leaves its queue. ENTER_RUNNING at or after the pending
START's tick, no halt due: RUNNING, none pending, and (no earlier tick being left for capture or history) the START
has ended; bus slots and TR are kept from STOPPED, else zero. ENTER_STOPPED after the last tick of a STOP: STOPPED, no
TABLE_WRITE held, no STOP waiting. A HALT picked up raises CATCH_SW with its TAG; its row waits while a halt is
pending that is not yet in effect, gives ERR_STATE in OFF unless CATCH_SW asks for a part halt, otherwise OK, in a
fabric halt at once (the model's choice, log 38). HALT_N raises CATCH_PIN and asks for its policy's halt.
HALT_TAKES_EFFECT: HALTED (OFF stays OFF), no START, STOP or TABLE_WRITE left, SVN_HALT shows kind and class; the HALT
commands end, unless they ask for a part halt and this is a fabric halt; a part halt in READY, OPERATING or STANDBY
makes the part HALTED. -/
def Obligations.TicksRunsAndHalts : Prop :=
  (∀ (s : State) (phase : Int) (balls : List BallWave), awake s → s.part.tim.run = true →
    12 * 2 ^ 32 ≤ tickT s.part →
    ∃ t : State, exec (.tickBoundary phase balls) s = .next t ∧
      t.part.tk.tick = (if s.part.tk.reached then s.part.tk.tick + 1 else 0) ∧ t.part.tk.reached = true ∧
      t.part.gr.hist = [] ∧ t.part.gr.probe = [] ∧ t.part.gr.txStage = [] ∧ t.part.gr.stat = [] ∧
      t.part.gr.accept = Staged.none ∧ t.part.gr.uevt = Staged.none ∧ t.part.gr.inject = [] ∧
      t.part.gr.arrive = [] ∧ t.part.sp.suppressed = [] ∧
      t.part.gr.status.s0 = BitVec.ofNat 64 t.part.tk.tick ∧
      (s.part.tk.reached = true → executing s.part = true →
        smapWf (fun _ => Staged.none) s.part.gr.txStage = true →
        ∀ k, smapGet (fun _ => 0) t.part.gr.txCommit k = (smapGet (fun _ => Staged.none) s.part.gr.txStage k).val)) ∧
  (∀ (s : State) (phase : Int) (balls : List BallWave) (a b c : Part) (n : Nat), awake s → s.part.tim.run = true →
    12 * 2 ^ 32 ≤ tickT s.part → s.part.tk.reached = true → executing s.part = true → n = s.part.tk.tick + 1 →
    a = takeDelays (advanceTo (decideDue s.part.cap.ticks.length s.part (boundaryAt s.part n)) (boundaryAt s.part n)) →
    b = beginTick (crossCells a (boundaryAt a s.part.tk.tick) (boundaryAt s.part n) balls) n true →
    c = latchStatus (presentLanes (settleTick (clearStaging (takeUp b s.part.tk.tick
      (match b.tk.haltDue with | some r => r.part | none => false))))) n →
    ∀ d, d = tickOut (measurePhase c phase n) n → ∀ e, e = historyBefore d.his.handed.length d n →
      exec (.tickBoundary phase balls) s = .next (withPart s (if executing e then boundaryWindow e else e))) ∧
  (∀ (p : Part) (t : Nat) (ph : Bool) (h : List (Nat × List Word)), h = (if histH p = 0 then [] else [(t, historyWords p)]) →
    takeUp p t ph = changeShavings (statUp (userEvents (acceptUp { p with
      gr := { p.gr with txCommit := smapSetMany (fun _ => 0) [] (p.gr.txStage.map (fun e => (e.1, e.2.val))) }
      his := { p.his with handed := p.his.handed ++ h }
      cap := { p.cap with ticks := p.cap.ticks ++ [⟨t, probeWords p, 0, false, false⟩] } } t ph) t p.gr.uevt.val)) t
      (smapSetMany (fun _ => 0) [] (p.gr.hist.map (fun e => (e.1, e.2.val))))) ∧
  (∀ (p : Part) (t : Nat) (w : Word), p.gr.accept.val = w →
    (w.getLsbD 63 = false → ∀ ph, acceptUp p t ph = p) ∧
    (w.getLsbD 63 = true →
      acceptUp p t true = bumpFld p HIS_REF_BLANK 1 ∧
      (natBits w.toNat 43 5 ≠ 0 ∨ natBits w.toNat 56 7 ≠ 0 → acceptUp p t false = refuseAccept p 5 t) ∧
      (natBits w.toNat 43 5 = 0 → natBits w.toNat 56 7 = 0 →
        ((declOf p).acceptRateMax ≤ (recentTakes p p.his.takesBlank).length → acceptUp p t false = refuseAccept p 1 t) ∧
        ((recentTakes p p.his.takesBlank).length < (declOf p).acceptRateMax →
          (acceptFree p = 0 → acceptUp p t false = refuseAccept p 2 t) ∧
          (acceptFree p ≠ 0 → ∃ x : Bool, (acceptUp p t false).his.accepts = p.his.accepts ++
            [⟨p.his.nextAccept, (t : Int) - natBits w.toNat 0 16, min (natBits w.toNat 16 12) (declOf p).winBeforeMax,
              min (natBits w.toNat 28 12) (declOf p).winAfterMax, natBits w.toNat 40 3, natBits w.toNat 48 8, 0, x,
              false, false⟩]))))) ∧
  (∀ (p : Part) (t : Nat) (w : Word), userEvents p t w =
    ((List.range 40).filter (fun k => w.getLsbD k)).foldl (fun p k => raise p (216 + k) [(8, t), (8, w.toNat)]) p) ∧
  (∀ (p : Part) (j : Nat), canon p → smapWf (fun _ => Staged.none) p.gr.stat = true → (∀ e ∈ p.gr.stat, e.1 < 8) → j < 8 →
    fld64I (statUp p) FAB_STAT_OUT_L FAB_STAT_OUT_H j = match smapGet (fun _ => Staged.none) p.gr.stat j with
      | ⟨0, 0, 0⟩ => fld64I p FAB_STAT_OUT_L FAB_STAT_OUT_H j
      | x => x.val.toNat) ∧
  (∀ p : Part, p.tk.halt = none → executing p = true → p.gr.status.acceptReady = true →
    (vetoOut p = true ↔ fld p FAB_VETO_STAT_EN = 1 ∧ (fldI p FAB_STAT_OUT_L 0).testBit 0 = true) ∧
    (busyOut p = true ↔ fld p FAB_BUSY_STAT_EN = 1 ∧ (fldI p FAB_STAT_OUT_L 0).testBit 1 = true)) ∧
  (∀ (p q : Part) (n k : Nat) (f : RxFrame), canon p → (∀ m g, (rxLane p m).frame = some g → g.words.length ≤ 128) →
    n < 128 → k < 128 → q = presentLanes p →
    ((rxLane p n).st = .active → (rxLane p n).frames = 1 → 17 ≤ (rxLane p n).run → (rxLane p n).frame = some f →
      f.good = true → f.pv = true → f.halt = false →
      (rxLane q n).valid = true ∧ smapGet (fun _ => 0) q.gr.rxVisible (n * 128 + k) = f.words.getD k 0) ∧
    ((rxLane q n).valid = false → smapGet (fun _ => 0) q.gr.rxVisible (n * 128 + k) = 0)) ∧
  (∀ (p : Part) (k x : Nat), canon p →
    (x = (k % 256 + 256 - patrolAt p p.sp.dPatrol (k / 524288) % 256) % 256 →
      dword (patrolTick p) k = if patrolled p (k / 524288) = true ∧ x < 4 then fixWord (dword p k) else dword p k) ∧
    (x = (k % 512 + 512 - patrolAt p p.sp.iPatrol (k / 1048576) % 512) % 512 →
      iword (patrolTick p) k = if patrolled p (k / 1048576) = true ∧ x < 4 then fixWord (iword p k) else iword p k) ∧
    (k < 8 → smapWf (fun _ => (0 : Nat)) p.sp.dPatrol = true → liveInWindow p (regionAt p k) = true →
      smapGet (fun _ => 0) (patrolTick p).sp.dPatrol k = (smapGet (fun _ => 0) p.sp.dPatrol k + 4) % 256)) ∧
  (∀ (p : Part) (e : Nat × EccWord) (due : List Nat) (b : Nat), b = e.1 / 16384 → e.2.flips ≠ 0 → e.1 ∉ due →
    patrolled p (b / 32) = true → patrolAt p p.sp.tPatrol (b / 32) = e.1 % 16384 →
    (∀ x, eccKind e.2 = .corrected x → patrolTable due p e = countCeT (setTword p e.1 (fixWord e.2)) b) ∧
    (eccKind e.2 = .double → patrolTable due p e = raiseCatch p .table (.table (b / 32) (b % 32)) 4 18 (e.1 % 16384))) ∧
  (∀ (p : Part) (i : Nat), canon p → smapWf (fun _ => ([] : List Nat)) p.sp.dQueue = true →
    smapWf (fun _ => ([] : List Nat)) p.sp.iQueue = true → (∀ e ∈ p.sp.dQueue, ∀ x ∈ e.2, x < 256) →
    (∀ e ∈ p.sp.iQueue, ∀ x ∈ e.2, x < 512) → patrolled p (i / 2048) = true →
    smapGet (fun _ => []) (boundaryWindow p).sp.dQueue i = (smapGet (fun _ => []) p.sp.dQueue i).drop 3 ∧
    smapGet (fun _ => []) (boundaryWindow p).sp.iQueue i = (smapGet (fun _ => []) p.sp.iQueue i).drop 3 ∧
    (∀ x ∈ (smapGet (fun _ => []) p.sp.dQueue i).take 3,
      dword (boundaryWindow p) (i * 256 + x) = fixWord (dword (patrolTick p) (i * 256 + x))) ∧
    (∀ x ∈ (smapGet (fun _ => []) p.sp.iQueue i).take 3,
      iword (boundaryWindow p) (i * 512 + x) = fixWord (iword (patrolTick p) (i * 512 + x)))) ∧
  (∀ (p : Part) (i : Nat) (w : PendWrite), canon p → smapWf (fun _ => ([] : List Nat)) p.sp.dQueue = true →
    smapGet (fun _ => (⟨0, 0, 0⟩ : PendWrite)) p.sp.pend i = w → w.step ≠ 0 →
    dword (commitPend p i) (i * 256 + w.addr) = cleanWord w.val ∧
    smapGet (fun _ => []) (commitPend p i).sp.dQueue i =
      (smapGet (fun _ => []) p.sp.dQueue i).filter (fun x => x != w.addr)) ∧
  (∀ (s : State) (h : Hdr) (u : Nat), awake s → s.part.tk.start = some (h, u) → s.part.tk.reached = true →
    u ≤ s.part.tk.tick → s.part.tk.haltDue = none →
    ∃ t : State, exec .enterRunning s = .next t ∧ t.part.tk.fab = .running ∧ t.part.tk.start = none ∧
      t.part.tk.stopAt = none ∧
      (s.part.cap.ticks = [] → s.part.his.handed = [] → t.part.host.inflight = dropInflight h s.part.host.inflight) ∧
      (s.part.tk.fab ≠ .stopped → t.part.sp.bus = [] ∧ t.part.sp.tr = []) ∧
      (s.part.tk.fab = .stopped → t.part.sp.bus = s.part.sp.bus ∧ t.part.sp.tr = s.part.sp.tr) ∧
      t.part.tk.tick = s.part.tk.tick) ∧
  (∀ (s : State) (w : Nat), awake s → s.part.tk.stopAt = some w → s.part.tk.fab = .running → w < s.part.tk.tick →
    s.part.tk.haltDue = none → s.part.boot.d3Stopping = false →
    ∃ t : State, exec .enterStopped s = .next t ∧ t.part.tk.fab = .stopped ∧ t.part.tk.stopAt = none ∧
      t.part.tk.stopCmds = [] ∧ t.part.gr.held = [] ∧ t.part.tk.tick = s.part.tk.tick) ∧
  (∀ (p : Part) (h : Hdr), h.op = 0x07 → h.rsv = false → p.tk.catchLog = [] →
    ∃ r : CatchRec, (recogniseHalt p h).tk.catchLog = [r] ∧ r.cls = .sw ∧ r.place = .block 16 ∧
      r.detail = h.tag.toNat ∧ r.tick = p.tk.tick) ∧
  (∀ (s : State) (h : Hdr) (e : Inflight), awake s → mayBegin h 0x07 s.part.host.inflight = true → h.rsv = false →
    s.part.host.inflight.find? (fun e => e.hdr == h && !e.begun) = some e → e.found.late = false →
    (swPartHalt s.part = false → s.part.tk.fab = .off →
      exec (.halt h) s = .next (withPart s (complete (begun s.part h 0x07) h .errState 0 0))) ∧
    (swPartHalt s.part = true ∨ s.part.tk.fab ≠ .off →
      (s.part.tk.haltReq ≠ none ∨ s.part.tk.haltDue ≠ none →
        (swPartHalt s.part = true ∧ partHalted s.part = false) ∨ s.part.tk.halt = none →
        exec (.halt h) s = .next (withPart s { begun s.part h 0x07 with
          tk := { s.part.tk with haltCmds := s.part.tk.haltCmds ++ [h] } })) ∧
      ((s.part.tk.haltReq = none ∧ s.part.tk.haltDue = none) ∨ partHalted s.part = true ∨
          (swPartHalt s.part = false ∧ s.part.tk.halt ≠ none) →
        exec (.halt h) s = .next (withPart s (complete (begun s.part h 0x07) h .ok 0 0))))) ∧
  (∀ s : State, awake s → s.part.tk.catchLog = [] → ∃ t : State, exec .haltN s = .next t ∧
    (∃ r : CatchRec, t.part.tk.catchLog = [r] ∧ r.cls = .pin ∧ r.place = .block 6 ∧ r.tick = s.part.tk.tick) ∧
    (fld s.part FAB_POL_PIN = 0 → partHalted s.part = false → s.part.tk.haltReq = none →
      t.part.tk.haltReq = some ⟨true, .pin⟩) ∧
    (fld s.part FAB_POL_PIN = 1 → s.part.tk.halt = none → s.part.tk.fab ≠ .off → s.part.tk.haltReq = none →
      t.part.tk.haltReq = some ⟨false, .pin⟩) ∧
    t.part.sp = s.part.sp ∧ t.part.gr = s.part.gr ∧ t.part.tk.fab = s.part.tk.fab) ∧
  (∀ (s : State) (r : HaltReq), awake s → haltNow s.part = some r → s.part.boot.d3Stopping = false →
    ∃ t : State, exec .haltTakesEffect s = .next t ∧ t.part.tk.halt = some r ∧
      t.part.tk.fab = (if s.part.tk.fab = .off then .off else .halted) ∧ t.part.tk.start = none ∧
      t.part.tk.stopAt = none ∧ t.part.tk.stopCmds = [] ∧ t.part.tk.haltDue = none ∧
      t.part.tk.haltCmds = (if r.part = false ∧ swPartHalt s.part = true then s.part.tk.haltCmds else []) ∧
      t.part.gr.held = [] ∧ t.part.tk.tick = s.part.tk.tick ∧
      (canon s.part → fld t.part SVN_HALT_KIND = (if r.part then 2 else 1) ∧
        fld t.part SVN_HALT_CLASS = catchCode r.cls) ∧
      (r.part = true → s.part.boot.ps ∈ [PartState.ready, .operating, .standby] → t.part.boot.ps = .halted))

/-- GRAIN_SLOT at a blank step that the router has not passed takes its 16 output channels in order. For one channel
outside the held regions with good parity: an empty entry sends nothing; an entry owned by injection sends the word
that the SEND of that step left; an entry fed by an input channel sends the word that arrived there under its tag, at
the same step when it goes straight on and a step earlier when it turns; where no word is there on that input channel,
a zero word under its tag, with CATCH_SLOT for the router. A word sent arrives at the far end of its segment after the
segment's delay. TABLE_WRITE of 1 to 1,024 entries: in LOADED, ADMITTED or STOPPED, with a good list inside a window,
it writes every entry at once, and no other table word changes; while RUNNING, naming LIVE billets, it is held for its
tick; in HALTED it completes with ERR_HALTED, in OFF with ERR_STATE, and with a bad list or u0 with ERR_PARAM.
TABLE_WRITE_APPLY of the first held command, at its tick with its billets LIVE, writes every entry and no other table
word, and GRN_TBL_LAST_TICK holds its tick; with a billet not LIVE no memory changes; in both cases the command is no
longer in flight. -/
def Obligations.RoutersAndTableWrites : Prop :=
  (∀ (s : State) (col row step : Nat), awake s → blankStep s.part step = true → col < blankCv s.part → row < 32 →
    smapGet (fun _ => 0) s.part.gr.routerStep (billetNo col row) < step →
    exec (.grainSlot col row step) s = .next (withPart s ((List.range 16).foldl (routerSlot col row step)
      { s.part with gr := { s.part.gr with
        routerStep := smapSet (fun _ => 0) s.part.gr.routerStep (billetNo col row) step } }))) ∧
  (∀ (p : Part) (col row step ch tag : Nat) (o : SlotOwner), colHeld p col = false →
    slotAt p (billetNo col row) ch step = ⟨o, tag, false⟩ →
    (o = .empty → routerSlot col row step p ch = p) ∧
    (∀ idx w, o = .inject idx →
      smapGet (fun _ => []) p.gr.inject (billetNo col row * 16 + ch) = [(step, Injection.accepted w)] →
      routerSlot col row step p ch = routerSend p col row ch step w) ∧
    (∀ (chIn : Nat) (data : Word), o = .input chIn →
      smapGet (fun _ => []) p.gr.arrive (billetNo col row * 16 + chIn) =
        [(if farChannel ch = chIn then step else step - 1, ⟨tag, data⟩)] →
      routerSlot col row step p ch = routerSend p col row ch step ⟨tag, data⟩) ∧
    (∀ chIn, o = .input chIn → smapGet (fun _ => []) p.gr.arrive (billetNo col row * 16 + chIn) = [] →
      routerSlot col row step p ch =
        routerCatch (routerSend p col row ch step ⟨tag, 0⟩) col row ch step 8 tag)) ∧
  (∀ (p : Part) (col row ch step c' r' d : Nat) (w : GrainWord),
    segment (blankC p) (blankCv p) col row ch = some (c', r', d) →
    smapGet (fun _ => []) (routerSend p col row ch step w).gr.arrive (billetNo c' r' * 16 + farChannel ch) =
      smapGet (fun _ => []) p.gr.arrive (billetNo c' r' * 16 + farChannel ch) ++ [(step + d, w)]) ∧
  (∀ (s : State) (h : Hdr) (list : List Byte) (u0 n : Nat) (es : List (Nat × Nat × Nat × Word)) (q : Part), awake s →
    commandRuns s.part h 0x51 → q = begun s.part h 0x51 → u0 = h.par 0x08 8 → n = h.par 0x18 2 → 0 < n → n ≤ 1024 →
    es = tableEntries n list →
    (s.part.tk.fab = .halted → exec (.tableWrite h list) s = .next (withPart s (complete q h .errHalted 0 0))) ∧
    (s.part.tk.fab = .off → exec (.tableWrite h list) s = .next (withPart s (complete q h .errState 0 0))) ∧
    (s.part.tk.fab ≠ .halted → s.part.tk.fab ≠ .off → inWindow s.part .read (h.par 0x10 8) (16 * n) = true →
      dmaOk s.part = true →
      tableListBad s.part es = true ∨ entriesClean n list = false ∨
        (u0 ≠ 0 ∧ (u0 < s.part.tk.tick + fld s.part GRN_TBL_WRITE_LEAD ∨
          s.part.tk.tick + fld s.part GRN_TBL_WRITE_LEAD + 2 ^ 24 < u0)) →
      exec (.tableWrite h list) s = .next (withPart s (complete q h .errParam 0 0))) ∧
    (inWindow s.part .read (h.par 0x10 8) (16 * n) = true → dmaOk s.part = true → tableListBad s.part es = false →
      entriesClean n list = true →
      u0 = 0 ∨ (s.part.tk.tick + fld s.part GRN_TBL_WRITE_LEAD ≤ u0 ∧
        u0 ≤ s.part.tk.tick + fld s.part GRN_TBL_WRITE_LEAD + 2 ^ 24) →
      (s.part.tk.fab ∈ [FabState.loaded, .admitted, .stopped] →
        ∃ t : State, exec (.tableWrite h list) s = .next t ∧
          (canon s.part → ∀ e ∈ es,
            tword t.part (billetNo e.1 e.2.1 * 16384 + e.2.2.1) = ⟨e.2.2.2, 0⟩) ∧
          (∀ k, (∀ e ∈ es, k ≠ billetNo e.1 e.2.1 * 16384 + e.2.2.1) → tword t.part k = tword s.part k) ∧
          t.part.gr.held = s.part.gr.held) ∧
      (s.part.tk.fab = .running → (∀ e ∈ es, colHeld s.part (billetNo e.1 e.2.1 / 32) = false) →
        ∃ (t : State) (u : Nat), exec (.tableWrite h list) s = .next t ∧
          t.part.gr.held = s.part.gr.held ++
            [⟨h, es.map (fun e => (billetNo e.1 e.2.1, e.2.2.1, e.2.2.2)), u⟩] ∧
          s.part.tk.tick + fld s.part GRN_TBL_WRITE_LEAD ≤ u ∧ u0 ≤ u ∧ (∀ c ∈ s.part.gr.held, c.tick ≤ u) ∧
          (s.part.gr.held = [] → u = max (s.part.tk.tick + fld s.part GRN_TBL_WRITE_LEAD) u0) ∧
          t.part.sp = s.part.sp))) ∧
  (∀ (s : State) (c : TableWriteCmd) (rest : List TableWriteCmd), awake s → s.part.gr.held = c :: rest →
    executing s.part = true → c.tick ≤ s.part.tk.tick →
    ((∀ e ∈ c.entries, colHeld s.part (e.1 / 32) = false) →
      ∃ t : State, exec .tableWriteApply s = .next t ∧ t.part.gr.held = rest ∧
        (canon s.part → c.entries.Pairwise (fun e f => e.1 ≠ f.1) → (∀ e ∈ c.entries, e.2.1 < 16384) →
          ∀ e ∈ c.entries, tword t.part (e.1 * 16384 + e.2.1) = ⟨e.2.2, 0⟩) ∧
        (∀ k, (∀ e ∈ c.entries, k ≠ e.1 * 16384 + e.2.1) → tword t.part k = tword s.part k) ∧
        t.part.host.inflight = dropInflight c.hdr s.part.host.inflight ∧
        (canon s.part → fld t.part GRN_TBL_LAST_TICK_L = c.tick % 2 ^ 32)) ∧
    ((∃ e ∈ c.entries, colHeld s.part (e.1 / 32) = true) →
      ∃ t : State, exec .tableWriteApply s = .next t ∧ t.part.gr.held = rest ∧ t.part.sp = s.part.sp ∧
        t.part.host.inflight = dropInflight c.hdr s.part.host.inflight))

/-- Each row that finds its lane in the state that the lane's table gives for it moves that lane, and changes no other
lane, no fabric or spindle state. Transmit: DETECT to TRAIN with TP1, TP1 to TP2, the end of TP2, TRAIN to ACTIVE at a
boundary with the group framable, and FAIL with cause 13 for the lanes of a group that loses its line clock. Receive:
DETECT to TRAIN at the configured rate, else FAIL with cause 6; TRAIN to LOCK; bit lock; timeouts of TRAIN, LOCK and
EXCHANGE back to DETECT with one more attempt and, the model's choice of log 52, with LNK_RX_CAUSE as before: cause 10
shows in the event of EXCHANGE, 8 and 9 nowhere; the attempts limit to FAIL with cause 12; the losses of an ACTIVE
lane to DETECT with causes 1, 2, 3 and 5, and 4 with the fourth frame in a row whose SYNC fails; the capability
message of a lane in EXCHANGE to ACTIVE, or to FAIL with cause 6 for another rate and 7 for another tick period; a
time message taken, its delay and offset given to the time unit when it answers a message of this part, and its offset
to the servo when it comes on the source lane. -/
def Obligations.LaneStateMachines : Prop :=
  ∀ (s : State) (n : Fin 128) (l : TxLane) (r : RxLane), awake s → canon s.part → l = txLane s.part n.val →
    r = rxLane s.part n.val →
    (l.st = .detect → ∃ t : State, exec (.receiverDetection n) s = .next t ∧
      txBecomes s t n.val { l with st := .train, pat := .tp1 }) ∧
    (l.st = .train → l.pat = .tp1 → ∃ t : State, exec (.tp1TimeEnd n) s = .next t ∧
      txBecomes s t n.val { l with pat := .tp2 }) ∧
    (l.st = .train → l.pat = .tp2 → ∃ t : State, exec (.tp2TimeEnd n) s = .next t ∧
      txBecomes s t n.val { l with pat := .tp2Done }) ∧
    (l.st = .train → l.pat = .tp2Done → s.part.tk.reached = true → txFramable s.part (n.val / 8) = true →
      ∃ t : State, exec (.txEnterActive n) s = .next t ∧
        txBecomes s t n.val { l with st := .active, sentTick := none, halt := false }) ∧
    (∀ g : Fin 16, ∃ t : State, exec (.lineClockPllLoss g) s = .next t ∧ t.part.lanes.rx = s.part.lanes.rx ∧
      ∀ k, txLane t.part k =
        if k / 8 = g.val ∧ (txLane s.part k).st ≠ .down ∧ (txLane s.part k).st ≠ .fail
        then { txLane s.part k with st := .fail, cause := 13, sentTick := none, halt := false }
        else txLane s.part k) ∧
    (∀ rate : Fin 4, r.st = .detect → inStandby s.part = false →
      (fldI s.part LNK_RX_RATE (n.val / 8) = rate.val → ∃ t : State,
        exec (.forwardedClockDetect n rate) s = .next t ∧ rxBecomes s t n.val { r with st := .train }) ∧
      (fldI s.part LNK_RX_RATE (n.val / 8) ≠ rate.val → ∃ t : State,
        exec (.forwardedClockDetect n rate) s = .next t ∧ rxBecomes s t n.val (rxLeave r .fail 6))) ∧
    (r.st = .train → (∃ t : State, exec (.samplingPointCentred n) s = .next t ∧
        rxBecomes s t n.val { r with st := .lock, bitLock := false, lockRun := 0 }) ∧
      ∃ t : State, exec (.trainTimeout n) s = .next t ∧
        rxBecomes s t n.val { rxLeave r .detect 8 with attempts := min (r.attempts + 1) 255 }) ∧
    (r.st = .lock → (∃ t : State, exec (.bitLock n) s = .next t ∧ rxBecomes s t n.val { r with bitLock := true }) ∧
      ∃ t : State, exec (.lockTimeout n) s = .next t ∧
        rxBecomes s t n.val { rxLeave r .detect 9 with attempts := min (r.attempts + 1) 255 }) ∧
    (r.st = .exchange → ∃ t : State, exec (.exchangeTimeout n) s = .next t ∧
      rxBecomes s t n.val { rxLeave r .detect 10 with attempts := min (r.attempts + 1) 255 } ∧
      t.part.host.events = (rxEvent s.part n.val .detect 10).host.events) ∧
    (r.st ∈ [LaneSt.detect, .train, .lock, .exchange] → fld s.part LNK_RETRY_MAX ≠ 0 →
      fld s.part LNK_RETRY_MAX ≤ r.attempts → ∃ t : State, exec (.attemptsLimit n) s = .next t ∧
        rxBecomes s t n.val (rxLeave r .fail 12)) ∧
    (r.st = .active →
      (∃ t : State, exec (.signalLoss n) s = .next t ∧ rxBecomes s t n.val (rxLeave r .detect 1)) ∧
      (∃ t : State, exec (.forwardedClockLoss n) s = .next t ∧ rxBecomes s t n.val (rxLeave r .detect 2)) ∧
      (∃ t : State, exec (.trackingLimit n) s = .next t ∧ rxBecomes s t n.val (rxLeave r .detect 3)) ∧
      (fld s.part LNK_LOSS_FRAMES ≤ r.lost → ∃ t : State, exec (.lossFramesExpiry n) s = .next t ∧
        rxBecomes s t n.val (rxLeave r .detect 5)) ∧
      (∀ bits posOk first slack, rxFramable s.part (n.val / 8) = true → 3 ≤ r.syncFails →
        (decodeFrame (rxF s.part n.val) bits).sync ≠ 0x4E79 →
        ∃ t : State, exec (.receiveFrame n bits posOk first slack) s = .next t ∧
          rxBecomes s t n.val (rxLane t.part n.val) ∧ (rxLane t.part n.val).st = .detect ∧
          (rxLane t.part n.val).cause = 4 ∧ (rxLane t.part n.val).attempts = r.attempts)) ∧
    (∀ m, r.capWait = some m → r.st = .exchange →
      (natBits m 20 2 = fldI s.part LNK_RX_RATE (n.val / 8) → natBits m 64 22 = fld s.part FAB_T_NS →
        natBits m 86 26 = fld s.part FAB_T_FRAC / 64 →
        ∃ t : State, exec (.capabilityMessage n) s = .next t ∧ rxBecomes s t n.val { r with
          st := .active, capWait := none, peerLane := natBits m 8 7, peerIdent := natBits m 32 32, peerValid := true,
          attempts := 0, syncFails := 0, lost := 0, slacks := [],
          run := match r.frame with | some f => if f.good then 1 else 0 | none => 0 }) ∧
      (natBits m 20 2 ≠ fldI s.part LNK_RX_RATE (n.val / 8) → ∃ t : State,
        exec (.capabilityMessage n) s = .next t ∧ rxBecomes s t n.val (rxLeave r .fail 6)) ∧
      (natBits m 20 2 = fldI s.part LNK_RX_RATE (n.val / 8) → natBits m 64 22 ≠ fld s.part FAB_T_NS →
        ∃ t : State, exec (.capabilityMessage n) s = .next t ∧ rxBecomes s t n.val (rxLeave r .fail 7))) ∧
    (∀ (m : Nat) (q : Part), r.tmWait = some m → q = setRx s.part n.val { r with
        tmWait := none, tmNum := natBits m 8 8, tmStamp := some (laneStamp r.rxs) } →
      ((∀ x ∈ l.txs, x.1 ≠ natBits m 16 8) → exec (.timeMessage n) s = .next (withPart s q)) ∧
      (∀ (t3 : Nat) (off : Int) (u : Part), fldI s.part LNK_RX_TM_EN (n.val / 8) = 1 → natBits m 24 1 = 1 →
        l.txs = [(natBits m 16 8, t3)] →
        off = laneOffset (natBits m 32 48) (laneStamp r.rxs) t3 (natBits m 80 48) →
        u = { q with tim := { q.tim with
          laneFigures := some (n.val, laneDelay (natBits m 32 48) (laneStamp r.rxs) t3 (natBits m 80 48), off) } } →
        (fld s.part TIM_SRC ≠ 1 ∨ fld s.part TIM_SRC_LANE ≠ n.val →
          exec (.timeMessage n) s = .next (withPart s u)) ∧
        (fld s.part TIM_SRC = 1 → fld s.part TIM_SRC_LANE = n.val → exec (.timeMessage n) s =
          .next (withPart s (takeTheta u (off - psField s.part TIM_LASYM_PS (n.val / 8)) s.part.now)))))

/-- A LINK_CTRL command that runs while the lanes' unit is present and not in self-test, for a group that is enabled
in its direction with every lane of its mask enabled, under the row of its action, acts on exactly the lanes of the
mask and no other lane changes. Retrain: a receive lane neither DOWN nor in FAIL goes to DETECT with cause 11 and no
attempts, an ACTIVE transmit lane to TRAIN sending TP1. Take down: DOWN with cause 14. Bring up: a lane that is DOWN
or in FAIL goes to DETECT, its attempts as they were (the model's choice, log 52). Clear: the error counts, attempts
and slack record of a receive lane are zero or empty. For an action above 3, a direction above 1 or a group above 15
it completes with ERR_PARAM and nothing else changes. A row of another action than the descriptor's does nothing. -/
def Obligations.LinkControlCommands : Prop :=
  ∀ (s : State) (h : Hdr) (a dir group mask : Nat) (rows : List (Nat × Instr)), awake s → canon s.part →
    commandRuns s.part h 0x10 → unitReady s.part 8 → dir = h.par 0x08 1 → group = h.par 0x09 1 →
    mask = h.par 0x0A 1 → a = h.par 0x0B 1 →
    rows = [(0, .linkRetrain h), (1, .linkTakeDown h), (2, .linkBringUp h), (3, .linkClear h)] →
    (3 < a ∨ 1 < dir ∨ 15 < group → ∀ r ∈ rows, a = r.1 ∨ 3 < a →
      exec r.2 s = .next (withPart s (complete (begun s.part h 0x10) h .errParam 0 0))) ∧
    (∀ r ∈ rows, a ≠ r.1 → a < 4 → exec r.2 s = .next s) ∧
    (dir = 0 → group < 16 → fldI s.part LNK_RX_EN group = 1 →
      (∀ j < 8, mask.testBit j = true → rxEnabled s.part (8 * group + j) = true) →
      (a = 0 → ∃ t : State, exec (.linkRetrain h) s = .next t ∧ t.part.lanes.tx = s.part.lanes.tx ∧
        t.part.host.inflight = dropInflight h (begun s.part h 0x10).host.inflight ∧
        ∀ k, rxLane t.part k = if k / 8 = group ∧ mask.testBit (k % 8) = true ∧
            (rxLane s.part k).st ≠ .down ∧ (rxLane s.part k).st ≠ .fail
          then { rxLeave (rxLane s.part k) .detect 11 with attempts := 0 } else rxLane s.part k) ∧
      (a = 1 → ∃ t : State, exec (.linkTakeDown h) s = .next t ∧ t.part.lanes.tx = s.part.lanes.tx ∧
        ∀ k, (k / 8 = group ∧ mask.testBit (k % 8) = true →
            (rxLane t.part k).st = .down ∧ (rxLane t.part k).cause = 14) ∧
          (¬ (k / 8 = group ∧ mask.testBit (k % 8) = true) → rxLane t.part k = rxLane s.part k)) ∧
      (a = 2 → ∃ t : State, exec (.linkBringUp h) s = .next t ∧ t.part.lanes.tx = s.part.lanes.tx ∧
        ∀ k, rxLane t.part k = if k / 8 = group ∧ mask.testBit (k % 8) = true ∧
            ((rxLane s.part k).st = .down ∨ (rxLane s.part k).st = .fail)
          then { rxLane s.part k with st := .detect } else rxLane s.part k) ∧
      (a = 3 → ∃ t : State, exec (.linkClear h) s = .next t ∧ t.part.lanes.tx = s.part.lanes.tx ∧
        ∀ k, rxLane t.part k = (if k / 8 = group ∧ mask.testBit (k % 8) = true
            then { rxLane s.part k with attempts := 0, slacks := [] } else rxLane s.part k) ∧
          (k / 8 = group ∧ mask.testBit (k % 8) = true →
            fldI t.part LNK_ERR_CRC k = 0 ∧ fldI t.part LNK_ERR_SYNC k = 0 ∧ fldI t.part LNK_ERR_ORDER k = 0 ∧
            fldI t.part LNK_ERR_STUFF k = 0))) ∧
    (dir = 1 → group < 16 → fldI s.part LNK_TX_EN group = 1 →
      (∀ j < 8, mask.testBit j = true → txEnabled s.part (8 * group + j) = true) →
      (a = 0 → ∃ t : State, exec (.linkRetrain h) s = .next t ∧ t.part.lanes.rx = s.part.lanes.rx ∧
        ∀ k, txLane t.part k = if k / 8 = group ∧ mask.testBit (k % 8) = true ∧
            (txLane s.part k).st = .active
          then { txLane s.part k with st := .train, pat := .tp1, sentTick := none, halt := false }
          else txLane s.part k) ∧
      (a = 1 → ∃ t : State, exec (.linkTakeDown h) s = .next t ∧ t.part.lanes.rx = s.part.lanes.rx ∧
        ∀ k, (k / 8 = group ∧ mask.testBit (k % 8) = true →
            (txLane t.part k).st = .down ∧ (txLane t.part k).cause = 14) ∧
          (¬ (k / 8 = group ∧ mask.testBit (k % 8) = true) → txLane t.part k = txLane s.part k)) ∧
      (a = 2 → ∃ t : State, exec (.linkBringUp h) s = .next t ∧ t.part.lanes.rx = s.part.lanes.rx ∧
        ∀ k, txLane t.part k = if k / 8 = group ∧ mask.testBit (k % 8) = true ∧
            ((txLane s.part k).st = .down ∨ (txLane s.part k).st = .fail)
          then { txLane s.part k with st := .detect, pat := .tp1 } else txLane s.part k) ∧
      (a = 3 → ∃ t : State, exec (.linkClear h) s = .next t ∧ t.part.lanes = s.part.lanes))

/-- FRAME_TRANSMIT of an ACTIVE lane of a framable group that has not sent in this tick, outside the message ticks,
leaves the encoded frame of the tick with SEQ the low byte of the tick, launched 26 ns after the boundary and later by
the trim of its group, and no other lane changes: under a part halt zero words with HALT (and RDO on a readout lane);
under a fabric halt, on a declared lane, zero words with HALT; otherwise on a readout lane the head of its buffer with
RDO; on a declared lane whose port column was LIVE the committed words with PV; else zero words. In the tick at 512 of
each 1,024, under no part halt, a lane without declared words that is no readout lane sends byte 0 of the capability
message under TMF. RECEIVE_FRAME of an ACTIVE lane: a frame of the right length, position and SEQ, with its checks
good, is kept whole with its words and flags, and counted in the run; one whose CRC alone fails is counted in its
error count, is not good and ends the run. -/
def Obligations.FramesSentAndReceived : Prop :=
  (∀ (s : State) (n : Fin 128) (l : TxLane) (t f : Nat) (la : Int), awake s → canon s.part → l = txLane s.part n.val →
    t = s.part.tk.tick → la = boundaryAt s.part t + 26 * nsUnit + psField s.part TIM_LTX_TRIM_PS (n.val / 8) →
    f = txF s.part n.val → l.st = .active → s.part.tk.reached = true → l.sentTick ≠ some t →
    txFramable s.part (n.val / 8) = true →
    (msgAt s.part n.val t = none →
      (haltCovers s.part.tk.partHaltFrom t = true → ∃ u : State, exec (.frameTransmit n) s = .next u ∧
        txBecomes s u n.val { l with sentTick := some t, launch := la, halt := true
                                     bits := encodeFrame f (t % 256) (if rdoLane s.part n.val then 6 else 2)
                                       (List.replicate (frameP f) 0) }) ∧
      (haltCovers s.part.tk.partHaltFrom t = false → haltCovers s.part.tk.fabHaltFrom t = true →
        0 < txDeclared s.part n.val → ∃ u : State, exec (.frameTransmit n) s = .next u ∧
        txBecomes s u n.val { l with sentTick := some t, launch := la, halt := true
                                     bits := encodeFrame f (t % 256) 2 (List.replicate (frameP f) 0) }) ∧
      (haltCovers s.part.tk.partHaltFrom t = false →
        haltCovers s.part.tk.fabHaltFrom t = false ∨ txDeclared s.part n.val = 0 →
        (rdoLane s.part n.val = true → ∀ ws b any,
          rdoPayload (laneBuf s.part n.val) (frameP f) = (ws, b, any) →
          ∃ u : State, exec (.frameTransmit n) s = .next u ∧
            txBecomes s u n.val { l with sentTick := some t, launch := la, halt := false
                                         bits := encodeFrame f (t % 256) (if any then 5 else 4) ws } ∧
            (smapWf (fun _ => (⟨[], 0⟩ : LaneBuf)) s.part.rdo.lanes = true → laneBuf u.part n.val = b)) ∧
        (rdoLane s.part n.val = false → 0 < txDeclared s.part n.val →
          (if n.val < 64 then s.part.tk.pvWest else s.part.tk.pvEast) = true →
          ∃ u : State, exec (.frameTransmit n) s = .next u ∧
            txBecomes s u n.val { l with sentTick := some t, launch := la, halt := false
                                         bits := encodeFrame f (t % 256) 1 ((List.range (frameP f)).map
                                           (fun i => smapGet (fun _ => 0) s.part.gr.txCommit (n.val * 128 + i))) }) ∧
        (rdoLane s.part n.val = false → txDeclared s.part n.val = 0 →
          ∃ u : State, exec (.frameTransmit n) s = .next u ∧
            txBecomes s u n.val { l with sentTick := some t, launch := la, halt := false
                                         bits := encodeFrame f (t % 256) 0 (List.replicate (frameP f) 0) }))) ∧
    (t % 1024 = 512 → haltCovers s.part.tk.partHaltFrom t = false → rdoLane s.part n.val = false →
      txDeclared s.part n.val = 0 → ∃ u : State, exec (.frameTransmit n) s = .next u ∧
        txBecomes s u n.val { l with sentTick := some t, launch := la, halt := false, msg := capMsg s.part n.val
                                     bits := encodeFrame f (capMsg s.part n.val % 256) 128
                                       (List.replicate (frameP f) 0) })) ∧
  (∀ (s : State) (n : Fin 128) (r : RxLane) (seq ctrl first slack q : Nat) (ws : List Word), awake s →
    canon s.part → r = rxLane s.part n.val → r.st = .active → rxFramable s.part (n.val / 8) = true →
    r.seq = some q → seq = (q + 1) % 256 → ctrl < 128 → ws.length = frameP (rxF s.part n.val) →
    ∃ t : State, exec (.receiveFrame n (encodeFrame (rxF s.part n.val) seq ctrl ws) true first slack) s = .next t ∧
      rxBecomes s t n.val { r with
        frame := some ⟨ws, ctrl.testBit 0, ctrl.testBit 1, true, slack⟩
        frames := r.frames + 1
        run := r.run + 1
        syncFails := 0
        seq := some seq
        inMsg := false
        frags := [] }) ∧
  (∀ (s : State) (n : Fin 128) (r : RxLane) (bits : List Bool) (d : Decoded) (first slack q : Nat), awake s →
    canon s.part → r = rxLane s.part n.val → r.st = .active → rxFramable s.part (n.val / 8) = true →
    d = decodeFrame (rxF s.part n.val) bits → r.seq = some q → d.seq = (q + 1) % 256 → d.ctrl.testBit 7 = false →
    d.sync = 0x4E79 → d.stuffOk = true → d.crcOk = false →
    ∃ t : State, exec (.receiveFrame n bits true first slack) s = .next t ∧
      (rxLane t.part n.val).run = 0 ∧ (rxLane t.part n.val).st = .active ∧
      (∃ fr, (rxLane t.part n.val).frame = some fr ∧ fr.good = false) ∧
      fldI t.part LNK_ERR_CRC n.val = min (fldI s.part LNK_ERR_CRC n.val + 1) (2 ^ LNK_ERR_CRC.width - 1))

/-- For every frame length F that can be framed, every SEQ and CTRL byte and every list of as many words as the frame
carries: the encoded frame, scrambled, stuffed and filled up with its tail, has exactly F line bits, and reading it
gives SYNC 0x4E79, that SEQ, that CTRL and those words, with the stuffing and the CRC good. Scrambling twice gives the
bits back. -/
def Obligations.FrameDecodeEncode : Prop :=
  (∀ (f seq ctrl : Nat) (ws : List Word), 56 + frameQ f ≤ f → seq < 256 → ctrl < 256 → ws.length = frameP f →
    (encodeFrame f seq ctrl ws).length = f ∧
    decodeFrame f (encodeFrame f seq ctrl ws) = ⟨0x4E79, seq, ctrl, ws, true, true⟩) ∧
  ∀ l : List Bool, scramble (scramble l) = l

/-- HISTORY_WRITE while RUNNING, in no part halt: the first tick handed over joins the open page of its sequence when
it is the next one and the page has room for more; the tick that fills the page ends it, and its spill begins once
those of all earlier pages have; with no page open it opens one in the next frame: FILLING, in the first heartwood
page never used where no used one is free, pinned by the accepts whose windows it meets; with none FREE it has no
heartwood page, the oldest RETAINED page, if any, is released for it, and HIS_EARLY counts one. A frame that is reused
while its page is FILLING or spills cuts the spill short: the page is released without its pins, and HIS_LATE counts
one. SPILL_END of a page in SPILL, in no part halt: copied, the page is RETAINED without pins and PINNED with them;
refused by the sealing engine, its spill is cut short. RELEASE_TRANSFER_END, in no part halt and unless the sealing
engine has stopped: the page is gone and its heartwood page is free, where no page waits for one. RETENTION_EXPIRY
begins the release of a RETAINED page whose retention is over and changes nothing else. ACCEPT_IN while RUNNING, in D0
and enabled, and ACCEPT while RUNNING or STOPPED with a graph loaded: within the rate and above the reserve the accept
enters the queue, its window clamped to the declared one; otherwise it is refused, counted for its source, and the
queue is as before. ACCEPT_IN while the fabric is not RUNNING changes nothing in D0. ACCEPT out of range completes
with ERR_PARAM, in a halt with ERR_HALTED. The form of the free list, and that a page may wait for heartwood, are the
model's choice (log 43). -/
def Obligations.HistoryPagesAndAccepts : Prop :=
  (∀ (s : State) (t : Nat) (ws : List Word) (rest : List (Nat × List Word)) (g : HPage), awake s →
    s.part.tk.fab = .running → s.part.his.handed = (t, ws) :: rest → s.part.his.pages.getLast? = some g →
    (∀ x ∈ s.part.his.pages, x.id = g.id → x = g) → g.done = false → g.first + g.ticks.length = t →
    g.words = ws.length → g.ticks.length + 1 < g.perPage →
    ∃ u : State, exec .historyWrite s = .next u ∧ u.part.his.handed = rest ∧
      u.part.his.pages.getLast? = some { g with ticks := (t, ws) :: g.ticks } ∧
      u.part.his.pages.length = s.part.his.pages.length ∧ u = withPart s { s.part with his := u.part.his }) ∧
  (∀ (s : State) (t : Nat) (ws : List Word) (rest : List (Nat × List Word)) (g h : HPage), awake s →
    s.part.tk.fab = .running → partHalted s.part = false → s.part.his.handed = (t, ws) :: rest →
    s.part.his.pages.getLast? = some g → (∀ x ∈ s.part.his.pages, x.id = g.id → x = g) →
    (s.part.his.pages.map (·.id)).Nodup → g.done = false → g.first + g.ticks.length = t → g.words = ws.length →
    g.perPage ≤ g.ticks.length + 1 → h = { g with ticks := (t, ws) :: g.ticks, done := true } →
    ∃ u : State, exec .historyWrite s = .next u ∧ u.part.his.handed = rest ∧
      u.part.his.pages = startSpills true (s.part.his.pages.dropLast ++ [h]) ∧
      (g.st = .filling → (∀ x ∈ s.part.his.pages.dropLast, x.st ≠ .filling) →
        u.part.his.pages.getLast? = some { h with st := .spill }) ∧
      u = withPart s { s.part with his := u.part.his }) ∧
  (∀ (s : State) (t k f : Nat) (ws : List Word) (rest : List (Nat × List Word)) (g : HPage), awake s →
    s.part.tk.fab = .running → partHalted s.part = false → s.part.his.handed = (t, ws) :: rest →
    k = ticksPerPage ws.length → 1 < k → f = (if sapFrames s.part ≤ s.part.his.frame + 1 then 0 else s.part.his.frame + 1) →
    (∀ x ∈ s.part.his.pages, x.done = true ∧ x.id < s.part.his.nextPage ∧ (x.frame = f → x.inSap = false)) →
    g = ⟨s.part.his.nextPage, t, ws.length, k, f, 0, .none, false, [], false, true, [(t, ws)]⟩ →
    ∃ u : State, exec .historyWrite s = .next u ∧ u.part.his.handed = rest ∧ u.part.his.frame = f ∧
      u.part.his.nextPage = s.part.his.nextPage + 1 ∧ u.part.his.pages.length = s.part.his.pages.length + 1 ∧
      (0 < freePages s.part → s.part.his.freed = [] → u.part.his.fresh = s.part.his.fresh + 1 ∧
        u.part.his.pages.getLast? = some { g with
          st := .filling
          hw := s.part.his.fresh
          pins := (s.part.his.accepts.filter (fun a => decide (a.tick - a.before ≤ ((t + k - 1 : Nat) : Int)) &&
            decide ((t : Int) ≤ a.tick + a.after))).map (·.id) }) ∧
      (freePages s.part = 0 →
        (canon s.part → fld u.part HIS_EARLY = min (fld s.part HIS_EARLY + 1) (2 ^ HIS_EARLY.width - 1)) ∧
        (∀ o, oldestRetained s.part.his.pages = some o → u.part.his.pages.getLast? = some { g with waitsHw := true } ∧
          ∃ x ∈ u.part.his.pages, x.id = o.id ∧ x.st = .release) ∧
        (oldestRetained s.part.his.pages = none → u.part.his.pages.getLast? = some g))) ∧
  (∀ (p : Part) (f : Nat) (g : HPage), partHalted p = false → p.his.pages.filter (fun x => x.frame == f && x.inSap) = [g] →
    (∀ x ∈ p.his.pages, x.id = g.id → x = g) → g.st = .filling ∨ g.st = .spill → canon p →
    (∃ x ∈ (reuseFrame p f).his.pages, x.id = g.id ∧ x.st = .release ∧ x.pins = [] ∧ x.inSap = false) ∧
    fld (reuseFrame p f) HIS_LATE = min (fld p HIS_LATE + 1) (2 ^ HIS_LATE.width - 1)) ∧
  (∀ (s : State) (id : Nat) (g : HPage) (q : Part) (st : Status), awake s →
    s.part.his.pages.find? (fun g => g.id == id && g.st == .spill) = some g → partHalted s.part = false →
    sealWrite s.part .history (hwAddress s.part g.hw) (pageBytes g) = (q, st) →
    (st = .ok → exec (.spillEnd id) s = .next (withPart s { q with his := { q.his with
      pages := q.his.pages.map (fun x => if x.id = id
        then { x with st := if x.pins.isEmpty then .retained else .pinned } else x) } })) ∧
    (st ≠ .ok → st ≠ .errHalted → exec (.spillEnd id) s = .next (withPart s (cutShort q g)))) ∧
  (∀ (s : State) (id : Nat) (g : HPage) (q : Part) (st : Status), awake s →
    s.part.his.pages.find? (fun g => g.id == id && g.st == .release) = some g → partHalted s.part = false →
    sealWrite s.part .history (hwAddress s.part g.hw) (linkBytes s.part.his.freed) = (q, st) →
    (st ≠ .errHalted → (∀ x ∈ q.his.pages, x.waitsHw = false) →
      ∃ t : State, exec (.releaseTransferEnd id) s = .next t ∧
        t.part.his.pages = q.his.pages.filter (fun x => x.id != id) ∧
        t.part.his.freed = g.hw :: q.his.freed ∧ t = withPart s { q with his := t.part.his }) ∧
    (st = .errHalted → exec (.releaseTransferEnd id) s = .next (withPart s q))) ∧
  (∀ (s : State) (id : Nat), awake s → partHalted s.part = false →
    exec (.retentionExpiry id) s = .next (withPart s { s.part with his := { s.part.his with
      pages := s.part.his.pages.map (fun g =>
        if g.id = id ∧ g.st = .retained ∧ lastTick g + 1 + fld s.part HIS_RET ≤ s.part.tk.tick
        then { g with st := .release } else g) } })) ∧
  (∀ s : State, awake s → s.part.tk.fab = .running → inD3 s.part = false → fld s.part HIS_ACCEPT_IN_EN = 1 →
    (externalRefusal s.part = none → ∃ (t : State) (c : Bool), exec .acceptIn s = .next t ∧
      t.part.his.accepts = s.part.his.accepts ++
        [⟨s.part.his.nextAccept, (tickAt s.part s.part.now : Int) - fld s.part HIS_EXT_DELTA,
          min (fld s.part HIS_EXT_BEFORE) (declOf s.part).winBeforeMax,
          min (fld s.part HIS_EXT_AFTER) (declOf s.part).winAfterMax, fld s.part HIS_EXT_PRIO,
          fld s.part HIS_EXT_TAG, 1, c, false, false⟩] ∧
      t.part.his.nextAccept = s.part.his.nextAccept + 1) ∧
    (∀ c, externalRefusal s.part = some c → canon s.part → ∃ t : State, exec .acceptIn s = .next t ∧
      t.part.his.accepts = s.part.his.accepts ∧
      fld t.part HIS_REF_EXT = min (fld s.part HIS_REF_EXT + 1) (2 ^ HIS_REF_EXT.width - 1))) ∧
  (∀ s : State, awake s → s.part.tk.fab ≠ .running → inD3 s.part = false → exec .acceptIn s = .next s) ∧
  (∀ (s : State) (h : Hdr) (tick before after : Nat), awake s → commandRuns s.part h 0x18 → unitReady s.part 9 →
    tick = h.par 0x08 8 → before = h.par 0x10 2 → after = h.par 0x12 2 →
    (s.part.tk.halt = none → before ≤ 4095 → after ≤ 4095 → tick ≤ s.part.tk.tick + 65535 →
      s.part.tk.fab = .running ∨ s.part.tk.fab = .stopped → s.part.rdo.graph ≠ none →
      (externalRefusal s.part = none → ∃ (t : State) (c : Bool), exec (.acceptCommand h) s = .next t ∧
        t.part.his.accepts = s.part.his.accepts ++
          [⟨s.part.his.nextAccept, tick, min before (declOf s.part).winBeforeMax,
            min after (declOf s.part).winAfterMax, h.par 0x14 1, h.par 0x15 1, 2, c, false, false⟩] ∧
        (c = true ↔ (declOf s.part).winBeforeMax < before ∨ (declOf s.part).winAfterMax < after) ∧
        t.part.host.inflight = dropInflight h (begun s.part h 0x18).host.inflight) ∧
      (∀ c, externalRefusal s.part = some c → exec (.acceptCommand h) s =
        .next (withPart s (complete (refuseAccept (begun s.part h 0x18) c s.part.tk.tick) h .errState 0 0)))) ∧
    (s.part.tk.halt = none → 4095 < before ∨ 4095 < after ∨ s.part.tk.tick + 65535 < tick →
      exec (.acceptCommand h) s = .next (withPart s (complete (begun s.part h 0x18) h .errParam 0 0))) ∧
    (s.part.tk.halt ≠ none →
      exec (.acceptCommand h) s = .next (withPart s (complete (begun s.part h 0x18) h .errHalted 0 0))))

/-- In no part halt. WINDOW_COMPLETE: every incomplete accept whose window is complete is marked and joins the order
of the instances, once each, and nothing else changes. INSTANCE_START with a graph, a free slot, room for its counters
and a complete accept in front: the instance takes the lowest free slot, keeps the absent ticks of its window, and
leaves the order. TASK_DISPATCH of the task to be picked onto the idle core with the lowest number, none being parked:
the core is busy with it and the task has left the queue, and the core stalls on trace as RDO_TRACE_STALL then stands.
TASK_COMPLETE of a task whose action succeeded, on a core that does not stall and whose posted writes have not failed:
the core is idle; a node with one successor that waited for this node alone queues that successor; the completion of
RELEASE ends the instance and frees its accept. TASK_TIMEOUT of a node without successors: the core is in reset with
its memories under test, and the timeout counted. RING_WAIT_TIMEOUT raises event 84 and changes nothing else.
RDO_GRAPH_LOAD of a good image inside a window replaces the graph. RDO_POLICY sets the fields it names and no other;
one that sets a time-out of 0 completes with ERR_PARAM and sets none. -/
def Obligations.ReadoutInstancesAndTasks : Prop :=
  (∀ s : State, awake s → partHalted s.part = false → (s.part.his.accepts.map (·.id)).Nodup →
    ∃ t : State, exec .windowComplete s = .next t ∧
      t.part.his.accepts = s.part.his.accepts.map (fun a =>
        if a.complete = false ∧ (windowDue s.part a).isSome = true then { a with complete := true } else a) ∧
      (∃ l : List Nat, t.part.rdo.order = s.part.rdo.order ++ l ∧ l.Perm ((s.part.his.accepts.filter (fun a =>
        !a.complete && (windowDue s.part a).isSome)).map (·.id))) ∧
      t = withPart s { s.part with his := { s.part.his with accepts := t.part.his.accepts }
                                   rdo := { s.part.rdo with order := t.part.rdo.order } }) ∧
  (∀ (s : State) (id k : Nat) (rest : List Nat) (g : Graph) (a : AcceptEntry), awake s → partHalted s.part = false →
    s.part.rdo.order = id :: rest → s.part.rdo.graph = some g → freeSlot s.part = some k →
    (s.part.rdo.insts.length + 1) * g.nodes.length ≤ 65536 → s.part.his.accepts.find? (fun a => a.id == id) = some a →
    ∃ (t : State) (m : SMap Nat), exec .instanceStart s = .next t ∧ t.part.rdo.order = rest ∧
      t.part.rdo.insts = s.part.rdo.insts ++
        [⟨k, a, (windowTicks a).filter (fun v => (pageOf s.part v).isNone), m, false, false, [], 0⟩] ∧
      (∀ i n, g.nodes[i]? = some n → smapGet (fun _ => 0) m i = n.pred) ∧ t.part.his.accepts = s.part.his.accepts) ∧
  (∀ (s : State) (j : Nat) (tk : Task), awake s → partHalted s.part = false → idleCore s.part = some j →
    pickTask s.part = some tk → s.part.rdo.parked = [] →
    ∃ t : State, exec .taskDispatch s = .next t ∧ coreState t.part j = .busy tk (timeNs s.part.now) .running ∧
      t.part.rdo.queue = s.part.rdo.queue.erase tk ∧ (∀ k, k ≠ j → coreState t.part k = coreState s.part k) ∧
      t.part.rdo.insts = s.part.rdo.insts ∧
      (canon s.part → smapWf (fun _ => false) s.part.rdo.stallMode = true →
        ∀ k < 32, stalls t.part k = if k = j then fldOn s.part RDO_TRACE_STALL else stalls s.part k)) ∧
  (∀ (s : State) (j : Fin 32) (tk : Task) (start : Nat) (writes : List (Fin 16 × List Byte)) (i : Instance), awake s →
    partHalted s.part = false → coreStalled s.part j.val = false → stickyError s.part (8 + j.val) = false →
    coreState s.part j.val = .busy tk start (.acted true) →
    (graphNode s.part tk.node).typ < 8 → instanceAt s.part tk.slot = some i →
    ∃ t : State, exec (.taskComplete j 0 writes) s = .next t ∧
      (smapWf (fun _ => CoreState.idle) s.part.rdo.cores = true → coreState t.part j.val = .idle) ∧
      ((graphNode s.part tk.node).typ = 7 → instanceAt t.part tk.slot = none ∧
        t.part.his.accepts = s.part.his.accepts.filter (fun a => a.id != i.acc.id)) ∧
      (∀ n, (graphNode s.part tk.node).typ ≠ 7 → (graphNode s.part tk.node).succ = [n] →
        smapGet (fun _ => 0) i.counters n = 1 → s.part.rdo.queue.length < 4096 →
        t.part.rdo.queue = s.part.rdo.queue ++
          [⟨tk.slot, n, taskLevel (graphNode s.part n) i.acc, timeNs s.part.now⟩])) ∧
  (∀ (s : State) (j : Fin 32) (tk : Task) (start : Nat) (ph : TaskPhase), awake s → partHalted s.part = false →
    coreState s.part j.val = .busy tk start ph → (graphNode s.part tk.node).typ ≠ 7 →
    (graphNode s.part tk.node).succ = [] → canon s.part →
    ∃ t : State, exec (.taskTimeout j) s = .next t ∧ coreState t.part j.val = .resetting ∧ testOf t.part 5 = 1 ∧
      fld t.part RDO_TIMEOUTS = min (fld s.part RDO_TIMEOUTS + 1) (2 ^ RDO_TIMEOUTS.width - 1)) ∧
  (∀ (s : State) (j : Fin 32) (tk : Task) (start : Nat), awake s → coreState s.part j.val = .busy tk start .waiting →
    (graphNode s.part tk.node).typ = 5 → partHalted s.part = false →
    exec (.ringWaitTimeout j) s =
      .next (withPart s (raise s.part 84 [(1, natBits (graphNode s.part tk.node).param 0 5)]))) ∧
  (∀ (s : State) (h : Hdr) (img b : List Byte) (nodes : List GraphNode) (entries : List Nat), awake s →
    commandRuns s.part h 0x19 → unitReady s.part 10 → s.part.tk.fab ∈ [FabState.off, .loaded, .stopped] →
    s.part.his.accepts = [] → inWindow s.part .read (h.par 0x08 8) (h.par 0x10 4) = true → dmaOk s.part = true →
    b = fitBytes (h.par 0x10 4) img → graphShapeOk b = true →
    nodes = (List.range (leAt b 6 2)).map (parseNode b (leAt b 6 2)) →
    entries = (List.range (leAt b 8 2)).map (graphEdge b (leAt b 6 2)) →
    graphSound nodes entries = true → (∀ x ∈ nodes, x.typ < 8) → leAt b 0x14 4 ≤ fld s.part HST_RT →
    ∃ t : State, exec (.rdoGraphLoad h img) s = .next t ∧
      t.part.rdo = { s.part.rdo with graph := some ⟨nodes, leAt b 0xC 4, leAt b 0x10 4⟩ } ∧
      t.part.host.inflight = dropInflight h (begun s.part h 0x19).host.inflight) ∧
  (∀ (s : State) (h : Hdr) (set : Nat), awake s → commandRuns s.part h 0x1A → unitReady s.part 10 → canon s.part →
    set = h.par 0x08 1 →
    (set.testBit 1 = false ∨ h.par 0x0C 2 ≠ 0 → ∃ t : State, exec (.rdoPolicy h) s = .next t ∧
      fld t.part RDO_AGE_US = (if set.testBit 0 then h.par 0x0A 2 else fld s.part RDO_AGE_US) ∧
      fld t.part RDO_TIMEOUT_US = (if set.testBit 1 then h.par 0x0C 2 else fld s.part RDO_TIMEOUT_US) ∧
      fld t.part RDO_TRACE_STALL = (if set.testBit 2 then h.par 0x0E 1 % 2 else fld s.part RDO_TRACE_STALL) ∧
      t.part.host.inflight = dropInflight h (begun s.part h 0x1A).host.inflight) ∧
    (set.testBit 1 = true → h.par 0x0C 2 = 0 →
      exec (.rdoPolicy h) s = .next (withPart s (complete (begun s.part h 0x1A) h .errParam 0 0))))

/-- A core that does not stall, in no part halt, holds a task of the named built-in type whose action is still to
come. GATHER of a window of one tick that a page in sapwood holds appends the PARAM's words of that tick to its
buffer; ZSUPP appends the zero-suppressed words of its source buffer; PACK appends the named buffers, in order, to
buffer 15. Appending: with room for all of it and a write that the sealing engine allows, the bytes lie in the work
area behind all that the instance has written (the model's choice, log 44), as the last piece of that buffer, and the
other buffers are as before; past WORK_BYTES only the bytes that fit are written, TRUNCATED is set and the task will
end with an error. CHECKSUM stores the CRC-32 of buffer 15. SEND_RING delivers the accept record with the ring's next
SEQ, waits for room, or fails with a record beyond half the ring. SEND_LANE appends the record's words to the buffer
of a lane assigned to readout with room for them, and the lane's next SEQ advances. Where ZSUPP, PACK, CHECKSUM or
SEND_RING cannot read a buffer through the sealing engine, the task will end with an error. RELEASE takes the accept's
pin from every page. -/
def Obligations.ReadoutNodes : Prop :=
  (∀ (s : State) (j : Fin 32) (tk : Task) (start prm typ : Nat) (i : Instance) (done : Bool → CoreState), awake s →
    partHalted s.part = false → coreStalled s.part j.val = false → coreState s.part j.val = .busy tk start .running →
    instanceAt s.part tk.slot = some i → prm = (graphNode s.part tk.node).param →
    typ = (graphNode s.part tk.node).typ → done = (fun ok => .busy tk start (.acted ok)) →
    (∀ (pg : HPage) (e : Nat × List Word) (bytes : List Byte) (first n : Nat) (q : Part) (ok : Bool), typ = 1 →
      first = natBits prm 0 11 → n = natBits prm 11 11 + 1 → i.acc.before = 0 → i.acc.after = 0 →
      first + n ≤ histH s.part → pageOf s.part i.acc.tick = some pg → pg.inSap = true →
      pg.ticks.find? (fun e => (e.1 : Int) == i.acc.tick) = some e →
      bytes = (List.range n).flatMap (fun k => leBytes 8 (e.2.getD (first + k) 0).toNat) →
      appendBuf s.part tk.slot (natBits prm 60 4) bytes = (q, ok) →
      exec (.gather j) s = .next (withPart s (setCore q j.val (done ok)))) ∧
    (∀ (b : List Byte) (ws : List Word) (p q : Part) (ok : Bool), typ = 2 →
      readBufs s.part tk.slot [natBits prm 0 4] = (p, some b) → ws = wordsOf ((b.length + 7) / 8) b →
      appendBuf p tk.slot (natBits prm 4 4) ((zsuppWords ws.length ws).flatMap (fun w => leBytes 8 w.toNat)) = (q, ok) →
      exec (.zsupp j) s = .next (withPart s (setCore q j.val (done ok)))) ∧
    (∀ (b : List Byte) (p q : Part) (ok : Bool), typ = 3 →
      readBufs s.part tk.slot ((List.range 16).filter (fun c => (natBits prm 0 16).testBit c)) = (p, some b) →
      appendBuf p tk.slot 15 b = (q, ok) →
      exec (.pack j) s = .next (withPart s (setCore q j.val (done ok)))) ∧
    (∀ (b : List Byte) (p : Part), typ = 4 → readBufs s.part tk.slot [15] = (p, some b) →
      exec (.checksum j) s = .next (withPart s
        (setCore (mapInstance p tk.slot (fun x => { x with check := crc32 b })) j.val (done true)))) ∧
    (∀ (k : Fin 32) (b : List Byte) (p : Part), typ = 5 → k.val = natBits prm 0 5 →
      readBufs s.part tk.slot [15] = (p, some b) →
      (∀ q, rdoPut p k 1 (acceptRecord i b (seqOf p k.val)) = .written q →
        exec (.sendRing j) s = .next (withPart s (setCore (bumpSeq q k.val) j.val (done true)))) ∧
      (∀ q, rdoPut p k 1 (acceptRecord i b (seqOf p k.val)) = .tooLong q →
        exec (.sendRing j) s = .next (withPart s (setCore q j.val (done false)))) ∧
      (rdoPut p k 1 (acceptRecord i b (seqOf p k.val)) = .waits →
        exec (.sendRing j) s = .next (withPart s (setCore p j.val (.busy tk start .waiting))))) ∧
    (∀ (n : Nat) (ws : List (Bool × Word)) (b : List Byte) (p : Part), typ = 6 → n = natBits prm 0 7 →
      rdoLane s.part n = true → txFramable s.part (n / 8) = true → 2 ≤ frameP (txF s.part n) →
      readBufs s.part tk.slot [15] = (p, some b) → ws = recordWords (acceptRecord i b (seqOf p (32 + n))) →
      (laneBuf p n).words.length + ws.length ≤ 32768 →
      ∃ t : State, exec (.sendLane j) s = .next t ∧
        coreState t.part j.val = done true ∧
        (smapWf (fun _ => (⟨[], 0⟩ : LaneBuf)) p.rdo.lanes = true →
          laneBuf t.part n = ⟨(laneBuf p n).words ++ ws, (laneBuf p n).lseq⟩) ∧
        (smapWf (fun _ => (0 : Nat)) p.rdo.seqs = true →
          seqOf t.part (32 + n) = (seqOf p (32 + n) + 1) % 2 ^ 32)) ∧
    (∀ (bs : List Nat) (row : Instr) (p : Part), readBufs s.part tk.slot bs = (p, none) →
      (typ, row, bs) ∈ [(2, .zsupp j, [natBits prm 0 4]),
        (3, .pack j, (List.range 16).filter (fun c => (natBits prm 0 16).testBit c)),
        (4, .checksum j, [15]), (5, Instr.sendRing j, [15])] →
      exec row s = .next (withPart s (setCore p j.val (done false)))) ∧
    (typ = 7 → ∃ t : State, exec (.release j) s = .next t ∧ (∀ x ∈ t.part.his.pages, i.acc.id ∉ x.pins) ∧
      t.part.his.pages.length = s.part.his.pages.length ∧ t.part.his.accepts = s.part.his.accepts ∧
      coreState t.part j.val = done true)) ∧
  (∀ (p q : Part) (slot b o : Nat) (bytes : List Byte) (i : Instance) (g : Graph), instanceAt p slot = some i →
    p.rdo.graph = some g → o = workUsed i → bytes ≠ [] → o + bytes.length ≤ g.work →
    sealWrite p .cores (workArea slot + o) bytes = (q, .ok) →
    ∃ i' : Instance, (appendBuf p slot b bytes).2 = true ∧ instanceAt (appendBuf p slot b bytes).1 slot = some i' ∧
      workPieces i' b = workPieces i b ++ [(o, bytes.length)] ∧ (∀ c, c ≠ b → workPieces i' c = workPieces i c) ∧
      i'.truncated = i.truncated) ∧
  (∀ (p : Part) (slot b : Nat) (bytes : List Byte) (i : Instance) (g : Graph), instanceAt p slot = some i →
    p.rdo.graph = some g → g.work < workUsed i + bytes.length →
    (appendBuf p slot b bytes).2 = false ∧
    ∃ i' : Instance, instanceAt (appendBuf p slot b bytes).1 slot = some i' ∧ i'.truncated = true)

/-- With the stacks READY, the engine not stopped, no part halt, and nothing disturbed: a SEALED_WRITE inside a region
of its initiator answers OK, the bytes are as written, and every other byte is as before; a SEALED_READ there answers
OK with the bytes, and no line changes. Outside every such region a SEALED_READ answers ERR_WINDOW without data and is
counted. A SEALED_READ in which a check fails ends with ERR_HALTED and no data, the engine stops, and the first cause
is recorded; a disturbed line whose MAC does not match fails with cause 1. A stopped engine answers ERR_HALTED, stacks
that are not READY ERR_STATE. REKEY of a used region of yours with a retired identity left, no walk running and
entropy: the new identity is current and live and has a key, and the walk of that region runs for the command; without
entropy the engine stops. REKEY_WALK_END, with nothing disturbed: every line of the region carries the current
identity, no line's data and no other line's identity changes, and the command is no longer in flight. An automatic
rekey at 2^48 uses starts, or waits for a walk, an identity or a lower region; the first that waits starts later.
IDENTITY_RETIRED clears the live bit and the key of an identity that, after the sweep, no line, block or node carries,
and otherwise keeps it live; the sweep leaves the region of the latest walk, and in others the lines of the current
identity, as they are. That a stopped engine is told before stacks that are not READY and before the window, and that
a walk is one event, are the model's choice (log 49). -/
def Obligations.SealedMemoryAndRekeys : Prop :=
  (∀ (s : State) (u : SealUser) (a len : BitVec 64) (b : List Byte), awake s →
    (s.part.sm.stopped = true ∨ partHalted s.part = true →
      exec (.sealedRead u a len []) s = .next (withPart s { s.part with sm := { s.part.sm with
        lastStatus := .errHalted, lastRead := [] } }) ∧
      exec (.sealedWrite u a b []) s = .next (withPart s { s.part with sm := { s.part.sm with
        lastStatus := .errHalted, lastRead := [] } })) ∧
    (s.part.sm.stopped = false → partHalted s.part = false → hbmReady s.part = false →
      exec (.sealedRead u a len []) s = .next (withPart s { s.part with sm := { s.part.sm with
        lastStatus := .errState, lastRead := [] } }) ∧
      exec (.sealedWrite u a b []) s = .next (withPart s { s.part with sm := { s.part.sm with
        lastStatus := .errState, lastRead := [] } })) ∧
    (s.part.sm.stopped = false → partHalted s.part = false → hbmReady s.part = true →
      (∀ k, rgnFor s.part u a.toNat len.toNat = some k → sealClean s.part →
        ∃ t : State, exec (.sealedRead u a len []) s = .next t ∧ t.part.sm.lastStatus = .ok ∧
          t.part.sm.lastRead = (List.range len.toNat).map (fun i => sealedByte s.part (a.toNat + i)) ∧
          t.part.sm.lines = s.part.sm.lines) ∧
      (rgnFor s.part u a.toNat len.toNat = none →
        ∃ t : State, exec (.sealedRead u a len []) s = .next t ∧ t.part.sm.lastStatus = .errWindow ∧
          t.part.sm.lastRead = [] ∧ t.part.sm.lines = s.part.sm.lines ∧
          (canon s.part → fld t.part SEAL_REJ_COUNT =
            min (fld s.part SEAL_REJ_COUNT + 1) (2 ^ SEAL_REJ_COUNT.width - 1))) ∧
      (∀ k, rgnFor s.part u a.toNat b.length = some k → sealClean s.part →
        smapWf (fun _ => SealLine.zero) s.part.sm.lines = true →
        ∃ t : State, exec (.sealedWrite u a b []) s = .next t ∧ t.part.sm.lastStatus = .ok ∧
          (∀ i < b.length, sealedByte t.part (a.toNat + i) = b.getD i 0) ∧
          ∀ x, x < a.toNat ∨ a.toNat + b.length ≤ x → sealedByte t.part x = sealedByte s.part x) ∧
      (∀ (k : Nat) (ds : List Disturb) (p q : Part) (f : SealFail), p = ds.foldl applyDisturb s.part →
        rgnFor s.part u a.toNat len.toNat = some k → readBytes (len.toNat + 1) p a.toNat len.toNat = (q, .error f) →
        ∃ t : State, exec (.sealedRead u a len ds) s = .next t ∧ t.part.sm.stopped = true ∧
          t.part.sm.walk = none ∧ t.part.sm.lastStatus = .errHalted ∧ t.part.sm.lastRead = [] ∧
          (canon q → fld q SEAL_FAIL_CAUSE = 0 → f.cause < 8 → fld t.part SEAL_FAIL_CAUSE = f.cause)))) ∧
  (∀ (p : Part) (l : Nat), lineKid p l < 4 → kidRetired p (lineKid p l) = false → (sealLine p l).flips ≠ 0 →
    lineMac p (lineKid p l) l (storedLine p l) ≠ lineMac p (lineKid p l) l (sealedData p l) →
    openLine p l 0 = .error (lineFail 1 l)) ∧
  (∀ (s : State) (h : Hdr) (k kid : Nat) (e : BitVec 384), awake s → commandRuns s.part h 0x38 →
    unitReady s.part 13 → s.part.sm.stopped = false → hbmReady s.part = true → k = h.par 0x08 1 →
    (2 ≤ k → rgnSize s.part k ≠ 0 → nextKid s.part = some kid → s.part.sm.walk = none →
      (canon s.part → ∃ t : State, exec (.rekey h (some e)) s = .next t ∧ t.part.sm.walk = some (k, some h) ∧
        curKid t.part = kid ∧ kidRetired t.part kid = false ∧ fld t.part SEAL_REKEY_BUSY = 1 ∧
        smapGet (fun _ => none) t.part.sm.keys kid ≠ none ∧
        (smapWf (fun _ => (0 : Nat)) s.part.sm.use = true → rgnUse t.part k = 0) ∧
        t.part.sm.lines = s.part.sm.lines ∧ t.part.sm.chunkKid = s.part.sm.chunkKid) ∧
      ∃ t : State, exec (.rekey h none) s = .next t ∧ t.part.sm.stopped = true ∧ t.part.sm.walk = none ∧
        t.part.host.inflight = dropInflight h (begun s.part h 0x38).host.inflight) ∧
    (k < 2 ∨ rgnSize s.part k = 0 →
      exec (.rekey h (some e)) s = .next (withPart s (complete (begun s.part h 0x38) h .errParam 0 0))) ∧
    (2 ≤ k → rgnSize s.part k ≠ 0 → nextKid s.part = none ∨ s.part.sm.walk ≠ none →
      exec (.rekey h (some e)) s = .next (withPart s (complete (begun s.part h 0x38) h .errState 0 0)))) ∧
  (∀ (s : State) (k : Nat) (h : Hdr), awake s → s.part.sm.walk = some (k, some h) → sealState s.part = 2 →
    sealClean s.part →
    smapWf (fun _ => SealLine.zero) s.part.sm.lines = true → smapWf (fun _ => (0 : Nat)) s.part.sm.chunkKid = true →
    ∃ t : State, exec .rekeyWalkEnd s = .next t ∧ t.part.sm.walk = none ∧
      (∀ l, lineInRgn s.part k l = true → lineKid t.part l = curKid s.part) ∧
      (∀ l, lineInRgn s.part k l = false → lineKid t.part l = lineKid s.part l) ∧
      (∀ l, (sealLine t.part l).data = (sealLine s.part l).data) ∧
      t.part.host.inflight = dropInflight h s.part.host.inflight ∧
      (canon s.part → fld t.part SEAL_REKEY_BUSY = 0)) ∧
  (∀ (s : State) (k : Fin 16) (kid : Nat) (e : BitVec 384), awake s → sealState s.part = 2 →
    rekeyDue s.part k.val = true → k.val ∉ s.part.sm.waiting → s.part.sm.walk.map (·.1) ≠ some k.val →
    (s.part.sm.walk = none → nextKid s.part = some kid →
      (∀ j < k.val, rekeyDue s.part j = false ∧ j ∉ s.part.sm.waiting) →
      ∃ t : State, exec (.rekeyAutoStart k (some e)) s = .next t ∧ t.part.sm.walk = some (k.val, none) ∧
        (canon s.part → curKid t.part = kid)) ∧
    (s.part.sm.walk ≠ none ∨ nextKid s.part = none ∨
        (∃ j < k.val, rekeyDue s.part j = true ∨ j ∈ s.part.sm.waiting) →
      ∃ t : State, exec (.rekeyAutoStart k (some e)) s = .next t ∧ k.val ∈ t.part.sm.waiting ∧
        t.part.sm.walk = s.part.sm.walk ∧ t.part.sm.lines = s.part.sm.lines)) ∧
  (∀ (s : State) (k kid : Nat) (rest : List Nat) (e : BitVec 384), awake s → sealState s.part = 2 →
    s.part.sm.waiting = k :: rest → s.part.sm.walk = none → nextKid s.part = some kid →
    ∃ t : State, exec (.rekeyDeferredStart (some e)) s = .next t ∧ t.part.sm.walk = some (k, none) ∧
      t.part.sm.waiting = rest.filter (· != k) ∧ (canon s.part → curKid t.part = kid)) ∧
  (∀ (s : State) (kid : Fin 4) (q r : Part), awake s → sealState s.part = 2 → kid.val ≠ curKid s.part →
    kidRetired s.part kid.val = false → canon s.part →
    (fld s.part SEAL_SWEEP_BUSY = 0 ∧ q = s.part) ∨
      (fld s.part SEAL_SWEEP_BUSY = 1 ∧ sweepRegions (List.range 16) s.part = (q, .ok ())) →
    r = setFld q SEAL_SWEEP_BUSY 0 →
    (idLines r kid.val = 0 → blocksCarry r kid.val = false → canon q →
      ∃ t : State, exec (.identityRetired kid) s = .next t ∧ kidRetired t.part kid.val = true ∧
        (∀ j < 4, j ≠ kid.val → kidRetired t.part j = kidRetired q j) ∧ curKid t.part = curKid q ∧
        (smapWf (fun _ => (none : Option SealKey)) q.sm.keys = true →
          smapGet (fun _ => none) t.part.sm.keys kid.val = none)) ∧
    (idLines r kid.val ≠ 0 ∨ blocksCarry r kid.val = true → exec (.identityRetired kid) s = .next (withPart s r))) ∧
  (∀ p : Part, sweepRegions [fld p SEAL_REKEY_RGN] p = (p, .ok ())) ∧
  (∀ (p : Part) (k l : Nat), smapWf (fun _ => SealLine.zero) p.sm.lines = true → lineInRgn p k l = true →
    (sealLine (resealRegion p false k) l).data = (sealLine p l).data ∧
    (sealLine (resealRegion p false k) l).flips = if lineKid p l = curKid p then (sealLine p l).flips else 0)

/-- CAPTURE_ARM of a unit that is OFF, with the fabric not OFF, the capture area reserved, no halt, capture and
sapwood present and not in self-test, and every field in range and free, leaves the unit WAITING with its
configuration, passing over the ticks up to that of the pickup, and no other unit changes; a unit in use, or the
fabric OFF, completes it with ERR_STATE, a field out of range, or a drive line that is not enabled, with ERR_PARAM.
DECISION_INSTANT while RUNNING in no part halt decides the oldest tick: a WAITING unit whose own condition holds, with
ticks to record after it, starts its segment with the pre-ring and that tick; one that does not fire keeps the tick in
its pre-ring and is primed by values beyond the hysteresis; a RECORDING unit appends the tick, and with the last one,
while a slot is left, the segment is complete and ordered for delivery, and the unit DEAD. CAPTURE_REARM of a DEAD or
FULL unit with a free slot makes it WAITING with an empty pre-ring. SEGMENT_DELIVERY frees the slot of a segment whose
record is written; where the ring lacks room it changes nothing, and DELIVERY_WAIT_TIMEOUT reports it. CAPTURE_DISARM
of a WAITING unit without segments turns it OFF; of a unit that is OFF it completes with ERR_STATE. TBUS_DRIVE drives,
for the oldest tick if not yet driven, the enabled lines of its own fires from its instant, none while the fabric is
not RUNNING; TBUS_SAMPLE keeps the lines found low for the oldest tick if not yet sampled. Which fires drive a line
before their tick is decided (log 45), and that TBUS_DRIVE passes device time on to its instant (log 54), are the
model's choice. -/
def Obligations.CaptureUnits : Prop :=
  (∀ (s : State) (h : Hdr) (a : CapArm), awake s → commandRuns s.part h 0x20 → unitReady s.part 11 →
    unitReady s.part 9 → s.part.tk.halt = none → a = capArmOf h →
    (s.part.tk.fab ≠ .off → fld s.part HIS_CAP_RESERVE = 1 → capOn s.part a.unit.val = none →
      (capBad s.part a = false → areaBad s.part a = false →
        a.tbDrive.getLsbD 3 = false ∨ (fld s.part CAP_TB_DRV_EN).testBit (a.tbDrive.toNat % 8) = true →
        ∃ (t : State) (c : CapUnit), exec (.captureArm h) s = .next t ∧ capUnit t.part a.unit.val = some c ∧
          c.st = .waiting ∧ c.cfg = a ∧ c.cur = none ∧ c.segs = [] ∧ c.pre = [] ∧ c.pr = false ∧ c.pf = false ∧
          c.skip = armSkip s.part (pickupTick (begun s.part h 0x20) h) ∧
          (∀ v, v ≠ a.unit.val → capUnit t.part v = capUnit s.part v) ∧
          t.part.host.inflight = dropInflight h (begun s.part h 0x20).host.inflight) ∧
      (capBad s.part a = true ∨ areaBad s.part a = true ∨
          (a.tbDrive.getLsbD 3 = true ∧ (fld s.part CAP_TB_DRV_EN).testBit (a.tbDrive.toNat % 8) = false) →
        exec (.captureArm h) s = .next (withPart s (complete (begun s.part h 0x20) h .errParam 0 0)))) ∧
    (s.part.tk.fab = .off ∨ fld s.part HIS_CAP_RESERVE = 0 ∨ capOn s.part a.unit.val ≠ none →
      exec (.captureArm h) s = .next (withPart s (complete (begun s.part h 0x20) h .errState 0 0)))) ∧
  (∀ (s : State) (t : ProbeTick) (rest : List ProbeTick) (u : Nat) (c : CapUnit), awake s → partHalted s.part = false →
    s.part.tk.fab = .running → s.part.cap.ticks = t :: rest → u < 16 → capUnit s.part u = some c → c.skip = 0 →
    c.disarm = false → ∃ (v : State) (d : CapUnit), exec .decisionInstant s = .next v ∧ v.part.cap.ticks = rest ∧
      capUnit v.part u = some d ∧ d.cfg = c.cfg ∧
      (c.st = .waiting → ownFires c t.words = true → c.cfg.src.getLsbD 0 = true → 0 < c.cfg.post.toNat →
        d.st = .recording ∧ d.pre = [] ∧ ∃ g, d.cur = some g ∧ g.trig = t.tick ∧ g.own = true ∧
          g.ticks = c.pre ++ [recorded c t] ∧ g.preValid = c.pre.length ∧ g.seq = c.seq) ∧
      (c.st = .waiting → ownFires c t.words = false → c.cfg.tbListen.toNat &&& t.lines = 0 →
        d = { c with
          pr := c.pr || decide (fieldValue c.cfg t.words < levelOf c.cfg - c.cfg.hyst.toNat)
          pf := c.pf || decide (levelOf c.cfg + c.cfg.hyst.toNat < fieldValue c.cfg t.words)
          pre := (c.pre ++ [recorded c t]).drop (c.pre.length + 1 - c.cfg.pre.toNat) }) ∧
      (∀ g, c.st = .recording → c.cur = some g →
        (g.ticks.length + 1 < g.preValid + 1 + c.cfg.post.toNat →
          d = { c with cur := some { g with ticks := g.ticks ++ [recorded c t] } }) ∧
        (g.preValid + 1 + c.cfg.post.toNat ≤ g.ticks.length + 1 → c.segs.length + 1 < c.cfg.slots.toNat →
          d.st = .dead ∧ d.cur = none ∧ d.segs = c.segs ++ [{ g with ticks := g.ticks ++ [recorded c t] }] ∧
          d.seq = (c.seq + 1) % 2 ^ 32 ∧ u ∈ v.part.cap.delivery))) ∧
  (∀ (s : State) (u : Fin 16) (c : CapUnit), awake s → capUnit s.part u.val = some c → partHalted s.part = false →
    c.disarm = false → c.st = .dead ∨ c.st = .full → c.segs.length < c.cfg.slots.toNat →
    ∃ (t : State) (d : CapUnit), exec (.captureRearm u) s = .next t ∧ capUnit t.part u.val = some d ∧
      d.st = .waiting ∧ d.pre = [] ∧ d.pr = false ∧ d.pf = false ∧ d.segs = c.segs ∧ d.cfg = c.cfg ∧
      d.deadCount = c.deadTicks) ∧
  (∀ (s : State) (u : Nat) (c : CapUnit) (g : Segment), awake s → firstSegment s.part = some (u, c, g) →
    (∀ q, rdoPut s.part c.cfg.ring 2 (captureRecord u c g) = .written q → c.disarm = false →
      ∃ (t : State) (d : CapUnit), exec .segmentDelivery s = .next t ∧ capUnit t.part u = some d ∧
        d = { c with segs := c.segs.drop 1, lost := 0 } ∧ t.part.cap.delivery = s.part.cap.delivery.drop 1) ∧
    (rdoPut s.part c.cfg.ring 2 (captureRecord u c g) = .waits → exec .segmentDelivery s = .next s ∧
      (partHalted s.part = false → exec .deliveryWaitTimeout s = .next (withPart s (raise s.part (96 + u) [(1, u), (1, 5), (8, g.trig)]))))) ∧
  (∀ (s : State) (h : Hdr) (u : Nat) (c : CapUnit), awake s → commandRuns s.part h 0x21 → unitReady s.part 11 →
    u = h.par 0x08 1 % 16 →
    (capUnit s.part u = some c → c.st = .waiting → c.cur = none → c.segs = [] → c.cmds = [] →
      ∃ (t : State) (d : CapUnit), exec (.captureDisarm h) s = .next t ∧ capUnit t.part u = some d ∧
        d.st = .off ∧ t.part.host.inflight = dropInflight h (begun s.part h 0x21).host.inflight) ∧
    (capOn s.part u = none → exec (.captureDisarm h) s =
      .next (withPart s (complete (begun s.part h 0x21) h .errState 0 0)))) ∧
  (∀ (s : State) (t : ProbeTick) (rest : List ProbeTick) (lines : BitVec 8) (at0 : Nat) (q : Part), awake s →
    s.part.cap.ticks = t :: rest → at0 = busInstant s.part t.tick + tenths s.part.cap.drv →
    q = advanceTo s.part at0 →
    (t.driven = false → exec .tbusDrive s = .next (withPart s { q with cap := { s.part.cap with
      drive := if running s.part then ownLines s.part t &&& fld s.part CAP_TB_DRV_EN else 0
      driveFrom := at0
      ticks := { t with driven := true } :: rest } })) ∧
    (t.sampled = false → partHalted s.part = false → ∃ v : State, exec (.tbusSample lines) s = .next v ∧
      v.part.cap = { s.part.cap with ticks := { t with sampled := true, lines := lines.toNat } :: rest } ∧
      (canon s.part → fld v.part CAP_TB_LINES = lines.toNat)))

/-- Each TRACE_CTRL row acts under its own action; of another action it does nothing, and for an action above 5 the
command completes with ERR_PARAM. TRACE_START while no trace runs: running, with the stream at offset 0 and every
input empty. TRACE_STOP of a live trace freezes it, TRIGGER makes a running one triggered, with its stop instant, at
its pickup (or, the model's choice of log 42, as it begins, where trace began to run since), and TRACE_STOP_INSTANT
freezes it; with no live trace they complete with ERR_STATE, as does TRACE_START of a live one (a TRIGGERED trace
counts as running, log 42). SET_SOURCES enables exactly the sources of its mask, those new with a SYNC to come, and
without authorisation refuses source 32 with ERR_AUTH. COUNTER_SHAVING of an enabled source with room puts what its
monitor has counted on each VC since the one before, with what the row adds, into its input, and counting begins anew;
of a source not enabled nothing happens. CHUTE_TAKE with the host ring as sink takes the first shaving of the next
input whole and counts its bytes in TRC_WPTR (log 42). CHUNK_TIMEOUT writes what has gathered; where the ring lacks
room it changes nothing, and SINK_FULL_TIMEOUT reports it. DRAIN of a frozen buffer joins the DRAINs, kept in order
(log 42), from its oldest byte, and otherwise completes with ERR_STATE; DRAIN_END at the end of the stream completes
the first. AUTH draws a new challenge: a buffer in a window with a key whose SHA-256 is the OTP record's and a good
signature over challenge and serial number sets TRC_AUTH; any other leaves it and is ERR_AUTH. -/
def Obligations.TraceStreamAndControl : Prop :=
  (∀ (s : State) (h : Hdr) (buf : List Byte) (rows : List (Nat × Instr)), awake s → commandRuns s.part h 0x28 →
    unitReady s.part 12 → rows = [(0, .traceStart h), (1, .traceStop h), (2, .traceTrigger h), (3, .setSources h),
      (4, .drain h), (5, .auth h buf)] → ∀ r ∈ rows,
    (r.1 ≠ h.traceAction → h.traceAction < 6 → exec r.2 s = .next s) ∧
    (5 < h.traceAction → exec r.2 s = .next (withPart s (complete (begun s.part h 0x28) h .errParam 0 0)))) ∧
  (∀ (s : State) (h : Hdr), awake s → commandRuns s.part h 0x28 → unitReady s.part 12 →
    (s.part.trc.st = .idle ∨ s.part.trc.st = .frozen →
      (h.traceAction = 0 → ∃ t : State, exec (.traceStart h) s = .next t ∧ t.part.trc.st = .running ∧
        t.part.trc.sources = [] ∧ t.part.trc.gather = [] ∧ t.part.trc.drains = [] ∧
        (canon s.part → wptr t.part = 0 ∧ fld64 t.part TRC_TRIG_OFS_L TRC_TRIG_OFS_H = 0) ∧
        (s.part.trc.drains = [] →
          t.part.host.inflight = dropInflight h (begun s.part h 0x28).host.inflight)) ∧
      (h.traceAction = 1 →
        exec (.traceStop h) s = .next (withPart s (complete (begun s.part h 0x28) h .errState 0 0))) ∧
      (h.traceAction = 2 → (foundOf (begun s.part h 0x28) h).triggered = false →
        exec (.traceTrigger h) s = .next (withPart s (complete (begun s.part h 0x28) h .errState 0 0)))) ∧
    (s.part.trc.st = .running ∨ s.part.trc.st = .triggered →
      (h.traceAction = 0 →
        exec (.traceStart h) s = .next (withPart s (complete (begun s.part h 0x28) h .errState 0 0))) ∧
      (h.traceAction = 1 → ∃ t : State, exec (.traceStop h) s = .next t ∧ t.part.trc.st = .frozen)) ∧
    (h.traceAction = 2 → (foundOf (begun s.part h 0x28) h).triggered = true →
      exec (.traceTrigger h) s = .next (withPart s (complete (begun s.part h 0x28) h .ok 0 0))) ∧
    (s.part.trc.st = .running → h.traceAction = 2 → (foundOf (begun s.part h 0x28) h).triggered = false →
      ∃ t : State, exec (.traceTrigger h) s = .next t ∧ t.part.trc.st = .triggered ∧ t.part.trc.stopAt = timeNs s.part.now + fld s.part TRC_STOP_DELAY * 64 ∧
      t.part.host.inflight = dropInflight h (begun s.part h 0x28).host.inflight) ∧
    (h.traceAction = 4 →
      (s.part.trc.st = .frozen → fld s.part TRC_SINK = 0 →
        exec (.drain h) s = .next (withPart s { begun s.part h 0x28 with trc := { s.part.trc with
          drains := s.part.trc.drains ++ [(h, wptr s.part - fld s.part TRC_SIZE_MIB * 2 ^ 20)] } })) ∧
      (s.part.trc.st ≠ .frozen ∨ fld s.part TRC_SINK = 1 →
        exec (.drain h) s = .next (withPart s (complete (begun s.part h 0x28) h .errState 0 0)))) ∧
    (∀ mask : BitVec 128, h.traceAction = 3 → mask = BitVec.ofNat 128 (h.par 0x10 16) →
      (mask.getLsbD 32 = true → fld s.part TRC_AUTH = 0 →
        exec (.setSources h) s = .next (withPart s (complete (begun s.part h 0x28) h .errAuth 0 0))) ∧
      (mask.getLsbD 32 = false ∨ fld s.part TRC_AUTH = 1 → canon s.part →
        ∃ t : State, exec (.setSources h) s = .next t ∧
          (∀ k < 128, (fldI t.part TRC_SRC_EN (k / 32)).testBit (k % 32) = mask.getLsbD k) ∧
          (∀ k < 128, mask.getLsbD k = true → (fldI s.part TRC_SRC_EN (k / 32)).testBit (k % 32) = false →
            smapWf (fun _ => TrcSource.init) s.part.trc.sources = true → (trcSource t.part k).needSync = true) ∧
          t.part.host.inflight = dropInflight h (begun s.part h 0x28).host.inflight)) ∧
    (∀ buf : List Byte, h.traceAction = 5 → inWindow s.part .read (h.par 0x10 8) 96 = true → dmaOk s.part = true →
      (authorises s.part (fitBytes 96 buf) = true →
        ∃ t : State, exec (.auth h buf) s = .next t ∧ (canon s.part → fld t.part TRC_AUTH = 1) ∧
          t.part.trc.chal = s.part.free ∧ t.part.free = s.part.free + 1) ∧
      (authorises s.part (fitBytes 96 buf) = false →
        ∃ t : State, exec (.auth h buf) s = .next t ∧ fld t.part TRC_AUTH = fld s.part TRC_AUTH ∧
          t.part.trc.chal = s.part.free ∧ t.part.free = s.part.free + 1 ∧
          t.part.host.inflight = dropInflight h (begun s.part h 0x28).host.inflight))) ∧
  (∀ (p : Part) (h : Hdr), h.op = 0x28 → h.traceAction = 2 → h.rsv = false → p.trc.st = .running →
    (recogniseTrigger p h).2 = true ∧ (recogniseTrigger p h).1.trc.st = .triggered ∧
    (recogniseTrigger p h).1.trc.stopAt = timeNs p.now + fld p TRC_STOP_DELAY * 64) ∧
  (∀ (p : Part) (buf : List Byte), authorises p buf = true ↔
    otpPayload p.boot.otpRead 3 = some (sha256 (buf.take 32)) ∧
    ed25519Ok (buf.take 32) (challengeBytes p ++ leBytes 8 (otpField p.boot.otpRead 0 0 8 0)) (buf.drop 32) = true) ∧
  (∀ s : State, awake s → s.part.trc.st = .triggered → ∃ t : State, exec .traceStopInstant s = .next t ∧
    t.part.trc.st = .frozen ∧ t.part.sp = s.part.sp ∧ t.part.gr = s.part.gr) ∧
  (∀ (s : State) (m : Fin 8) (flits stalls : BitVec 128) (c : TrcSource), awake s → c = trcSource s.part (40 + m.val) →
    ((fldI s.part TRC_SRC_EN 1).testBit (8 + m.val) = false →
      exec (.counterShaving m flits stalls) s = .next s) ∧
    ((fldI s.part TRC_SRC_EN 1).testBit (8 + m.val) = true → s.part.trc.st = .running → c.dropN = 0 → c.stalled = [] →
      c.needSync = false → c.sinceSync < 4096 → inputBytes c ≤ 4000 →
      ∃ t : State, exec (.counterShaving m flits stalls) s = .next t ∧
        (trcSource t.part (40 + m.val)).queue = c.queue ++ [shavingBytes (40 + m.val) 7 (trcTime s.part - c.last)
          ([(flits, 0), (stalls, 4)].flatMap (fun w => (List.range 4).flatMap (fun vc => leBytes 4
            (min (smapGet (fun _ => 0) s.part.svn.net.counts (m.val * 8 + w.2 + vc) + natBits w.1.toNat (32 * vc) 32)
              (2 ^ 32 - 1)))))] ∧
        (smapWf (fun _ => (0 : Nat)) s.part.svn.net.counts = true →
          ∀ k, smapGet (fun _ => 0) t.part.svn.net.counts k =
            if k / 8 = m.val then 0 else smapGet (fun _ => 0) s.part.svn.net.counts k))) ∧
  (∀ (s : State) (k : Nat) (b : List Byte) (rest : List (List Byte)), awake s →
    s.part.trc.st = .running ∨ s.part.trc.st = .triggered → fld s.part TRC_SINK = 1 → nextSource s.part = some k →
    (trcSource s.part k).queue = b :: rest → isTrigger b = false → (trcSource s.part k).dropN = 0 →
    (trcSource s.part k).stalled = [] → s.part.trc.gather.length + b.length < 4096 →
    smapWf (fun _ => TrcSource.init) s.part.trc.sources = true →
    ∃ t : State, exec (.chuteTake []) s = .next t ∧ t.part.trc.gather = s.part.trc.gather ++ b ∧ t.part.trc.served = k ∧
      (trcSource t.part k).queue = rest ∧ (canon s.part → wptr t.part = (wptr s.part + b.length) % 2 ^ 64)) ∧
  (∀ (s : State), awake s → s.part.trc.gather ≠ [] →
    (∀ q, rdoPut s.part (trcRing s.part) 3
        (chunkRecord false (wptr s.part - s.part.trc.gather.length) (s.part.trc.gather.take 4096)) = .written q →
      exec .chunkTimeout s = .next (withPart s { q with trc := { q.trc with gather := q.trc.gather.drop 4096 } })) ∧
    (rdoPut s.part (trcRing s.part) 3
        (chunkRecord false (wptr s.part - s.part.trc.gather.length) (s.part.trc.gather.take 4096)) = .waits →
      exec .chunkTimeout s = .next s ∧
      (s.part.trc.st = .running → fld s.part TRC_SINK = 1 →
        exec .sinkFullTimeout s = .next (withPart s (raise s.part 117 [(1, fld s.part TRC_RING)]))))) ∧
  (∀ (s : State) (h : Hdr) (ofs : Nat) (rest : List (Hdr × Nat)), awake s → s.part.trc.drains = (h, ofs) :: rest →
    wptr s.part ≤ ofs →
    exec .drainEnd s = .next (withPart s (complete (raise { s.part with trc := { s.part.trc with drains := rest } } 116
      [(8, min (wptr s.part) (fld s.part TRC_SIZE_MIB * 2 ^ 20))]) h .ok 0 0)))

/-- TIME_SET with the fabric not RUNNING and no START pending loads the counter, sets the tick to floor((device time −
E) / T) or 0, ends the frames of the transmit lanes until the next boundary and completes; while RUNNING or with a
START pending it completes with ERR_STATE, else with NS ≥ 10^9 or a reserved bit with ERR_PARAM. TIME_ADJ in SERVO
mode completes with ERR_STATE; else with a reserved bit with ERR_PARAM; otherwise it steps the counter when nothing
runs, no slew is under way and SLEW is 0, else it adds its offset to the slew and the counter stays. SLEW_END of a
slew that has nothing left or whose edges absorb leaves no slew and nothing to absorb and queues event 140 with the
total. TIME_INCREMENT waits in SOFTWARE mode with u0 and INC in range, else ends with ERR_STATE or ERR_PARAM;
INCREMENT_APPLY sets INC to the first one waiting, at the first edge at or after B(u0) or at the next edge, and
completes its command with the tick of that instant. The spindles and the grain are as before in each. The edges that
SLEW_END and INCREMENT_APPLY pass over (log 54), and that a slew waits in SERVO mode (log 50), are the model's choice.
-/
def Obligations.DeviceTimeCommands : Prop :=
  (∀ (s : State) (h : Hdr) (sec ns frac : Nat), awake s → mayRun s.part h 0x30 → sec = h.par 0x08 6 →
    ns = h.par 0x10 4 → frac = h.par 0x14 4 →
    (running s.part = true ∨ startPending s.part = true →
      exec (.timeSet h) s = .next (withPart s (complete (begun s.part h 0x30) h .errState 0 0))) ∧
    (running s.part = false → startPending s.part = false → h.rsv = true ∨ 10 ^ 9 ≤ ns →
      exec (.timeSet h) s = .next (withPart s (complete (begun s.part h 0x30) h .errParam 0 0))) ∧
    (running s.part = false → startPending s.part = false → h.rsv = false → ns < 10 ^ 9 → canon s.part →
      ∃ t : State, exec (.timeSet h) s = .next t ∧
        t.part.now = (sec * 10 ^ 9 + ns) * 2 ^ 32 + frac ∧
        t.part.tk.tick = (if 12 * 2 ^ 32 ≤ tickT s.part ∧ epochE s.part ≤ t.part.now
          then (t.part.now - epochE s.part) / tickT s.part else 0) ∧
        (∀ n < 128, txLane t.part n = { txLane s.part n with
          sentTick := if t.part.tk.reached then some t.part.tk.tick else none
          bits := [] }) ∧ t.part.lanes.rx = s.part.lanes.rx ∧
        t.part.sp = s.part.sp ∧ t.part.gr = s.part.gr ∧
        t.part.tim = { s.part.tim with tickRise := t.part.tim.tickRise, tickFall := t.part.tim.tickFall
                                       ppsRise := t.part.tim.ppsRise } ∧
        t.part.host.inflight = dropInflight h (begun s.part h 0x30).host.inflight)) ∧
  (∀ (s : State) (h : Hdr) (delta : Int) (slew : Bool), awake s → mayRun s.part h 0x31 →
    delta = signedOf 64 (h.par 0x08 8) * 2 ^ 32 + h.par 0x10 4 → slew = h.desc.getLsbD 160 →
    (fld s.part TIM_MODE = 1 → exec (.timeAdj h) s =
      .next (withPart s (complete (begun s.part h 0x31) h .errState 0 0))) ∧
    (fld s.part TIM_MODE ≠ 1 → h.rsv = true → exec (.timeAdj h) s =
      .next (withPart s (complete (begun s.part h 0x31) h .errParam 0 0))) ∧
    (fld s.part TIM_MODE ≠ 1 → h.rsv = false →
      (running s.part = false → startPending s.part = false → slew = false → s.part.tim.slewing = false →
        ∃ t : State, exec (.timeAdj h) s = .next t ∧
          (t.part.now : Int) = ((s.part.now : Int) + delta) % (2 ^ 48 * 10 ^ 9 * 2 ^ 32) ∧
          t.part.tk.tick = (if 12 * 2 ^ 32 ≤ tickT s.part ∧ epochE s.part ≤ t.part.now
            then (t.part.now - epochE s.part) / tickT s.part else 0) ∧
          t.part.tim = { s.part.tim with tickRise := t.part.tim.tickRise, tickFall := t.part.tim.tickFall
                                         ppsRise := t.part.tim.ppsRise } ∧
          t.part.sp = s.part.sp ∧ t.part.gr = s.part.gr) ∧
      (running s.part = true ∨ startPending s.part = true ∨ slew = true ∨ s.part.tim.slewing = true →
        ∃ t : State, exec (.timeAdj h) s = .next t ∧ t.part.now = s.part.now ∧ t.part.tk = s.part.tk ∧
          t.part.tim = { s.part.tim with
            slewing := true
            slewLeft := s.part.tim.slewLeft + delta
            slewTotal := (if s.part.tim.slewing then s.part.tim.slewTotal else 0) + delta
            atLimit := t.part.tim.atLimit } ∧
          t.part.sp = s.part.sp ∧ t.part.gr = s.part.gr ∧
          t.part.host.inflight = dropInflight h (begun s.part h 0x31).host.inflight))) ∧
  (∀ s : State, awake s →
    (s.part.tim.slewing = false ∨ s.part.tim.run = false → exec .slewEnd s = .next s) ∧
    (s.part.tim.slewing = true → s.part.tim.run = true →
      s.part.tim.slewLeft = 0 ∨ slewStep s.part ≠ 0 →
      ∃ (t : State) (q : Part), exec .slewEnd s = .next t ∧
        t.part = raise q 140 [(8, wrapCode 64 (s.part.tim.slewTotal / (2 ^ 32 : Int)))] ∧
        t.part.tim.slewing = false ∧ t.part.tim.slewLeft = 0 ∧ t.part.tk = s.part.tk ∧ t.part.sp = s.part.sp ∧
        t.part.gr = s.part.gr)) ∧
  (∀ (s : State) (h : Hdr) (u0 inc : Nat), awake s → mayRun s.part h 0x32 → u0 = h.par 0x08 8 →
    inc = h.par 0x14 1 % 16 * 2 ^ 32 + h.par 0x10 4 →
    let inRange := (u0 = 0 ∨ s.part.tk.tick + 1 ≤ u0 ∧ u0 ≤ s.part.tk.tick + 2 ^ 24) ∧
      ((((incBase s.part : Int) - (inc : Int)) * (10 ^ 9 * 2 ^ 48 : Int)).natAbs : Int) ≤ rateMax s.part
    (fld s.part TIM_MODE ≠ 2 → exec (.timeIncrement h) s =
      .next (withPart s (complete (begun s.part h 0x32) h .errState 0 0))) ∧
    (fld s.part TIM_MODE = 2 → h.rsv = true ∨ ¬inRange → exec (.timeIncrement h) s =
      .next (withPart s (complete (begun s.part h 0x32) h .errParam 0 0))) ∧
    (fld s.part TIM_MODE = 2 → h.rsv = false → inRange → exec (.timeIncrement h) s =
      .next (withPart s { begun s.part h 0x32 with
        tim := { s.part.tim with incWaits := s.part.tim.incWaits ++ [⟨h, u0, inc⟩] } }))) ∧
  (∀ s : State, awake s →
    (s.part.tim.incWaits = [] → exec .incrementApply s = .next s) ∧
    (∀ (w : IncWait) (r : Part), firstWait s.part.tim.incWaits = some w →
      r = (if w.u0 = 0 then timeEdge s.part else advanceTo s.part (boundaryAt s.part w.u0)) →
      ∃ (t : State) (q : Part), exec .incrementApply s = .next t ∧ t.part.now = r.now ∧
      t.part = complete q w.hdr .ok 0 (tickAt r r.now) ∧
      t.part.tim.softInc = some (w.inc, incBase s.part) ∧ t.part.tim.incWaits = s.part.tim.incWaits.erase w ∧
      t.part.host.inflight = dropInflight w.hdr s.part.host.inflight ∧ t.part.tk = s.part.tk ∧
      t.part.sp = s.part.sp ∧ t.part.gr = s.part.gr))

/-- A PPS_IN edge does nothing while TIM_PPSI_EN is 0. Otherwise it leaves its stamp in the registers TIM_PPSI_N and
TIM_PPSI_S; outside the window it only queues event 142; with the source PPS_IN in SERVO mode a measurement outside
the step branch gives integ := clamp(integ + ki × θ) and y := clamp(kp × θ + integ), and inside the step branch it
steps device time by θ and clears integ; TIM_OFFSET's θ is the measurement in both. HOLDOVER_TIMEOUT in ACQUIRE or
LOCKED enters HOLDOVER with y := integ, and does nothing in another state. PPS_OUT_PULSE raises PPS_OUT at the next
whole second that gave no pulse, counts it, and, the model's choice of log 54, brings device time to the first edge at
or after it when no slew acts. TIME_ALARM clears the enable. The rows of a disabled pin or alarm do nothing. -/
def Obligations.MeasurementsPinsAndAlarm : Prop :=
  (∀ (s : State) (frac : Fin 512), awake s →
    let stamp : Int := (s.part.now + incNow s.part * frac.val / 512 : Nat) - psField s.part TIM_PPSI_ING_PS 0
    let second : Int := 10 ^ 9 * 2 ^ 32
    let taken := (stamp % (2 ^ 48 * 10 ^ 9 * 2 ^ 32)).toNat
    let theta := if 2 * (stamp % second) ≤ second then stamp % second else stamp % second - second
    let window := fld s.part TIM_PPSI_WIN_US * 1000 * 2 ^ 32
    let stepBranch := s.part.tim.srv ≠ .holdover ∧ fld s.part TIM_STEP_NS * 2 ^ 32 < theta.natAbs ∧
      fld s.part TIM_STEP_EN = 1 ∧ running s.part = false ∧ startPending s.part = false
    (fld s.part TIM_PPSI_EN = 0 → exec (.ppsInEdge frac) s = .next s) ∧
    (fld s.part TIM_PPSI_EN = 1 → canon s.part → ∃ t : State, exec (.ppsInEdge frac) s = .next t ∧
      fld t.part TIM_PPSI_N = nsOf taken ∧ fld t.part TIM_PPSI_S = secOf taken % 2 ^ 32 ∧
      t.part.sp = s.part.sp ∧ t.part.gr = s.part.gr ∧
      (window ≠ 0 → window < theta.natAbs → t.part.tim = s.part.tim ∧ t.part.now = s.part.now ∧
        ∃ q : Part, t.part = raise q 142 [(4, satCode 32 (theta / (2 ^ 32 : Int)))]) ∧
      (window = 0 ∨ theta.natAbs ≤ window → fld s.part TIM_SRC ≠ 2 → t.part.tim = s.part.tim ∧ t.part.now = s.part.now) ∧
      (window = 0 ∨ theta.natAbs ≤ window → fld s.part TIM_SRC = 2 → fld s.part TIM_MODE = 1 →
        t.part.tim.theta = theta ∧
        (¬stepBranch → t.part.now = s.part.now ∧
          t.part.tim.integ = clampTo (fld s.part TIM_YMAX_PPB * 2 ^ 48 : Nat)
            (s.part.tim.integ + fld s.part TIM_KI_VAL * theta) ∧
          t.part.tim.y = clampTo (fld s.part TIM_YMAX_PPB * 2 ^ 48 : Nat)
            (fld s.part TIM_KP_VAL * theta + t.part.tim.integ)) ∧
        (stepBranch → (t.part.now : Int) = ((s.part.now : Int) - theta) % (2 ^ 48 * 10 ^ 9 * 2 ^ 32) ∧
          t.part.tim.integ = 0 ∧ t.part.tim.y = s.part.tim.y)))) ∧
  (∀ s : State, awake s →
    (s.part.tim.srv = .acquire ∨ s.part.tim.srv = .locked → ∃ t : State, exec .holdoverTimeout s = .next t ∧
      t.part.tim.srv = .holdover ∧ t.part.tim.y = s.part.tim.integ ∧ t.part.tim.integ = s.part.tim.integ ∧
      t.part.now = s.part.now ∧ t.part.sp = s.part.sp ∧ t.part.gr = s.part.gr) ∧
    (s.part.tim.srv ≠ .acquire → s.part.tim.srv ≠ .locked → exec .holdoverTimeout s = .next s)) ∧
  (∀ (s : State) (whole rise : Nat), awake s →
    whole = (s.part.now + (10 ^ 9 * 2 ^ 32 - 1)) / (10 ^ 9 * 2 ^ 32) * (10 ^ 9 * 2 ^ 32) →
    rise = (if s.part.now = whole ∧ s.part.tim.ppsRise = some whole then whole + 10 ^ 9 * 2 ^ 32 else whole) →
    (fld s.part TIM_PPSO_EN = 0 ∨ s.part.tim.run = false → exec .ppsOutPulse s = .next s) ∧
    (fld s.part TIM_PPSO_EN = 1 → s.part.tim.run = true → ∃ t : State, exec .ppsOutPulse s = .next t ∧
      t.part.tim.ppsPulses = s.part.tim.ppsPulses + 1 ∧ t.part.tk = s.part.tk ∧ t.part.sp = s.part.sp ∧
      t.part.gr = s.part.gr ∧ t.part.regs = s.part.regs ∧
      t.part.tim.ppsRise = some rise ∧ (rise ≤ s.part.now → t.part.now = s.part.now) ∧
      (∀ k, s.part.tim.slewing = false → 0 < incNow s.part → rise ≤ s.part.now + (k + 1) * incNow s.part →
        s.part.now + k * incNow s.part < rise →
        t.part.now = (s.part.now + (k + 1) * incNow s.part) % (2 ^ 48 * 10 ^ 9 * 2 ^ 32)))) ∧
  (∀ s : State, awake s →
    (fld s.part TIM_ALARM_EN = 0 → exec .timeAlarm s = .next s) ∧
    (fld s.part TIM_ALARM_EN = 1 → canon s.part → ∃ t : State, exec .timeAlarm s = .next t ∧
      fld t.part TIM_ALARM_EN = 0 ∧ t.part.tk = s.part.tk ∧ t.part.sp = s.part.sp ∧ t.part.gr = s.part.gr))

/-- A management frame is forwarded only while PTP_TC_EN is 1 and the other port's link is up: it leaves at the first
grid instant that is `through` after its arrival and not before the port is free; an event message leaves with its
residence time added to its correctionField and every other frame unchanged, and each kind is counted. A link change
is taken and reported; a port that goes down drops the frames that wait for it. An Announce for the ordinary clock
with stepsRemoved below 255 enters the masters heard, the master is then the best of them, with its UTC offset, and a
timeout drops the master; other Announces do nothing. A one-step Sync, or the Follow_Up of a two-step Sync, from the
master gives θ = (t2 − t1) − path delay − asymmetry and feeds the servo when the source is PTP; a two-step Sync waits;
a Delay_Req leaves with a new sequence number, the part's clockIdentity and t3; its Delay_Resp, of that sequence
number, clockIdentity and portNumber 1, adds the path delay ((t2 − t1) + (t4 − t3)) / 2 to those averaged, and another
does nothing. The layout of the messages, the comparison of data sets and the state that PTP_STATUS shows are the
model's (log 51). -/
def Obligations.ManagementPortsAndOrdinaryClock : Prop :=
  (∀ (s : State) (port : Fin 2) (frame : List Byte) (frac : Fin 512) (through out launch : Nat) (stay : Int), awake s →
    out = 1 - port.val →
    launch = gridInstant s.part (max (frac.val + through) (gridAfter s.part (portFree s.part out))) →
    stay = (launch : Int) + psField s.part PTP_EGR_PS out -
      ((instant s.part frac : Int) - psField s.part PTP_ING_PS port.val) →
    (fld s.part PTP_TC_EN = 0 ∨ mgmtUp s.part out = false → exec (.mgmtFrame port frame frac through) s = .next s) ∧
    (fld s.part PTP_TC_EN = 1 → mgmtUp s.part out = true →
      ∃ t : State, exec (.mgmtFrame port frame frac through) s = .next t ∧
        t.part.tim.ptp.egress = s.part.tim.ptp.egress.filter (fun e => decide (s.part.now < e.launch)) ++
          [⟨out, launch, if mgmtKind frame = .event then corrected frame (stay / 2 ^ 16) else frame⟩] ∧
        portFree t.part out = launch + frameTime frame ∧
        t.part.now = s.part.now ∧ t.part.tk = s.part.tk ∧ t.part.sp = s.part.sp ∧ t.part.gr = s.part.gr ∧
        t.part.host = s.part.host ∧
        (canon s.part →
          (mgmtKind frame = .event →
            fldI t.part PTP_CORR_COUNT out = min (fldI s.part PTP_CORR_COUNT out + 1) (2 ^ 32 - 1)) ∧
          (mgmtKind frame = .twoStep →
            fldI t.part PTP_TWOSTEP_COUNT out = min (fldI s.part PTP_TWOSTEP_COUNT out + 1) (2 ^ 32 - 1)) ∧
          (mgmtKind frame = .pass →
            fldI t.part PTP_PASS_COUNT out = min (fldI s.part PTP_PASS_COUNT out + 1) (2 ^ 32 - 1)) ∧
          (mgmtKind frame = .other → t.part.regs = s.part.regs)))) ∧
  (∀ (s : State) (port : Fin 2) (up : Bool), awake s →
    (mgmtUp s.part port.val = up → exec (.mgmtLinkChange port up) s = .next s) ∧
    (mgmtUp s.part port.val ≠ up → canon s.part → ∃ t : State, exec (.mgmtLinkChange port up) s = .next t ∧
      mgmtUp t.part port.val = up ∧ (∀ q : Fin 2, q ≠ port → mgmtUp t.part q.val = mgmtUp s.part q.val) ∧
      t.part.tim = { s.part.tim with ptp := { s.part.tim.ptp with
        egress := if up then s.part.tim.ptp.egress else
          s.part.tim.ptp.egress.filter (fun e => e.port != port.val || decide (e.launch ≤ s.part.now)) } } ∧
      t.part.sp = s.part.sp ∧ t.part.gr = s.part.gr)) ∧
  (∀ (s : State) (frame : List Byte), awake s →
    (ocMessage s.part 11 frame = none → exec (.ptpAnnounce frame) s = .next s) ∧
    (∀ (m : PtpMsg) (a : Announce), ocMessage s.part 11 frame = some m → a = announceOf m →
      (255 ≤ a.steps → exec (.ptpAnnounce frame) s = .next s) ∧
      (a.steps < 255 → ∃ t : State, exec (.ptpAnnounce frame) s = .next t ∧
        t.part.tim.ptp.heard = a :: s.part.tim.ptp.heard.filter (fun b => !sameSender a b) ∧
        t.part.tim.ptp.master = bestMaster t.part.tim.ptp.heard ∧
        (∀ b, t.part.tim.ptp.master = some b → canon s.part →
          fld t.part PTP_UTC_OFS = wrapCode 16 b.utc ∧ fld t.part PTP_UTC_VALID = if b.utcValid then 1 else 0) ∧
        t.part.now = s.part.now ∧ t.part.sp = s.part.sp ∧ t.part.gr = s.part.gr))) ∧
  (∀ s : State, awake s →
    (s.part.tim.ptp.master = none → exec .announceTimeout s = .next s) ∧
    (∀ a, s.part.tim.ptp.master = some a → ∃ t : State, exec .announceTimeout s = .next t ∧
      t.part.tim.ptp.heard = s.part.tim.ptp.heard.filter (fun b => !sameSender a b) ∧
      t.part.tim.ptp.master = bestMaster t.part.tim.ptp.heard ∧
      t.part.now = s.part.now ∧ t.part.sp = s.part.sp ∧ t.part.gr = s.part.gr)) ∧
  (∀ (s : State) (frame : List Byte) (frac : Fin 512) (t2 : Int), awake s →
    t2 = (instant s.part frac : Int) - psField s.part PTP_ING_PS (ocPort s.part) →
    (masterMessage s.part 0 frame = none → exec (.ptpSync frame frac) s = .next s) ∧
    (∀ m, masterMessage s.part 0 frame = some m → m.twoStep = true → exec (.ptpSync frame frac) s =
      .next (withPart s { s.part with tim := { s.part.tim with ptp := { s.part.tim.ptp with
        sync := some (m.seq, t2, m.correction) } } })) ∧
    (∀ (m : PtpMsg) (t1 : Int), masterMessage s.part 0 frame = some m → m.twoStep = false →
      t1 = stampUnits m + m.correction * 2 ^ 16 → ∃ t : State, exec (.ptpSync frame frac) s = .next t ∧
        t.part.tim.ptp = { s.part.tim.ptp with last21 := some (t2 - t1), sync := none } ∧
        t.part.tim.theta = (if fld s.part TIM_SRC = 0
          then (t2 - t1) - pathDelay s.part - psField s.part PTP_ASYM_PS (ocPort s.part) else s.part.tim.theta) ∧
        t.part.sp = s.part.sp ∧ t.part.gr = s.part.gr ∧
        (fld s.part TIM_SRC ≠ 0 ∨ fld s.part TIM_MODE ≠ 1 → t.part.now = s.part.now))) ∧
  (∀ (s : State) (frame : List Byte), awake s →
    (∀ (seq : Nat) (t2 c t1 : Int) (m : PtpMsg), s.part.tim.ptp.sync = some (seq, t2, c) →
      masterMessage s.part 8 frame = some m → seq = m.seq → t1 = stampUnits m + (m.correction + c) * 2 ^ 16 →
      ∃ t : State, exec (.ptpFollowUp frame) s = .next t ∧
        t.part.tim.ptp = { s.part.tim.ptp with last21 := some (t2 - t1), sync := none } ∧
        t.part.tim.theta = (if fld s.part TIM_SRC = 0
          then (t2 - t1) - pathDelay s.part - psField s.part PTP_ASYM_PS (ocPort s.part) else s.part.tim.theta) ∧
        t.part.sp = s.part.sp ∧ t.part.gr = s.part.gr) ∧
    ((∀ seq t2 c m, s.part.tim.ptp.sync = some (seq, t2, c) → masterMessage s.part 8 frame = some m → seq ≠ m.seq) →
      exec (.ptpFollowUp frame) s = .next s)) ∧
  (∀ (s : State) (frac : Fin 512) (seq : Nat), awake s → seq = (s.part.tim.ptp.reqSeq + 1) % 65536 →
    (ocOn s.part = true → mgmtUp s.part (ocPort s.part) = true → s.part.tim.ptp.master ≠ none →
      ∃ t : State, exec (.delayReqSend frac) s = .next t ∧ t.part.tim.ptp.reqSeq = seq ∧
        t.part.tim.ptp.req = some (seq, (instant s.part frac : Int) + psField s.part PTP_EGR_PS (ocPort s.part)) ∧
        t.part.tim.ptp.egress = s.part.tim.ptp.egress.filter (fun e => decide (s.part.now < e.launch)) ++
          [⟨ocPort s.part, instant s.part frac, ptpFrame (fldOn s.part PTP_TRANSPORT) (beAt (macOctets s.part) 0 6)
            (fld s.part PTP_IP) (delayReqMessage (clockIdentity s.part) (fld s.part PTP_DOMAIN) seq)⟩] ∧
        t.part.now = s.part.now ∧ t.part.regs = s.part.regs ∧ t.part.sp = s.part.sp ∧ t.part.gr = s.part.gr) ∧
    (ocOn s.part = false ∨ mgmtUp s.part (ocPort s.part) = false ∨ s.part.tim.ptp.master = none →
      exec (.delayReqSend frac) s = .next s)) ∧
  (∀ (s : State) (frame : List Byte), awake s →
    (∀ (seq : Nat) (t3 t4 : Int) (m : PtpMsg), s.part.tim.ptp.req = some (seq, t3) →
      masterMessage s.part 9 frame = some m → seq = m.seq → beAt m.bytes 44 8 = clockIdentity s.part →
      beAt m.bytes 52 2 = 1 → t4 = stampUnits m - m.correction * 2 ^ 16 →
      ∃ t : State, exec (.ptpDelayResp frame) s = .next t ∧
        t.part.tim = { s.part.tim with ptp := { s.part.tim.ptp with
          req := none
          logReq := m.logInterval
          delays := match s.part.tim.ptp.last21 with
            | some d => (((d + (t4 - t3)) / 2) :: s.part.tim.ptp.delays).take (fld s.part PTP_DELAY_AVG + 1)
            | none => s.part.tim.ptp.delays } } ∧
        t.part.now = s.part.now ∧ t.part.tk = s.part.tk ∧ t.part.sp = s.part.sp ∧ t.part.gr = s.part.gr) ∧
    ((∀ seq t3 m, s.part.tim.ptp.req = some (seq, t3) → masterMessage s.part 9 frame = some m →
        seq ≠ m.seq ∨ beAt m.bytes 44 8 ≠ clockIdentity s.part ∨ beAt m.bytes 52 2 ≠ 1) →
      exec (.ptpDelayResp frame) s = .next s))

/-- MON_CONVERT of a channel above 55 completes with ERR_PARAM, of an absent monitor with ERR_STATE; the idle
converter takes it up, one without URGENT waits for the conversion in progress or is held during calibration, one with
URGENT aborts the conversion, which is to be repeated, or the calibration. MONITOR_SCAN starts a scan of the enabled
channels in ascending order; with MON_OW_SCANS scans begun, the channels of mode 3 begin their open-wire check, whose
conversions are the scan slots from MON_OW_SETTLE_US after its pull was turned on (the model's reading, log 53).
CONVERSION_END of such a conversion keeps its code for the check, first with the pull-up and then with the pull-down,
and changes no register; of another it enters the code with VALID and one more SEQ, completes the MON_CONVERT it
served, and sets the channel's MON_ALARM bit beyond an enabled limit. OPEN_WIRE_CHECK of a channel with both codes
sets or clears its bit by u − d against the threshold, touches no other channel's, and ends the check; of another
channel it does nothing. MONITOR_CALIBRATION of a present monitor starts the calibration when the converter is idle,
and otherwise makes it wait. THERMAL_COMPARATOR records CATCH_THERMAL with block 20, the die and the code. -/
def Obligations.MonitorAndThermal : Prop :=
  (∀ (s : State) (h : Hdr) (ch : Nat), awake s → commandRuns s.part h 0x40 → ch = h.par 0x08 1 →
    let b := begun s.part h 0x40
    let c : Conv := ⟨ch, some h, h.urgent, false⟩
    (55 < ch → exec (.monConvert h) s = .next (withPart s (complete b h .errParam 0 0))) ∧
    (ch ≤ 55 → unitAbsent s.part 20 = true →
      exec (.monConvert h) s = .next (withPart s (complete b h .errState 0 0))) ∧
    (ch ≤ 55 → unitAbsent s.part 20 = false →
      (testOf s.part 7 = 1 → h.urgent = false → exec (.monConvert h) s =
        .next (withPart s { b with mon := { s.part.mon with held := s.part.mon.held ++ [c] } })) ∧
      (testOf s.part 7 ≠ 1 → s.part.mon.cur = none → s.part.mon.urgent = [] → s.part.mon.again = none →
        s.part.mon.waiting = [] → exec (.monConvert h) s =
          .next (withPart s { b with mon := { s.part.mon with cur := some c } })) ∧
      (testOf s.part 7 ≠ 1 → s.part.mon.cur ≠ none → h.urgent = false → exec (.monConvert h) s =
        .next (withPart s { b with mon := { s.part.mon with waiting := s.part.mon.waiting ++ [c] } })) ∧
      (∀ d, testOf s.part 7 ≠ 1 → s.part.mon.cur = some d → d.urgent = false → s.part.mon.urgent = [] →
        h.urgent = true → exec (.monConvert h) s =
          .next (withPart s { b with mon := { s.part.mon with cur := some c, again := some d } })) ∧
      (testOf s.part 7 = 1 → s.part.mon.cur = none → s.part.mon.urgent = [] → h.urgent = true →
        smapWf (fun _ => (0 : Nat)) s.part.boot.tests = true →
        ∃ t : State, exec (.monConvert h) s = .next t ∧ testOf t.part 7 ≠ 1 ∧
          t.part.mon = { s.part.mon with cur := some c, waiting := s.part.mon.waiting ++ s.part.mon.held
                                         held := [], calNext := true } ∧
          t.part.tk = s.part.tk ∧ t.part.sp = s.part.sp ∧ t.part.gr = s.part.gr))) ∧
  (∀ s : State, awake s →
    (fld s.part MON_SCAN_EN = 0 ∨ scanBusy s.part = true ∨ s.part.boot.ps = .powerup →
      exec .monitorScan s = .next s) ∧
    (∀ (ch : Nat) (l : List Nat) (q : Part), q = countScan s.part → fld s.part MON_SCAN_EN = 1 → scanBusy s.part = false → s.part.boot.ps ≠ .powerup →
      unitAbsent s.part 20 = false → testOf s.part 7 ≠ 1 → s.part.mon.cur = none → s.part.mon.urgent = [] →
      s.part.mon.again = none → s.part.mon.waiting = [] → s.part.mon.calNext = false →
      (List.range 56).filter (scanned s.part) = ch :: l → exec .monitorScan s =
        .next (withPart s { q with mon := { q.mon with cur := some ⟨ch, none, false, checkSlot q ch⟩, scan := l } }))) ∧
  (∀ (p : Part) (ch : Nat), ch < 32 → smapWf (fun _ => (none : Option OpenWire)) p.mon.checks = true →
    (p.mon.scans + 1 < fld p MON_OW_SCANS →
      countScan p = { p with mon := { p.mon with scans := p.mon.scans + 1 } }) ∧
    (fld p MON_OW_SCANS ≤ p.mon.scans + 1 → (countScan p).mon.scans = 0 ∧
      openWire (countScan p) ch =
        if pullMode p ch = 3 ∧ openWire p ch = none then some ⟨none, none, p.now⟩ else openWire p ch) ∧
    (∀ w, openWire p ch = some w → (checkSlot p ch = true ↔ (w.up = none ∨ w.down = none) ∧
      w.since + (fld p MON_OW_SETTLE_US * 1000 * 2 ^ 32 : Nat) ≤ (p.now : Int))) ∧
    (openWire p ch = none → checkSlot p ch = false)) ∧
  (∀ (s : State) (code : BitVec 12), awake s →
    (s.part.mon.cur = none → exec (.conversionEnd code) s = .next s) ∧
    (∀ c, s.part.mon.cur = some c → c.check = true →
      smapWf (fun _ => (none : Option OpenWire)) s.part.mon.checks = true →
      ∃ t : State, exec (.conversionEnd code) s = .next t ∧ t.part.regs = s.part.regs ∧ t.part.host = s.part.host ∧
        (∀ x, openWire s.part c.ch = some ⟨none, none, x⟩ →
          openWire t.part c.ch = some ⟨some code.toNat, none, s.part.now⟩) ∧
        (∀ u x, openWire s.part c.ch = some ⟨some u, none, x⟩ →
          openWire t.part c.ch = some ⟨some u, some code.toNat, x⟩)) ∧
    (∀ c, s.part.mon.cur = some c → c.check = false → c.ch < 56 → canon s.part → ∃ t : State, exec (.conversionEnd code) s = .next t ∧
      fldI t.part MON_CODE c.ch = code.toNat ∧ fldI t.part MON_VALID c.ch = 1 ∧
      fldI t.part MON_SEQ c.ch = (fldI s.part MON_SEQ c.ch + 1) % 65536 ∧
      (∀ n, n < 56 → n ≠ c.ch → fldI t.part MON_CODE n = fldI s.part MON_CODE n ∧
        fldI t.part MON_SEQ n = fldI s.part MON_SEQ n) ∧
      (code.toNat < fldI s.part MON_LO c.ch ∨ fldI s.part MON_HI c.ch < code.toNat → fldI s.part MON_LIM_EN c.ch = 1 →
        (if c.ch < 32 then (fld t.part MON_ALARM_L).testBit c.ch else (fld t.part MON_ALARM_H).testBit (c.ch - 32)) =
          true) ∧
      (∀ h, c.hdr = some h → t.part.host.inflight = dropInflight h s.part.host.inflight) ∧
      (c.hdr = none → t.part.host.inflight = s.part.host.inflight) ∧
      t.part.tk = s.part.tk ∧ t.part.sp = s.part.sp ∧ t.part.gr = s.part.gr)) ∧
  (∀ (s : State) (ch : Fin 32), awake s →
    ((∀ u d x, openWire s.part ch.val ≠ some ⟨some u, some d, x⟩) → exec (.openWireCheck ch) s = .next s) ∧
    (∀ u d x, openWire s.part ch.val = some ⟨some u, some d, x⟩ → canon s.part →
      smapWf (fun _ => (none : Option OpenWire)) s.part.mon.checks = true →
      ∃ t : State, exec (.openWireCheck ch) s = .next t ∧
        ((fld t.part MON_OW_OPEN).testBit ch.val = decide (d + fld s.part MON_OW_THRESH ≤ u)) ∧
        (∀ n : Fin 32, n ≠ ch → (fld t.part MON_OW_OPEN).testBit n.val = (fld s.part MON_OW_OPEN).testBit n.val) ∧
        openWire t.part ch.val = none ∧ (∀ n, n ≠ ch.val → openWire t.part n = openWire s.part n) ∧
        t.part.tk = s.part.tk ∧ t.part.sp = s.part.sp ∧ t.part.gr = s.part.gr)) ∧
  (∀ s : State, awake s →
    (fld s.part MON_CAL_MS = 0 ∨ testOf s.part 7 = 1 ∨ testOf s.part 7 = 0 ∨ unitAbsent s.part 20 = true →
      exec .monitorCalibration s = .next s) ∧
    (fld s.part MON_CAL_MS ≠ 0 → testOf s.part 7 ≠ 1 → testOf s.part 7 ≠ 0 → unitAbsent s.part 20 = false →
      (s.part.mon.cur ≠ none → exec .monitorCalibration s =
        .next (withPart s { s.part with mon := { s.part.mon with calNext := true } })) ∧
      (s.part.mon.cur = none → s.part.mon.urgent = [] → s.part.mon.again = none → s.part.mon.waiting = [] →
        ∃ t : State, exec .monitorCalibration s = .next t ∧ testOf t.part 7 = 1 ∧
          t.part.mon = { s.part.mon with calNext := false } ∧ t.part.regs = s.part.regs ∧ t.part.host = s.part.host ∧
          t.part.tk = s.part.tk ∧ t.part.sp = s.part.sp ∧ t.part.gr = s.part.gr))) ∧
  (∀ (s : State) (die : Fin 4) (code : BitVec 12), awake s →
    let r : CatchRec := ⟨.thermal, if s.part.tk.classSeen.contains .thermal then 0 else 32, .block 20, s.part.tk.tick,
      if running s.part then stepNow s.part else 2 ^ 20 - 1, die.val + code.toNat * 4, 0⟩
    ∃ t : State, exec (.thermalComparator die code) s = .next t ∧ t.part.sp = s.part.sp ∧ t.part.gr = s.part.gr ∧
      t.part.tk.tick = s.part.tk.tick ∧ t.part.tk.fab = s.part.tk.fab ∧ t.part.tk.halt = s.part.tk.halt ∧
      (s.part.tk.catchLog.any (sameCatch r) = false → s.part.tk.catchLog.length < 256 →
        t.part.tk.catchLog = putCatch r s.part.tk.catchLog ∧ CatchClass.thermal ∈ t.part.tk.classSeen))

/-- For every state, whatever command is at the front of the queue (or none), every byte address and every bit: a bit
of the OTP that reads 1 before a step reads 1 after it. Resets, power cycles, failed records and every other command
are included. -/
def Obligations.OtpBitsStayProgrammed : Prop :=
  ∀ (s t : State) (a i : Nat), step s = .next t →
    (smapGet (fun _ => (0 : Byte)) s.part.boot.otp a).getLsbD i = true →
    (smapGet (fun _ => (0 : Byte)) t.part.boot.otp a).getLsbD i = true

/-- From every state whose maps of registers, host memory, OTP, receive and transmit lanes, data memories, instruction
memories and table memories are in canonical form (keys strictly rising, no entry equal to what an unlisted key reads
as), a step answers only states whose maps are too. So equal contents are equal data after any command. -/
def Obligations.EveryStepKeepsTheCanonicalForm : Prop :=
  ∀ s t : State, canon s.part → step s = .next t → canon t.part

/-- Registers, host memory, OTP, lanes and memories of the state right after power-on are in canonical form: the
premise of the statements that ask for it holds there. The contents of the OTP are the model's factory record (log 4).
-/
def Obligations.TheResetStateIsCanonical : Prop :=
  canon State.reset.part ∧ State.reset.pending = []
end

