-- ==== Sys2Proof/Laws/Ecc.lean ====
section
/-!
SUPPORT. The SECDED code of R56: no two columns of its check matrix are alike and all are of odd weight, whatever columns the
data bits have; so what the decoder finds is a fixed function of the 72 stored bits.
-/
namespace Sys2Proof.Laws
open Sys2Proof.Machine

theorem pickFrom_length (pick : Nat → Nat) (n : Nat) (l : List (BitVec 8)) : (pickFrom pick n l).length = n := by
  induction n generalizing l with
  | zero => rfl
  | succ n ih => simp [pickFrom, ih]

/-- What is picked are members of the list, no two alike when it has no two alike and is long enough. -/
theorem pickFrom_sub (pick : Nat → Nat) (n : Nat) (l : List (BitVec 8)) (hn : n ≤ l.length) (hl : l.Nodup) :
    (∀ v ∈ pickFrom pick n l, v ∈ l) ∧ (pickFrom pick n l).Nodup := by
  induction n generalizing l with
  | zero => simp [pickFrom]
  | succ n ih =>
    have hk : pick n % l.length < l.length := Nat.mod_lt _ (by omega)
    obtain ⟨hsub, hnd⟩ := ih (l.eraseIdx (pick n % l.length)) (by rw [List.length_eraseIdx_of_lt hk]; omega)
      (hl.eraseIdx _)
    have hget : l.getD (pick n % l.length) 0 = l[pick n % l.length] := by simp [List.getD, hk]
    refine ⟨?_, ?_⟩
    · intro v hv
      simp only [pickFrom, List.mem_cons, hget] at hv
      rcases hv with rfl | hv
      · exact List.getElem_mem hk
      · exact List.mem_of_mem_eraseIdx (hsub v hv)
    · simp only [pickFrom, List.nodup_cons, hget]
      refine ⟨fun h => ?_, hnd⟩
      have h := hsub _ h
      rw [List.mem_eraseIdx_iff_getElem] at h
      obtain ⟨j, hj, hne, he⟩ := h
      exact hne ((hl.getElem_inj_iff).1 he)

theorem oddBytes_facts : oddBytes.length = 120 ∧ oddBytes.Nodup ∧ (∀ v ∈ oddBytes, oddByte v = true ∧ v ∉ unitBytes) := by
  refine ⟨by decide +kernel, by decide +kernel, by decide +kernel⟩

theorem eccColumns_facts : eccColumns.length = 72 ∧ eccColumns.Nodup ∧ ∀ v ∈ eccColumns, oddByte v = true := by
  obtain ⟨hlen, hnd, hodd⟩ := oddBytes_facts
  obtain ⟨hsub, hn⟩ := pickFrom_sub Config.eccPick 64 oddBytes (by omega) hnd
  refine ⟨by simp [eccColumns, pickFrom_length, unitBytes], ?_, ?_⟩
  · refine List.nodup_append.2 ⟨hn, by decide, fun a ha b hb h => ?_⟩
    exact (hodd a (hsub a ha)).2 (h ▸ hb)
  · intro v hv
    rcases List.mem_append.1 hv with h | h
    · exact (hodd v (hsub v h)).1
    · have hu : ∀ v ∈ unitBytes, oddByte v = true := by decide
      exact hu v h

theorem eccColumn_odd {b : Nat} (h : b < 72) : oddByte (eccColumn b) = true := by
  have hb : b < eccColumns.length := by rw [eccColumns_facts.1]; exact h
  have : eccColumn b = eccColumns[b] := by simp [eccColumn, List.getD, hb]
  rw [this]; exact eccColumns_facts.2.2 _ (List.getElem_mem hb)

theorem eccColumn_inj {a b : Nat} (ha : a < 72) (hb : b < 72) (h : eccColumn a = eccColumn b) : a = b := by
  have la : a < eccColumns.length := by rw [eccColumns_facts.1]; exact ha
  have lb : b < eccColumns.length := by rw [eccColumns_facts.1]; exact hb
  have ea : eccColumn a = eccColumns[a] := by simp [eccColumn, List.getD, la]
  have eb : eccColumn b = eccColumns[b] := by simp [eccColumn, List.getD, lb]
  rw [ea, eb] at h
  exact (eccColumns_facts.2.1.getElem_inj_iff).1 h

/-- The weight of a sum is odd when just one of the two is. -/
theorem oddByte_xor (a b : BitVec 8) : oddByte (a ^^^ b) = (oddByte a ^^ oddByte b) := by
  have sw : ∀ p q r s : Bool, ((p ^^ q) ^^ (r ^^ s)) = ((p ^^ r) ^^ (q ^^ s)) := by decide
  simp only [oddByte, BitVec.getLsbD_xor]
  rw [sw (a.getLsbD 0) (b.getLsbD 0) (a.getLsbD 1) (b.getLsbD 1),
    sw (a.getLsbD 0 ^^ a.getLsbD 1) (b.getLsbD 0 ^^ b.getLsbD 1) (a.getLsbD 2) (b.getLsbD 2),
    sw (a.getLsbD 0 ^^ a.getLsbD 1 ^^ a.getLsbD 2) (b.getLsbD 0 ^^ b.getLsbD 1 ^^ b.getLsbD 2) (a.getLsbD 3) (b.getLsbD 3),
    sw (a.getLsbD 0 ^^ a.getLsbD 1 ^^ a.getLsbD 2 ^^ a.getLsbD 3) (b.getLsbD 0 ^^ b.getLsbD 1 ^^ b.getLsbD 2 ^^ b.getLsbD 3) (a.getLsbD 4) (b.getLsbD 4),
    sw (a.getLsbD 0 ^^ a.getLsbD 1 ^^ a.getLsbD 2 ^^ a.getLsbD 3 ^^ a.getLsbD 4) (b.getLsbD 0 ^^ b.getLsbD 1 ^^ b.getLsbD 2 ^^ b.getLsbD 3 ^^ b.getLsbD 4) (a.getLsbD 5) (b.getLsbD 5),
    sw (a.getLsbD 0 ^^ a.getLsbD 1 ^^ a.getLsbD 2 ^^ a.getLsbD 3 ^^ a.getLsbD 4 ^^ a.getLsbD 5) (b.getLsbD 0 ^^ b.getLsbD 1 ^^ b.getLsbD 2 ^^ b.getLsbD 3 ^^ b.getLsbD 4 ^^ b.getLsbD 5) (a.getLsbD 6) (b.getLsbD 6),
    sw (a.getLsbD 0 ^^ a.getLsbD 1 ^^ a.getLsbD 2 ^^ a.getLsbD 3 ^^ a.getLsbD 4 ^^ a.getLsbD 5 ^^ a.getLsbD 6) (b.getLsbD 0 ^^ b.getLsbD 1 ^^ b.getLsbD 2 ^^ b.getLsbD 3 ^^ b.getLsbD 4 ^^ b.getLsbD 5 ^^ b.getLsbD 6) (a.getLsbD 7) (b.getLsbD 7)]

theorem columnSum_xor (x y n : Nat) : columnSum (x ^^^ y) n = columnSum x n ^^^ columnSum y n := by
  induction n with
  | zero => simp [columnSum]
  | succ n ih =>
    have e : (if (x.testBit n ^^ y.testBit n) = true then eccColumn n else 0) =
        (if x.testBit n = true then eccColumn n else 0) ^^^ (if y.testBit n = true then eccColumn n else 0) := by
      cases x.testBit n <;> cases y.testBit n <;> simp
    simp only [columnSum, ih, Nat.testBit_xor, e]
    ac_rfl

theorem columnSum_congr {x y n : Nat} (h : ∀ i < n, x.testBit i = y.testBit i) : columnSum x n = columnSum y n := by
  induction n with
  | zero => rfl
  | succ n ih => simp only [columnSum, ih (fun i hi => h i (by omega)), h n (by omega)]

theorem columnSum_of_none {x n : Nat} (h : popCount x n = 0) : columnSum x n = 0 := by
  induction n with
  | zero => rfl
  | succ n ih =>
    simp only [popCount] at h
    cases hb : x.testBit n <;> simp_all [columnSum]

theorem columnSum_of_one {x n : Nat} (h : popCount x n = 1) :
    ∃ b, b < n ∧ highBit x n = some b ∧ columnSum x n = eccColumn b := by
  induction n with
  | zero => simp [popCount] at h
  | succ n ih =>
    simp only [popCount] at h
    cases hb : x.testBit n
    · obtain ⟨b, hlt, hhi, hs⟩ := ih (by simpa [hb] using h)
      exact ⟨b, by omega, by simp [highBit, hb, hhi], by simp [columnSum, hb, hs]⟩
    · have h0 : popCount x n = 0 := by simpa [hb] using h
      exact ⟨n, by omega, by simp [highBit, hb], by simp [columnSum, hb, columnSum_of_none h0]⟩

theorem columnSum_of_two {x n : Nat} (h : popCount x n = 2) :
    ∃ a b, a < b ∧ b < n ∧ columnSum x n = eccColumn a ^^^ eccColumn b := by
  induction n with
  | zero => simp [popCount] at h
  | succ n ih =>
    simp only [popCount] at h
    cases hb : x.testBit n
    · obtain ⟨a, b, hab, hlt, hs⟩ := ih (by simpa [hb] using h)
      exact ⟨a, b, hab, by omega, by simp [columnSum, hb, hs]⟩
    · have h1 : popCount x n = 1 := by simpa [hb] using h
      obtain ⟨a, hlt, -, hs⟩ := columnSum_of_one h1
      exact ⟨a, n, hlt, by omega, by simp [columnSum, hb, hs]⟩

theorem eccColumn_unit (j : Nat) : eccColumn (64 + j) = unitBytes.getD j 0 := by
  have hl : (pickFrom Config.eccPick 64 oddBytes).length = 64 := pickFrom_length _ _ _
  simp [eccColumn, eccColumns, List.getD, List.getElem?_append_right, hl]

/-- The columns of the check bits add up to the check bits themselves. -/
theorem unit_sum (c : BitVec 8) :
    (List.range 8).foldl (fun s j => s ^^^ (if c.getLsbD j then unitBytes.getD j 0 else 0)) 0 = c := by
  revert c; decide +kernel

/-- A word stored with its check bits has syndrome zero. -/
theorem columnSum_stored (w : Word) : columnSum (eccCheck w ++ w).toNat 72 = 0 := by
  have hbit (i : Nat) : (eccCheck w ++ w).toNat.testBit i =
      if i < 64 then w.getLsbD i else (eccCheck w).getLsbD (i - 64) := by
    rw [← BitVec.getLsbD, BitVec.getLsbD_append]
  have hlow : columnSum (eccCheck w ++ w).toNat 64 = eccCheck w := by
    rw [eccCheck]
    exact columnSum_congr (fun i hi => by rw [← eccCheck, hbit]; simp [hi, BitVec.getLsbD])
  have h72 : columnSum (eccCheck w ++ w).toNat 72 = eccCheck w ^^^
      (List.range 8).foldl (fun s j => s ^^^ (if (eccCheck w).getLsbD j then unitBytes.getD j 0 else 0)) 0 := by
    have e0 := eccColumn_unit 0
    have e1 := eccColumn_unit 1
    have e2 := eccColumn_unit 2
    have e3 := eccColumn_unit 3
    have e4 := eccColumn_unit 4
    have e5 := eccColumn_unit 5
    have e6 := eccColumn_unit 6
    have e7 := eccColumn_unit 7
    simp only [Nat.add_zero] at e0
    simp only [Nat.reduceAdd] at e1 e2 e3 e4 e5 e6 e7
    have step (n : Nat) : columnSum (eccCheck w ++ w).toNat (n + 1) = columnSum (eccCheck w ++ w).toNat n ^^^
        (if (eccCheck w ++ w).toNat.testBit n then eccColumn n else 0) := rfl
    rw [step 71, step 70, step 69, step 68, step 67, step 66, step 65, step 64, hlow]
    simp only [hbit, e0, e1, e2, e3, e4, e5, e6, e7]
    simp [List.range, List.range.loop, BitVec.xor_assoc]
  rw [h72, unit_sum, BitVec.xor_self]; rfl

/-- The syndrome of a stored word is that of its upset bits. -/
theorem syndrome_stored (c : EccWord) : columnSum (storedBits c).toNat 72 = columnSum c.flips.toNat 72 := by
  rw [storedBits, BitVec.toNat_xor, columnSum_xor, columnSum_stored]
  exact BitVec.zero_xor

theorem eccDecode_one {y : BitVec 72} {b : Nat} (hb : b < 72) (h : columnSum y.toNat 72 = eccColumn b) :
    eccDecode y = .corrected b := by
  have hne : eccColumn b ≠ 0 := fun h0 => by have := eccColumn_odd hb; rw [h0] at this; exact absurd this (by decide)
  have hf : (List.range 72).find? (fun k => eccColumn k == eccColumn b) = some b := by
    rw [List.find?_range_eq_some]
    refine ⟨by simp, by simpa using hb, fun j hj => ?_⟩
    have : eccColumn j ≠ eccColumn b := fun he => by have := eccColumn_inj (by omega) hb he; omega
    simpa using this
  simp only [eccDecode, h, hne, if_false, hf]

/-- What the decoder finds in a stored word is a fixed function of its 72 stored bits (R56). -/
theorem eccKind_eq_decode (c : EccWord) : eccKind c = eccDecode (storedBits c) := by
  have hs := syndrome_stored c
  unfold eccKind
  split_ifs with h0 h1 h2
  · have : columnSum (storedBits c).toNat 72 = 0 := by rw [hs, h0]; exact columnSum_of_none (by decide)
    simp [eccDecode, this]
  · obtain ⟨b, hb, hhi, hc⟩ := columnSum_of_one h1
    rw [hhi, eccDecode_one hb (hs.trans hc)]; rfl
  · obtain ⟨a, b, hab, hb, hc⟩ := columnSum_of_two h2
    have hev : oddByte (columnSum (storedBits c).toNat 72) = false := by
      rw [hs, hc, oddByte_xor, eccColumn_odd (by omega), eccColumn_odd hb]; rfl
    have hne : columnSum (storedBits c).toNat 72 ≠ 0 := by
      rw [hs, hc]
      intro h
      have : eccColumn a = eccColumn b := BitVec.xor_eq_zero_iff.1 h
      have := eccColumn_inj (by omega) hb this
      omega
    have hf : (List.range 72).find? (fun k => eccColumn k == columnSum (storedBits c).toNat 72) = none := by
      rw [List.find?_eq_none]
      intro k hk he
      have hk : k < 72 := by simpa using hk
      have := eccColumn_odd hk
      rw [beq_iff_eq.1 he, hev] at this
      cases this
    simp only [eccDecode, hne, if_false, hf]
  · rfl

end Sys2Proof.Laws
end

