-- ==== Sys2Proof/Laws/Ops.lean ====
section
/-!
SUPPORT. What each shared operation may change, said once for each: the part after it is the part before but for the
fields that its frame law names; and, for simp, every other field is as before.
-/
namespace Sys2Proof.Machine

/-- Writing a register changes the register file alone. -/
theorem setRegAt_frame (p : Part) (off : Nat) (v : Reg32) :
    setRegAt p off v = { p with regs := (setRegAt p off v).regs } := rfl

@[simp] theorem setRegAt_readData (p : Part) (off : Nat) (v : Reg32) : (setRegAt p off v).readData = p.readData := by rw [setRegAt_frame]
@[simp] theorem setRegAt_readPec (p : Part) (off : Nat) (v : Reg32) : (setRegAt p off v).readPec = p.readPec := by rw [setRegAt_frame]
@[simp] theorem setRegAt_hiLatch (p : Part) (off : Nat) (v : Reg32) : (setRegAt p off v).hiLatch = p.hiLatch := by rw [setRegAt_frame]
@[simp] theorem setRegAt_loHeld (p : Part) (off : Nat) (v : Reg32) : (setRegAt p off v).loHeld = p.loHeld := by rw [setRegAt_frame]
@[simp] theorem setRegAt_free (p : Part) (off : Nat) (v : Reg32) : (setRegAt p off v).free = p.free := by rw [setRegAt_frame]
@[simp] theorem setRegAt_now (p : Part) (off : Nat) (v : Reg32) : (setRegAt p off v).now = p.now := by rw [setRegAt_frame]
@[simp] theorem setRegAt_tk (p : Part) (off : Nat) (v : Reg32) : (setRegAt p off v).tk = p.tk := by rw [setRegAt_frame]
@[simp] theorem setRegAt_host (p : Part) (off : Nat) (v : Reg32) : (setRegAt p off v).host = p.host := by rw [setRegAt_frame]
@[simp] theorem setRegAt_svn (p : Part) (off : Nat) (v : Reg32) : (setRegAt p off v).svn = p.svn := by rw [setRegAt_frame]
@[simp] theorem setRegAt_sp (p : Part) (off : Nat) (v : Reg32) : (setRegAt p off v).sp = p.sp := by rw [setRegAt_frame]
@[simp] theorem setRegAt_gr (p : Part) (off : Nat) (v : Reg32) : (setRegAt p off v).gr = p.gr := by rw [setRegAt_frame]
@[simp] theorem setRegAt_blank (p : Part) (off : Nat) (v : Reg32) : (setRegAt p off v).blank = p.blank := by rw [setRegAt_frame]
@[simp] theorem setRegAt_cols (p : Part) (off : Nat) (v : Reg32) : (setRegAt p off v).cols = p.cols := by rw [setRegAt_frame]
@[simp] theorem setRegAt_regions (p : Part) (off : Nat) (v : Reg32) : (setRegAt p off v).regions = p.regions := by rw [setRegAt_frame]
@[simp] theorem setRegAt_loader (p : Part) (off : Nat) (v : Reg32) : (setRegAt p off v).loader = p.loader := by rw [setRegAt_frame]
@[simp] theorem setRegAt_boot (p : Part) (off : Nat) (v : Reg32) : (setRegAt p off v).boot = p.boot := by rw [setRegAt_frame]
@[simp] theorem setRegAt_mon (p : Part) (off : Nat) (v : Reg32) : (setRegAt p off v).mon = p.mon := by rw [setRegAt_frame]
@[simp] theorem setRegAt_sm (p : Part) (off : Nat) (v : Reg32) : (setRegAt p off v).sm = p.sm := by rw [setRegAt_frame]
@[simp] theorem setRegAt_tim (p : Part) (off : Nat) (v : Reg32) : (setRegAt p off v).tim = p.tim := by rw [setRegAt_frame]
@[simp] theorem setRegAt_lanes (p : Part) (off : Nat) (v : Reg32) : (setRegAt p off v).lanes = p.lanes := by rw [setRegAt_frame]
@[simp] theorem setRegAt_his (p : Part) (off : Nat) (v : Reg32) : (setRegAt p off v).his = p.his := by rw [setRegAt_frame]
@[simp] theorem setRegAt_rdo (p : Part) (off : Nat) (v : Reg32) : (setRegAt p off v).rdo = p.rdo := by rw [setRegAt_frame]
@[simp] theorem setRegAt_cap (p : Part) (off : Nat) (v : Reg32) : (setRegAt p off v).cap = p.cap := by rw [setRegAt_frame]
@[simp] theorem setRegAt_trc (p : Part) (off : Nat) (v : Reg32) : (setRegAt p off v).trc = p.trc := by rw [setRegAt_frame]

/-- Setting a field changes the register file alone. -/
theorem setFldI_frame (p : Part) (f : FieldRow) (i v : Nat) :
    setFldI p f i v = { p with regs := (setFldI p f i v).regs } := rfl

@[simp] theorem setFldI_readData (p : Part) (f : FieldRow) (i v : Nat) : (setFldI p f i v).readData = p.readData := by rw [setFldI_frame]
@[simp] theorem setFldI_readPec (p : Part) (f : FieldRow) (i v : Nat) : (setFldI p f i v).readPec = p.readPec := by rw [setFldI_frame]
@[simp] theorem setFldI_hiLatch (p : Part) (f : FieldRow) (i v : Nat) : (setFldI p f i v).hiLatch = p.hiLatch := by rw [setFldI_frame]
@[simp] theorem setFldI_loHeld (p : Part) (f : FieldRow) (i v : Nat) : (setFldI p f i v).loHeld = p.loHeld := by rw [setFldI_frame]
@[simp] theorem setFldI_free (p : Part) (f : FieldRow) (i v : Nat) : (setFldI p f i v).free = p.free := by rw [setFldI_frame]
@[simp] theorem setFldI_now (p : Part) (f : FieldRow) (i v : Nat) : (setFldI p f i v).now = p.now := by rw [setFldI_frame]
@[simp] theorem setFldI_tk (p : Part) (f : FieldRow) (i v : Nat) : (setFldI p f i v).tk = p.tk := by rw [setFldI_frame]
@[simp] theorem setFldI_host (p : Part) (f : FieldRow) (i v : Nat) : (setFldI p f i v).host = p.host := by rw [setFldI_frame]
@[simp] theorem setFldI_svn (p : Part) (f : FieldRow) (i v : Nat) : (setFldI p f i v).svn = p.svn := by rw [setFldI_frame]
@[simp] theorem setFldI_sp (p : Part) (f : FieldRow) (i v : Nat) : (setFldI p f i v).sp = p.sp := by rw [setFldI_frame]
@[simp] theorem setFldI_gr (p : Part) (f : FieldRow) (i v : Nat) : (setFldI p f i v).gr = p.gr := by rw [setFldI_frame]
@[simp] theorem setFldI_blank (p : Part) (f : FieldRow) (i v : Nat) : (setFldI p f i v).blank = p.blank := by rw [setFldI_frame]
@[simp] theorem setFldI_cols (p : Part) (f : FieldRow) (i v : Nat) : (setFldI p f i v).cols = p.cols := by rw [setFldI_frame]
@[simp] theorem setFldI_regions (p : Part) (f : FieldRow) (i v : Nat) : (setFldI p f i v).regions = p.regions := by rw [setFldI_frame]
@[simp] theorem setFldI_loader (p : Part) (f : FieldRow) (i v : Nat) : (setFldI p f i v).loader = p.loader := by rw [setFldI_frame]
@[simp] theorem setFldI_boot (p : Part) (f : FieldRow) (i v : Nat) : (setFldI p f i v).boot = p.boot := by rw [setFldI_frame]
@[simp] theorem setFldI_mon (p : Part) (f : FieldRow) (i v : Nat) : (setFldI p f i v).mon = p.mon := by rw [setFldI_frame]
@[simp] theorem setFldI_sm (p : Part) (f : FieldRow) (i v : Nat) : (setFldI p f i v).sm = p.sm := by rw [setFldI_frame]
@[simp] theorem setFldI_tim (p : Part) (f : FieldRow) (i v : Nat) : (setFldI p f i v).tim = p.tim := by rw [setFldI_frame]
@[simp] theorem setFldI_lanes (p : Part) (f : FieldRow) (i v : Nat) : (setFldI p f i v).lanes = p.lanes := by rw [setFldI_frame]
@[simp] theorem setFldI_his (p : Part) (f : FieldRow) (i v : Nat) : (setFldI p f i v).his = p.his := by rw [setFldI_frame]
@[simp] theorem setFldI_rdo (p : Part) (f : FieldRow) (i v : Nat) : (setFldI p f i v).rdo = p.rdo := by rw [setFldI_frame]
@[simp] theorem setFldI_cap (p : Part) (f : FieldRow) (i v : Nat) : (setFldI p f i v).cap = p.cap := by rw [setFldI_frame]
@[simp] theorem setFldI_trc (p : Part) (f : FieldRow) (i v : Nat) : (setFldI p f i v).trc = p.trc := by rw [setFldI_frame]

/-- Setting a field changes the register file alone. -/
theorem setFld_frame (p : Part) (f : FieldRow) (v : Nat) :
    setFld p f v = { p with regs := (setFld p f v).regs } := rfl

@[simp] theorem setFld_readData (p : Part) (f : FieldRow) (v : Nat) : (setFld p f v).readData = p.readData := by rw [setFld_frame]
@[simp] theorem setFld_readPec (p : Part) (f : FieldRow) (v : Nat) : (setFld p f v).readPec = p.readPec := by rw [setFld_frame]
@[simp] theorem setFld_hiLatch (p : Part) (f : FieldRow) (v : Nat) : (setFld p f v).hiLatch = p.hiLatch := by rw [setFld_frame]
@[simp] theorem setFld_loHeld (p : Part) (f : FieldRow) (v : Nat) : (setFld p f v).loHeld = p.loHeld := by rw [setFld_frame]
@[simp] theorem setFld_free (p : Part) (f : FieldRow) (v : Nat) : (setFld p f v).free = p.free := by rw [setFld_frame]
@[simp] theorem setFld_now (p : Part) (f : FieldRow) (v : Nat) : (setFld p f v).now = p.now := by rw [setFld_frame]
@[simp] theorem setFld_tk (p : Part) (f : FieldRow) (v : Nat) : (setFld p f v).tk = p.tk := by rw [setFld_frame]
@[simp] theorem setFld_host (p : Part) (f : FieldRow) (v : Nat) : (setFld p f v).host = p.host := by rw [setFld_frame]
@[simp] theorem setFld_svn (p : Part) (f : FieldRow) (v : Nat) : (setFld p f v).svn = p.svn := by rw [setFld_frame]
@[simp] theorem setFld_sp (p : Part) (f : FieldRow) (v : Nat) : (setFld p f v).sp = p.sp := by rw [setFld_frame]
@[simp] theorem setFld_gr (p : Part) (f : FieldRow) (v : Nat) : (setFld p f v).gr = p.gr := by rw [setFld_frame]
@[simp] theorem setFld_blank (p : Part) (f : FieldRow) (v : Nat) : (setFld p f v).blank = p.blank := by rw [setFld_frame]
@[simp] theorem setFld_cols (p : Part) (f : FieldRow) (v : Nat) : (setFld p f v).cols = p.cols := by rw [setFld_frame]
@[simp] theorem setFld_regions (p : Part) (f : FieldRow) (v : Nat) : (setFld p f v).regions = p.regions := by rw [setFld_frame]
@[simp] theorem setFld_loader (p : Part) (f : FieldRow) (v : Nat) : (setFld p f v).loader = p.loader := by rw [setFld_frame]
@[simp] theorem setFld_boot (p : Part) (f : FieldRow) (v : Nat) : (setFld p f v).boot = p.boot := by rw [setFld_frame]
@[simp] theorem setFld_mon (p : Part) (f : FieldRow) (v : Nat) : (setFld p f v).mon = p.mon := by rw [setFld_frame]
@[simp] theorem setFld_sm (p : Part) (f : FieldRow) (v : Nat) : (setFld p f v).sm = p.sm := by rw [setFld_frame]
@[simp] theorem setFld_tim (p : Part) (f : FieldRow) (v : Nat) : (setFld p f v).tim = p.tim := by rw [setFld_frame]
@[simp] theorem setFld_lanes (p : Part) (f : FieldRow) (v : Nat) : (setFld p f v).lanes = p.lanes := by rw [setFld_frame]
@[simp] theorem setFld_his (p : Part) (f : FieldRow) (v : Nat) : (setFld p f v).his = p.his := by rw [setFld_frame]
@[simp] theorem setFld_rdo (p : Part) (f : FieldRow) (v : Nat) : (setFld p f v).rdo = p.rdo := by rw [setFld_frame]
@[simp] theorem setFld_cap (p : Part) (f : FieldRow) (v : Nat) : (setFld p f v).cap = p.cap := by rw [setFld_frame]
@[simp] theorem setFld_trc (p : Part) (f : FieldRow) (v : Nat) : (setFld p f v).trc = p.trc := by rw [setFld_frame]

/-- Counting changes the register file alone. -/
theorem bumpFldI_frame (p : Part) (f : FieldRow) (i n : Nat) :
    bumpFldI p f i n = { p with regs := (bumpFldI p f i n).regs } := rfl

@[simp] theorem bumpFldI_readData (p : Part) (f : FieldRow) (i n : Nat) : (bumpFldI p f i n).readData = p.readData := by rw [bumpFldI_frame]
@[simp] theorem bumpFldI_readPec (p : Part) (f : FieldRow) (i n : Nat) : (bumpFldI p f i n).readPec = p.readPec := by rw [bumpFldI_frame]
@[simp] theorem bumpFldI_hiLatch (p : Part) (f : FieldRow) (i n : Nat) : (bumpFldI p f i n).hiLatch = p.hiLatch := by rw [bumpFldI_frame]
@[simp] theorem bumpFldI_loHeld (p : Part) (f : FieldRow) (i n : Nat) : (bumpFldI p f i n).loHeld = p.loHeld := by rw [bumpFldI_frame]
@[simp] theorem bumpFldI_free (p : Part) (f : FieldRow) (i n : Nat) : (bumpFldI p f i n).free = p.free := by rw [bumpFldI_frame]
@[simp] theorem bumpFldI_now (p : Part) (f : FieldRow) (i n : Nat) : (bumpFldI p f i n).now = p.now := by rw [bumpFldI_frame]
@[simp] theorem bumpFldI_tk (p : Part) (f : FieldRow) (i n : Nat) : (bumpFldI p f i n).tk = p.tk := by rw [bumpFldI_frame]
@[simp] theorem bumpFldI_host (p : Part) (f : FieldRow) (i n : Nat) : (bumpFldI p f i n).host = p.host := by rw [bumpFldI_frame]
@[simp] theorem bumpFldI_svn (p : Part) (f : FieldRow) (i n : Nat) : (bumpFldI p f i n).svn = p.svn := by rw [bumpFldI_frame]
@[simp] theorem bumpFldI_sp (p : Part) (f : FieldRow) (i n : Nat) : (bumpFldI p f i n).sp = p.sp := by rw [bumpFldI_frame]
@[simp] theorem bumpFldI_gr (p : Part) (f : FieldRow) (i n : Nat) : (bumpFldI p f i n).gr = p.gr := by rw [bumpFldI_frame]
@[simp] theorem bumpFldI_blank (p : Part) (f : FieldRow) (i n : Nat) : (bumpFldI p f i n).blank = p.blank := by rw [bumpFldI_frame]
@[simp] theorem bumpFldI_cols (p : Part) (f : FieldRow) (i n : Nat) : (bumpFldI p f i n).cols = p.cols := by rw [bumpFldI_frame]
@[simp] theorem bumpFldI_regions (p : Part) (f : FieldRow) (i n : Nat) : (bumpFldI p f i n).regions = p.regions := by rw [bumpFldI_frame]
@[simp] theorem bumpFldI_loader (p : Part) (f : FieldRow) (i n : Nat) : (bumpFldI p f i n).loader = p.loader := by rw [bumpFldI_frame]
@[simp] theorem bumpFldI_boot (p : Part) (f : FieldRow) (i n : Nat) : (bumpFldI p f i n).boot = p.boot := by rw [bumpFldI_frame]
@[simp] theorem bumpFldI_mon (p : Part) (f : FieldRow) (i n : Nat) : (bumpFldI p f i n).mon = p.mon := by rw [bumpFldI_frame]
@[simp] theorem bumpFldI_sm (p : Part) (f : FieldRow) (i n : Nat) : (bumpFldI p f i n).sm = p.sm := by rw [bumpFldI_frame]
@[simp] theorem bumpFldI_tim (p : Part) (f : FieldRow) (i n : Nat) : (bumpFldI p f i n).tim = p.tim := by rw [bumpFldI_frame]
@[simp] theorem bumpFldI_lanes (p : Part) (f : FieldRow) (i n : Nat) : (bumpFldI p f i n).lanes = p.lanes := by rw [bumpFldI_frame]
@[simp] theorem bumpFldI_his (p : Part) (f : FieldRow) (i n : Nat) : (bumpFldI p f i n).his = p.his := by rw [bumpFldI_frame]
@[simp] theorem bumpFldI_rdo (p : Part) (f : FieldRow) (i n : Nat) : (bumpFldI p f i n).rdo = p.rdo := by rw [bumpFldI_frame]
@[simp] theorem bumpFldI_cap (p : Part) (f : FieldRow) (i n : Nat) : (bumpFldI p f i n).cap = p.cap := by rw [bumpFldI_frame]
@[simp] theorem bumpFldI_trc (p : Part) (f : FieldRow) (i n : Nat) : (bumpFldI p f i n).trc = p.trc := by rw [bumpFldI_frame]

/-- Counting changes the register file alone. -/
theorem bumpFld_frame (p : Part) (f : FieldRow) (n : Nat) :
    bumpFld p f n = { p with regs := (bumpFld p f n).regs } := rfl

@[simp] theorem bumpFld_readData (p : Part) (f : FieldRow) (n : Nat) : (bumpFld p f n).readData = p.readData := by rw [bumpFld_frame]
@[simp] theorem bumpFld_readPec (p : Part) (f : FieldRow) (n : Nat) : (bumpFld p f n).readPec = p.readPec := by rw [bumpFld_frame]
@[simp] theorem bumpFld_hiLatch (p : Part) (f : FieldRow) (n : Nat) : (bumpFld p f n).hiLatch = p.hiLatch := by rw [bumpFld_frame]
@[simp] theorem bumpFld_loHeld (p : Part) (f : FieldRow) (n : Nat) : (bumpFld p f n).loHeld = p.loHeld := by rw [bumpFld_frame]
@[simp] theorem bumpFld_free (p : Part) (f : FieldRow) (n : Nat) : (bumpFld p f n).free = p.free := by rw [bumpFld_frame]
@[simp] theorem bumpFld_now (p : Part) (f : FieldRow) (n : Nat) : (bumpFld p f n).now = p.now := by rw [bumpFld_frame]
@[simp] theorem bumpFld_tk (p : Part) (f : FieldRow) (n : Nat) : (bumpFld p f n).tk = p.tk := by rw [bumpFld_frame]
@[simp] theorem bumpFld_host (p : Part) (f : FieldRow) (n : Nat) : (bumpFld p f n).host = p.host := by rw [bumpFld_frame]
@[simp] theorem bumpFld_svn (p : Part) (f : FieldRow) (n : Nat) : (bumpFld p f n).svn = p.svn := by rw [bumpFld_frame]
@[simp] theorem bumpFld_sp (p : Part) (f : FieldRow) (n : Nat) : (bumpFld p f n).sp = p.sp := by rw [bumpFld_frame]
@[simp] theorem bumpFld_gr (p : Part) (f : FieldRow) (n : Nat) : (bumpFld p f n).gr = p.gr := by rw [bumpFld_frame]
@[simp] theorem bumpFld_blank (p : Part) (f : FieldRow) (n : Nat) : (bumpFld p f n).blank = p.blank := by rw [bumpFld_frame]
@[simp] theorem bumpFld_cols (p : Part) (f : FieldRow) (n : Nat) : (bumpFld p f n).cols = p.cols := by rw [bumpFld_frame]
@[simp] theorem bumpFld_regions (p : Part) (f : FieldRow) (n : Nat) : (bumpFld p f n).regions = p.regions := by rw [bumpFld_frame]
@[simp] theorem bumpFld_loader (p : Part) (f : FieldRow) (n : Nat) : (bumpFld p f n).loader = p.loader := by rw [bumpFld_frame]
@[simp] theorem bumpFld_boot (p : Part) (f : FieldRow) (n : Nat) : (bumpFld p f n).boot = p.boot := by rw [bumpFld_frame]
@[simp] theorem bumpFld_mon (p : Part) (f : FieldRow) (n : Nat) : (bumpFld p f n).mon = p.mon := by rw [bumpFld_frame]
@[simp] theorem bumpFld_sm (p : Part) (f : FieldRow) (n : Nat) : (bumpFld p f n).sm = p.sm := by rw [bumpFld_frame]
@[simp] theorem bumpFld_tim (p : Part) (f : FieldRow) (n : Nat) : (bumpFld p f n).tim = p.tim := by rw [bumpFld_frame]
@[simp] theorem bumpFld_lanes (p : Part) (f : FieldRow) (n : Nat) : (bumpFld p f n).lanes = p.lanes := by rw [bumpFld_frame]
@[simp] theorem bumpFld_his (p : Part) (f : FieldRow) (n : Nat) : (bumpFld p f n).his = p.his := by rw [bumpFld_frame]
@[simp] theorem bumpFld_rdo (p : Part) (f : FieldRow) (n : Nat) : (bumpFld p f n).rdo = p.rdo := by rw [bumpFld_frame]
@[simp] theorem bumpFld_cap (p : Part) (f : FieldRow) (n : Nat) : (bumpFld p f n).cap = p.cap := by rw [bumpFld_frame]
@[simp] theorem bumpFld_trc (p : Part) (f : FieldRow) (n : Nat) : (bumpFld p f n).trc = p.trc := by rw [bumpFld_frame]

/-- Raising a maximum changes the register file alone. -/
theorem maxFldI_frame (p : Part) (f : FieldRow) (i n : Nat) :
    maxFldI p f i n = { p with regs := (maxFldI p f i n).regs } := rfl

@[simp] theorem maxFldI_readData (p : Part) (f : FieldRow) (i n : Nat) : (maxFldI p f i n).readData = p.readData := by rw [maxFldI_frame]
@[simp] theorem maxFldI_readPec (p : Part) (f : FieldRow) (i n : Nat) : (maxFldI p f i n).readPec = p.readPec := by rw [maxFldI_frame]
@[simp] theorem maxFldI_hiLatch (p : Part) (f : FieldRow) (i n : Nat) : (maxFldI p f i n).hiLatch = p.hiLatch := by rw [maxFldI_frame]
@[simp] theorem maxFldI_loHeld (p : Part) (f : FieldRow) (i n : Nat) : (maxFldI p f i n).loHeld = p.loHeld := by rw [maxFldI_frame]
@[simp] theorem maxFldI_free (p : Part) (f : FieldRow) (i n : Nat) : (maxFldI p f i n).free = p.free := by rw [maxFldI_frame]
@[simp] theorem maxFldI_now (p : Part) (f : FieldRow) (i n : Nat) : (maxFldI p f i n).now = p.now := by rw [maxFldI_frame]
@[simp] theorem maxFldI_tk (p : Part) (f : FieldRow) (i n : Nat) : (maxFldI p f i n).tk = p.tk := by rw [maxFldI_frame]
@[simp] theorem maxFldI_host (p : Part) (f : FieldRow) (i n : Nat) : (maxFldI p f i n).host = p.host := by rw [maxFldI_frame]
@[simp] theorem maxFldI_svn (p : Part) (f : FieldRow) (i n : Nat) : (maxFldI p f i n).svn = p.svn := by rw [maxFldI_frame]
@[simp] theorem maxFldI_sp (p : Part) (f : FieldRow) (i n : Nat) : (maxFldI p f i n).sp = p.sp := by rw [maxFldI_frame]
@[simp] theorem maxFldI_gr (p : Part) (f : FieldRow) (i n : Nat) : (maxFldI p f i n).gr = p.gr := by rw [maxFldI_frame]
@[simp] theorem maxFldI_blank (p : Part) (f : FieldRow) (i n : Nat) : (maxFldI p f i n).blank = p.blank := by rw [maxFldI_frame]
@[simp] theorem maxFldI_cols (p : Part) (f : FieldRow) (i n : Nat) : (maxFldI p f i n).cols = p.cols := by rw [maxFldI_frame]
@[simp] theorem maxFldI_regions (p : Part) (f : FieldRow) (i n : Nat) : (maxFldI p f i n).regions = p.regions := by rw [maxFldI_frame]
@[simp] theorem maxFldI_loader (p : Part) (f : FieldRow) (i n : Nat) : (maxFldI p f i n).loader = p.loader := by rw [maxFldI_frame]
@[simp] theorem maxFldI_boot (p : Part) (f : FieldRow) (i n : Nat) : (maxFldI p f i n).boot = p.boot := by rw [maxFldI_frame]
@[simp] theorem maxFldI_mon (p : Part) (f : FieldRow) (i n : Nat) : (maxFldI p f i n).mon = p.mon := by rw [maxFldI_frame]
@[simp] theorem maxFldI_sm (p : Part) (f : FieldRow) (i n : Nat) : (maxFldI p f i n).sm = p.sm := by rw [maxFldI_frame]
@[simp] theorem maxFldI_tim (p : Part) (f : FieldRow) (i n : Nat) : (maxFldI p f i n).tim = p.tim := by rw [maxFldI_frame]
@[simp] theorem maxFldI_lanes (p : Part) (f : FieldRow) (i n : Nat) : (maxFldI p f i n).lanes = p.lanes := by rw [maxFldI_frame]
@[simp] theorem maxFldI_his (p : Part) (f : FieldRow) (i n : Nat) : (maxFldI p f i n).his = p.his := by rw [maxFldI_frame]
@[simp] theorem maxFldI_rdo (p : Part) (f : FieldRow) (i n : Nat) : (maxFldI p f i n).rdo = p.rdo := by rw [maxFldI_frame]
@[simp] theorem maxFldI_cap (p : Part) (f : FieldRow) (i n : Nat) : (maxFldI p f i n).cap = p.cap := by rw [maxFldI_frame]
@[simp] theorem maxFldI_trc (p : Part) (f : FieldRow) (i n : Nat) : (maxFldI p f i n).trc = p.trc := by rw [maxFldI_frame]

/-- Setting a pair changes the register file alone. -/
theorem setFld64_frame (p : Part) (l h : FieldRow) (v : Nat) :
    setFld64 p l h v = { p with regs := (setFld64 p l h v).regs } := rfl

@[simp] theorem setFld64_readData (p : Part) (l h : FieldRow) (v : Nat) : (setFld64 p l h v).readData = p.readData := by rw [setFld64_frame]
@[simp] theorem setFld64_readPec (p : Part) (l h : FieldRow) (v : Nat) : (setFld64 p l h v).readPec = p.readPec := by rw [setFld64_frame]
@[simp] theorem setFld64_hiLatch (p : Part) (l h : FieldRow) (v : Nat) : (setFld64 p l h v).hiLatch = p.hiLatch := by rw [setFld64_frame]
@[simp] theorem setFld64_loHeld (p : Part) (l h : FieldRow) (v : Nat) : (setFld64 p l h v).loHeld = p.loHeld := by rw [setFld64_frame]
@[simp] theorem setFld64_free (p : Part) (l h : FieldRow) (v : Nat) : (setFld64 p l h v).free = p.free := by rw [setFld64_frame]
@[simp] theorem setFld64_now (p : Part) (l h : FieldRow) (v : Nat) : (setFld64 p l h v).now = p.now := by rw [setFld64_frame]
@[simp] theorem setFld64_tk (p : Part) (l h : FieldRow) (v : Nat) : (setFld64 p l h v).tk = p.tk := by rw [setFld64_frame]
@[simp] theorem setFld64_host (p : Part) (l h : FieldRow) (v : Nat) : (setFld64 p l h v).host = p.host := by rw [setFld64_frame]
@[simp] theorem setFld64_svn (p : Part) (l h : FieldRow) (v : Nat) : (setFld64 p l h v).svn = p.svn := by rw [setFld64_frame]
@[simp] theorem setFld64_sp (p : Part) (l h : FieldRow) (v : Nat) : (setFld64 p l h v).sp = p.sp := by rw [setFld64_frame]
@[simp] theorem setFld64_gr (p : Part) (l h : FieldRow) (v : Nat) : (setFld64 p l h v).gr = p.gr := by rw [setFld64_frame]
@[simp] theorem setFld64_blank (p : Part) (l h : FieldRow) (v : Nat) : (setFld64 p l h v).blank = p.blank := by rw [setFld64_frame]
@[simp] theorem setFld64_cols (p : Part) (l h : FieldRow) (v : Nat) : (setFld64 p l h v).cols = p.cols := by rw [setFld64_frame]
@[simp] theorem setFld64_regions (p : Part) (l h : FieldRow) (v : Nat) : (setFld64 p l h v).regions = p.regions := by rw [setFld64_frame]
@[simp] theorem setFld64_loader (p : Part) (l h : FieldRow) (v : Nat) : (setFld64 p l h v).loader = p.loader := by rw [setFld64_frame]
@[simp] theorem setFld64_boot (p : Part) (l h : FieldRow) (v : Nat) : (setFld64 p l h v).boot = p.boot := by rw [setFld64_frame]
@[simp] theorem setFld64_mon (p : Part) (l h : FieldRow) (v : Nat) : (setFld64 p l h v).mon = p.mon := by rw [setFld64_frame]
@[simp] theorem setFld64_sm (p : Part) (l h : FieldRow) (v : Nat) : (setFld64 p l h v).sm = p.sm := by rw [setFld64_frame]
@[simp] theorem setFld64_tim (p : Part) (l h : FieldRow) (v : Nat) : (setFld64 p l h v).tim = p.tim := by rw [setFld64_frame]
@[simp] theorem setFld64_lanes (p : Part) (l h : FieldRow) (v : Nat) : (setFld64 p l h v).lanes = p.lanes := by rw [setFld64_frame]
@[simp] theorem setFld64_his (p : Part) (l h : FieldRow) (v : Nat) : (setFld64 p l h v).his = p.his := by rw [setFld64_frame]
@[simp] theorem setFld64_rdo (p : Part) (l h : FieldRow) (v : Nat) : (setFld64 p l h v).rdo = p.rdo := by rw [setFld64_frame]
@[simp] theorem setFld64_cap (p : Part) (l h : FieldRow) (v : Nat) : (setFld64 p l h v).cap = p.cap := by rw [setFld64_frame]
@[simp] theorem setFld64_trc (p : Part) (l h : FieldRow) (v : Nat) : (setFld64 p l h v).trc = p.trc := by rw [setFld64_frame]

/-- An event changes the event queue and the lost count alone. -/
theorem queueEvent_frame (p : Part) (e : Event) :
    queueEvent p e = { p with regs := (queueEvent p e).regs, host := (queueEvent p e).host } := by
  unfold queueEvent; split
  · rfl
  · split <;> rfl

@[simp] theorem queueEvent_readData (p : Part) (e : Event) : (queueEvent p e).readData = p.readData := by rw [queueEvent_frame]
@[simp] theorem queueEvent_readPec (p : Part) (e : Event) : (queueEvent p e).readPec = p.readPec := by rw [queueEvent_frame]
@[simp] theorem queueEvent_hiLatch (p : Part) (e : Event) : (queueEvent p e).hiLatch = p.hiLatch := by rw [queueEvent_frame]
@[simp] theorem queueEvent_loHeld (p : Part) (e : Event) : (queueEvent p e).loHeld = p.loHeld := by rw [queueEvent_frame]
@[simp] theorem queueEvent_free (p : Part) (e : Event) : (queueEvent p e).free = p.free := by rw [queueEvent_frame]
@[simp] theorem queueEvent_now (p : Part) (e : Event) : (queueEvent p e).now = p.now := by rw [queueEvent_frame]
@[simp] theorem queueEvent_tk (p : Part) (e : Event) : (queueEvent p e).tk = p.tk := by rw [queueEvent_frame]
@[simp] theorem queueEvent_svn (p : Part) (e : Event) : (queueEvent p e).svn = p.svn := by rw [queueEvent_frame]
@[simp] theorem queueEvent_sp (p : Part) (e : Event) : (queueEvent p e).sp = p.sp := by rw [queueEvent_frame]
@[simp] theorem queueEvent_gr (p : Part) (e : Event) : (queueEvent p e).gr = p.gr := by rw [queueEvent_frame]
@[simp] theorem queueEvent_blank (p : Part) (e : Event) : (queueEvent p e).blank = p.blank := by rw [queueEvent_frame]
@[simp] theorem queueEvent_cols (p : Part) (e : Event) : (queueEvent p e).cols = p.cols := by rw [queueEvent_frame]
@[simp] theorem queueEvent_regions (p : Part) (e : Event) : (queueEvent p e).regions = p.regions := by rw [queueEvent_frame]
@[simp] theorem queueEvent_loader (p : Part) (e : Event) : (queueEvent p e).loader = p.loader := by rw [queueEvent_frame]
@[simp] theorem queueEvent_boot (p : Part) (e : Event) : (queueEvent p e).boot = p.boot := by rw [queueEvent_frame]
@[simp] theorem queueEvent_mon (p : Part) (e : Event) : (queueEvent p e).mon = p.mon := by rw [queueEvent_frame]
@[simp] theorem queueEvent_sm (p : Part) (e : Event) : (queueEvent p e).sm = p.sm := by rw [queueEvent_frame]
@[simp] theorem queueEvent_tim (p : Part) (e : Event) : (queueEvent p e).tim = p.tim := by rw [queueEvent_frame]
@[simp] theorem queueEvent_lanes (p : Part) (e : Event) : (queueEvent p e).lanes = p.lanes := by rw [queueEvent_frame]
@[simp] theorem queueEvent_his (p : Part) (e : Event) : (queueEvent p e).his = p.his := by rw [queueEvent_frame]
@[simp] theorem queueEvent_rdo (p : Part) (e : Event) : (queueEvent p e).rdo = p.rdo := by rw [queueEvent_frame]
@[simp] theorem queueEvent_cap (p : Part) (e : Event) : (queueEvent p e).cap = p.cap := by rw [queueEvent_frame]
@[simp] theorem queueEvent_trc (p : Part) (e : Event) : (queueEvent p e).trc = p.trc := by rw [queueEvent_frame]

/-- An event changes the event queue and the lost count alone. -/
theorem raise_frame (p : Part) (src : Nat) (l : List (Nat × Nat)) :
    raise p src l = { p with regs := (raise p src l).regs, host := (raise p src l).host } := queueEvent_frame p _

@[simp] theorem raise_readData (p : Part) (src : Nat) (l : List (Nat × Nat)) : (raise p src l).readData = p.readData := by rw [raise_frame]
@[simp] theorem raise_readPec (p : Part) (src : Nat) (l : List (Nat × Nat)) : (raise p src l).readPec = p.readPec := by rw [raise_frame]
@[simp] theorem raise_hiLatch (p : Part) (src : Nat) (l : List (Nat × Nat)) : (raise p src l).hiLatch = p.hiLatch := by rw [raise_frame]
@[simp] theorem raise_loHeld (p : Part) (src : Nat) (l : List (Nat × Nat)) : (raise p src l).loHeld = p.loHeld := by rw [raise_frame]
@[simp] theorem raise_free (p : Part) (src : Nat) (l : List (Nat × Nat)) : (raise p src l).free = p.free := by rw [raise_frame]
@[simp] theorem raise_now (p : Part) (src : Nat) (l : List (Nat × Nat)) : (raise p src l).now = p.now := by rw [raise_frame]
@[simp] theorem raise_tk (p : Part) (src : Nat) (l : List (Nat × Nat)) : (raise p src l).tk = p.tk := by rw [raise_frame]
@[simp] theorem raise_svn (p : Part) (src : Nat) (l : List (Nat × Nat)) : (raise p src l).svn = p.svn := by rw [raise_frame]
@[simp] theorem raise_sp (p : Part) (src : Nat) (l : List (Nat × Nat)) : (raise p src l).sp = p.sp := by rw [raise_frame]
@[simp] theorem raise_gr (p : Part) (src : Nat) (l : List (Nat × Nat)) : (raise p src l).gr = p.gr := by rw [raise_frame]
@[simp] theorem raise_blank (p : Part) (src : Nat) (l : List (Nat × Nat)) : (raise p src l).blank = p.blank := by rw [raise_frame]
@[simp] theorem raise_cols (p : Part) (src : Nat) (l : List (Nat × Nat)) : (raise p src l).cols = p.cols := by rw [raise_frame]
@[simp] theorem raise_regions (p : Part) (src : Nat) (l : List (Nat × Nat)) : (raise p src l).regions = p.regions := by rw [raise_frame]
@[simp] theorem raise_loader (p : Part) (src : Nat) (l : List (Nat × Nat)) : (raise p src l).loader = p.loader := by rw [raise_frame]
@[simp] theorem raise_boot (p : Part) (src : Nat) (l : List (Nat × Nat)) : (raise p src l).boot = p.boot := by rw [raise_frame]
@[simp] theorem raise_mon (p : Part) (src : Nat) (l : List (Nat × Nat)) : (raise p src l).mon = p.mon := by rw [raise_frame]
@[simp] theorem raise_sm (p : Part) (src : Nat) (l : List (Nat × Nat)) : (raise p src l).sm = p.sm := by rw [raise_frame]
@[simp] theorem raise_tim (p : Part) (src : Nat) (l : List (Nat × Nat)) : (raise p src l).tim = p.tim := by rw [raise_frame]
@[simp] theorem raise_lanes (p : Part) (src : Nat) (l : List (Nat × Nat)) : (raise p src l).lanes = p.lanes := by rw [raise_frame]
@[simp] theorem raise_his (p : Part) (src : Nat) (l : List (Nat × Nat)) : (raise p src l).his = p.his := by rw [raise_frame]
@[simp] theorem raise_rdo (p : Part) (src : Nat) (l : List (Nat × Nat)) : (raise p src l).rdo = p.rdo := by rw [raise_frame]
@[simp] theorem raise_cap (p : Part) (src : Nat) (l : List (Nat × Nat)) : (raise p src l).cap = p.cap := by rw [raise_frame]
@[simp] theorem raise_trc (p : Part) (src : Nat) (l : List (Nat × Nat)) : (raise p src l).trc = p.trc := by rw [raise_frame]

/-- A DMA write changes host memory alone. -/
theorem hostWrite_frame (p : Part) (a : Nat) (b : List Byte) :
    hostWrite p a b = { p with host := (hostWrite p a b).host } := rfl

@[simp] theorem hostWrite_regs (p : Part) (a : Nat) (b : List Byte) : (hostWrite p a b).regs = p.regs := by rw [hostWrite_frame]
@[simp] theorem hostWrite_readData (p : Part) (a : Nat) (b : List Byte) : (hostWrite p a b).readData = p.readData := by rw [hostWrite_frame]
@[simp] theorem hostWrite_readPec (p : Part) (a : Nat) (b : List Byte) : (hostWrite p a b).readPec = p.readPec := by rw [hostWrite_frame]
@[simp] theorem hostWrite_hiLatch (p : Part) (a : Nat) (b : List Byte) : (hostWrite p a b).hiLatch = p.hiLatch := by rw [hostWrite_frame]
@[simp] theorem hostWrite_loHeld (p : Part) (a : Nat) (b : List Byte) : (hostWrite p a b).loHeld = p.loHeld := by rw [hostWrite_frame]
@[simp] theorem hostWrite_free (p : Part) (a : Nat) (b : List Byte) : (hostWrite p a b).free = p.free := by rw [hostWrite_frame]
@[simp] theorem hostWrite_now (p : Part) (a : Nat) (b : List Byte) : (hostWrite p a b).now = p.now := by rw [hostWrite_frame]
@[simp] theorem hostWrite_tk (p : Part) (a : Nat) (b : List Byte) : (hostWrite p a b).tk = p.tk := by rw [hostWrite_frame]
@[simp] theorem hostWrite_svn (p : Part) (a : Nat) (b : List Byte) : (hostWrite p a b).svn = p.svn := by rw [hostWrite_frame]
@[simp] theorem hostWrite_sp (p : Part) (a : Nat) (b : List Byte) : (hostWrite p a b).sp = p.sp := by rw [hostWrite_frame]
@[simp] theorem hostWrite_gr (p : Part) (a : Nat) (b : List Byte) : (hostWrite p a b).gr = p.gr := by rw [hostWrite_frame]
@[simp] theorem hostWrite_blank (p : Part) (a : Nat) (b : List Byte) : (hostWrite p a b).blank = p.blank := by rw [hostWrite_frame]
@[simp] theorem hostWrite_cols (p : Part) (a : Nat) (b : List Byte) : (hostWrite p a b).cols = p.cols := by rw [hostWrite_frame]
@[simp] theorem hostWrite_regions (p : Part) (a : Nat) (b : List Byte) : (hostWrite p a b).regions = p.regions := by rw [hostWrite_frame]
@[simp] theorem hostWrite_loader (p : Part) (a : Nat) (b : List Byte) : (hostWrite p a b).loader = p.loader := by rw [hostWrite_frame]
@[simp] theorem hostWrite_boot (p : Part) (a : Nat) (b : List Byte) : (hostWrite p a b).boot = p.boot := by rw [hostWrite_frame]
@[simp] theorem hostWrite_mon (p : Part) (a : Nat) (b : List Byte) : (hostWrite p a b).mon = p.mon := by rw [hostWrite_frame]
@[simp] theorem hostWrite_sm (p : Part) (a : Nat) (b : List Byte) : (hostWrite p a b).sm = p.sm := by rw [hostWrite_frame]
@[simp] theorem hostWrite_tim (p : Part) (a : Nat) (b : List Byte) : (hostWrite p a b).tim = p.tim := by rw [hostWrite_frame]
@[simp] theorem hostWrite_lanes (p : Part) (a : Nat) (b : List Byte) : (hostWrite p a b).lanes = p.lanes := by rw [hostWrite_frame]
@[simp] theorem hostWrite_his (p : Part) (a : Nat) (b : List Byte) : (hostWrite p a b).his = p.his := by rw [hostWrite_frame]
@[simp] theorem hostWrite_rdo (p : Part) (a : Nat) (b : List Byte) : (hostWrite p a b).rdo = p.rdo := by rw [hostWrite_frame]
@[simp] theorem hostWrite_cap (p : Part) (a : Nat) (b : List Byte) : (hostWrite p a b).cap = p.cap := by rw [hostWrite_frame]
@[simp] theorem hostWrite_trc (p : Part) (a : Nat) (b : List Byte) : (hostWrite p a b).trc = p.trc := by rw [hostWrite_frame]

/-- A message changes the host interface alone. -/
theorem sendVector_frame (p : Part) (v : Nat) :
    sendVector p v = { p with host := (sendVector p v).host } := by
  unfold sendVector; repeat (first | rfl | split)

@[simp] theorem sendVector_regs (p : Part) (v : Nat) : (sendVector p v).regs = p.regs := by rw [sendVector_frame]
@[simp] theorem sendVector_readData (p : Part) (v : Nat) : (sendVector p v).readData = p.readData := by rw [sendVector_frame]
@[simp] theorem sendVector_readPec (p : Part) (v : Nat) : (sendVector p v).readPec = p.readPec := by rw [sendVector_frame]
@[simp] theorem sendVector_hiLatch (p : Part) (v : Nat) : (sendVector p v).hiLatch = p.hiLatch := by rw [sendVector_frame]
@[simp] theorem sendVector_loHeld (p : Part) (v : Nat) : (sendVector p v).loHeld = p.loHeld := by rw [sendVector_frame]
@[simp] theorem sendVector_free (p : Part) (v : Nat) : (sendVector p v).free = p.free := by rw [sendVector_frame]
@[simp] theorem sendVector_now (p : Part) (v : Nat) : (sendVector p v).now = p.now := by rw [sendVector_frame]
@[simp] theorem sendVector_tk (p : Part) (v : Nat) : (sendVector p v).tk = p.tk := by rw [sendVector_frame]
@[simp] theorem sendVector_svn (p : Part) (v : Nat) : (sendVector p v).svn = p.svn := by rw [sendVector_frame]
@[simp] theorem sendVector_sp (p : Part) (v : Nat) : (sendVector p v).sp = p.sp := by rw [sendVector_frame]
@[simp] theorem sendVector_gr (p : Part) (v : Nat) : (sendVector p v).gr = p.gr := by rw [sendVector_frame]
@[simp] theorem sendVector_blank (p : Part) (v : Nat) : (sendVector p v).blank = p.blank := by rw [sendVector_frame]
@[simp] theorem sendVector_cols (p : Part) (v : Nat) : (sendVector p v).cols = p.cols := by rw [sendVector_frame]
@[simp] theorem sendVector_regions (p : Part) (v : Nat) : (sendVector p v).regions = p.regions := by rw [sendVector_frame]
@[simp] theorem sendVector_loader (p : Part) (v : Nat) : (sendVector p v).loader = p.loader := by rw [sendVector_frame]
@[simp] theorem sendVector_boot (p : Part) (v : Nat) : (sendVector p v).boot = p.boot := by rw [sendVector_frame]
@[simp] theorem sendVector_mon (p : Part) (v : Nat) : (sendVector p v).mon = p.mon := by rw [sendVector_frame]
@[simp] theorem sendVector_sm (p : Part) (v : Nat) : (sendVector p v).sm = p.sm := by rw [sendVector_frame]
@[simp] theorem sendVector_tim (p : Part) (v : Nat) : (sendVector p v).tim = p.tim := by rw [sendVector_frame]
@[simp] theorem sendVector_lanes (p : Part) (v : Nat) : (sendVector p v).lanes = p.lanes := by rw [sendVector_frame]
@[simp] theorem sendVector_his (p : Part) (v : Nat) : (sendVector p v).his = p.his := by rw [sendVector_frame]
@[simp] theorem sendVector_rdo (p : Part) (v : Nat) : (sendVector p v).rdo = p.rdo := by rw [sendVector_frame]
@[simp] theorem sendVector_cap (p : Part) (v : Nat) : (sendVector p v).cap = p.cap := by rw [sendVector_frame]
@[simp] theorem sendVector_trc (p : Part) (v : Nat) : (sendVector p v).trc = p.trc := by rw [sendVector_frame]

/-- A count of a ring is kept in the host interface. -/
theorem setPartCount_frame (p : Part) (r : RingId) (n : Nat) :
    setPartCount p r n = { p with host := (setPartCount p r n).host } := rfl

@[simp] theorem setPartCount_regs (p : Part) (r : RingId) (n : Nat) : (setPartCount p r n).regs = p.regs := by rw [setPartCount_frame]
@[simp] theorem setPartCount_readData (p : Part) (r : RingId) (n : Nat) : (setPartCount p r n).readData = p.readData := by rw [setPartCount_frame]
@[simp] theorem setPartCount_readPec (p : Part) (r : RingId) (n : Nat) : (setPartCount p r n).readPec = p.readPec := by rw [setPartCount_frame]
@[simp] theorem setPartCount_hiLatch (p : Part) (r : RingId) (n : Nat) : (setPartCount p r n).hiLatch = p.hiLatch := by rw [setPartCount_frame]
@[simp] theorem setPartCount_loHeld (p : Part) (r : RingId) (n : Nat) : (setPartCount p r n).loHeld = p.loHeld := by rw [setPartCount_frame]
@[simp] theorem setPartCount_free (p : Part) (r : RingId) (n : Nat) : (setPartCount p r n).free = p.free := by rw [setPartCount_frame]
@[simp] theorem setPartCount_now (p : Part) (r : RingId) (n : Nat) : (setPartCount p r n).now = p.now := by rw [setPartCount_frame]
@[simp] theorem setPartCount_tk (p : Part) (r : RingId) (n : Nat) : (setPartCount p r n).tk = p.tk := by rw [setPartCount_frame]
@[simp] theorem setPartCount_svn (p : Part) (r : RingId) (n : Nat) : (setPartCount p r n).svn = p.svn := by rw [setPartCount_frame]
@[simp] theorem setPartCount_sp (p : Part) (r : RingId) (n : Nat) : (setPartCount p r n).sp = p.sp := by rw [setPartCount_frame]
@[simp] theorem setPartCount_gr (p : Part) (r : RingId) (n : Nat) : (setPartCount p r n).gr = p.gr := by rw [setPartCount_frame]
@[simp] theorem setPartCount_blank (p : Part) (r : RingId) (n : Nat) : (setPartCount p r n).blank = p.blank := by rw [setPartCount_frame]
@[simp] theorem setPartCount_cols (p : Part) (r : RingId) (n : Nat) : (setPartCount p r n).cols = p.cols := by rw [setPartCount_frame]
@[simp] theorem setPartCount_regions (p : Part) (r : RingId) (n : Nat) : (setPartCount p r n).regions = p.regions := by rw [setPartCount_frame]
@[simp] theorem setPartCount_loader (p : Part) (r : RingId) (n : Nat) : (setPartCount p r n).loader = p.loader := by rw [setPartCount_frame]
@[simp] theorem setPartCount_boot (p : Part) (r : RingId) (n : Nat) : (setPartCount p r n).boot = p.boot := by rw [setPartCount_frame]
@[simp] theorem setPartCount_mon (p : Part) (r : RingId) (n : Nat) : (setPartCount p r n).mon = p.mon := by rw [setPartCount_frame]
@[simp] theorem setPartCount_sm (p : Part) (r : RingId) (n : Nat) : (setPartCount p r n).sm = p.sm := by rw [setPartCount_frame]
@[simp] theorem setPartCount_tim (p : Part) (r : RingId) (n : Nat) : (setPartCount p r n).tim = p.tim := by rw [setPartCount_frame]
@[simp] theorem setPartCount_lanes (p : Part) (r : RingId) (n : Nat) : (setPartCount p r n).lanes = p.lanes := by rw [setPartCount_frame]
@[simp] theorem setPartCount_his (p : Part) (r : RingId) (n : Nat) : (setPartCount p r n).his = p.his := by rw [setPartCount_frame]
@[simp] theorem setPartCount_rdo (p : Part) (r : RingId) (n : Nat) : (setPartCount p r n).rdo = p.rdo := by rw [setPartCount_frame]
@[simp] theorem setPartCount_cap (p : Part) (r : RingId) (n : Nat) : (setPartCount p r n).cap = p.cap := by rw [setPartCount_frame]
@[simp] theorem setPartCount_trc (p : Part) (r : RingId) (n : Nat) : (setPartCount p r n).trc = p.trc := by rw [setPartCount_frame]

/-- A count of a ring is kept in the host interface. -/
theorem setHostCount_frame (p : Part) (r : RingId) (n : Nat) :
    setHostCount p r n = { p with host := (setHostCount p r n).host } := rfl

@[simp] theorem setHostCount_regs (p : Part) (r : RingId) (n : Nat) : (setHostCount p r n).regs = p.regs := by rw [setHostCount_frame]
@[simp] theorem setHostCount_readData (p : Part) (r : RingId) (n : Nat) : (setHostCount p r n).readData = p.readData := by rw [setHostCount_frame]
@[simp] theorem setHostCount_readPec (p : Part) (r : RingId) (n : Nat) : (setHostCount p r n).readPec = p.readPec := by rw [setHostCount_frame]
@[simp] theorem setHostCount_hiLatch (p : Part) (r : RingId) (n : Nat) : (setHostCount p r n).hiLatch = p.hiLatch := by rw [setHostCount_frame]
@[simp] theorem setHostCount_loHeld (p : Part) (r : RingId) (n : Nat) : (setHostCount p r n).loHeld = p.loHeld := by rw [setHostCount_frame]
@[simp] theorem setHostCount_free (p : Part) (r : RingId) (n : Nat) : (setHostCount p r n).free = p.free := by rw [setHostCount_frame]
@[simp] theorem setHostCount_now (p : Part) (r : RingId) (n : Nat) : (setHostCount p r n).now = p.now := by rw [setHostCount_frame]
@[simp] theorem setHostCount_tk (p : Part) (r : RingId) (n : Nat) : (setHostCount p r n).tk = p.tk := by rw [setHostCount_frame]
@[simp] theorem setHostCount_svn (p : Part) (r : RingId) (n : Nat) : (setHostCount p r n).svn = p.svn := by rw [setHostCount_frame]
@[simp] theorem setHostCount_sp (p : Part) (r : RingId) (n : Nat) : (setHostCount p r n).sp = p.sp := by rw [setHostCount_frame]
@[simp] theorem setHostCount_gr (p : Part) (r : RingId) (n : Nat) : (setHostCount p r n).gr = p.gr := by rw [setHostCount_frame]
@[simp] theorem setHostCount_blank (p : Part) (r : RingId) (n : Nat) : (setHostCount p r n).blank = p.blank := by rw [setHostCount_frame]
@[simp] theorem setHostCount_cols (p : Part) (r : RingId) (n : Nat) : (setHostCount p r n).cols = p.cols := by rw [setHostCount_frame]
@[simp] theorem setHostCount_regions (p : Part) (r : RingId) (n : Nat) : (setHostCount p r n).regions = p.regions := by rw [setHostCount_frame]
@[simp] theorem setHostCount_loader (p : Part) (r : RingId) (n : Nat) : (setHostCount p r n).loader = p.loader := by rw [setHostCount_frame]
@[simp] theorem setHostCount_boot (p : Part) (r : RingId) (n : Nat) : (setHostCount p r n).boot = p.boot := by rw [setHostCount_frame]
@[simp] theorem setHostCount_mon (p : Part) (r : RingId) (n : Nat) : (setHostCount p r n).mon = p.mon := by rw [setHostCount_frame]
@[simp] theorem setHostCount_sm (p : Part) (r : RingId) (n : Nat) : (setHostCount p r n).sm = p.sm := by rw [setHostCount_frame]
@[simp] theorem setHostCount_tim (p : Part) (r : RingId) (n : Nat) : (setHostCount p r n).tim = p.tim := by rw [setHostCount_frame]
@[simp] theorem setHostCount_lanes (p : Part) (r : RingId) (n : Nat) : (setHostCount p r n).lanes = p.lanes := by rw [setHostCount_frame]
@[simp] theorem setHostCount_his (p : Part) (r : RingId) (n : Nat) : (setHostCount p r n).his = p.his := by rw [setHostCount_frame]
@[simp] theorem setHostCount_rdo (p : Part) (r : RingId) (n : Nat) : (setHostCount p r n).rdo = p.rdo := by rw [setHostCount_frame]
@[simp] theorem setHostCount_cap (p : Part) (r : RingId) (n : Nat) : (setHostCount p r n).cap = p.cap := by rw [setHostCount_frame]
@[simp] theorem setHostCount_trc (p : Part) (r : RingId) (n : Nat) : (setHostCount p r n).trc = p.trc := by rw [setHostCount_frame]

/-- Reserved slots are kept in the host interface. -/
theorem setReserved_frame (p : Part) (c n : Nat) :
    setReserved p c n = { p with host := (setReserved p c n).host } := rfl

@[simp] theorem setReserved_regs (p : Part) (c n : Nat) : (setReserved p c n).regs = p.regs := by rw [setReserved_frame]
@[simp] theorem setReserved_readData (p : Part) (c n : Nat) : (setReserved p c n).readData = p.readData := by rw [setReserved_frame]
@[simp] theorem setReserved_readPec (p : Part) (c n : Nat) : (setReserved p c n).readPec = p.readPec := by rw [setReserved_frame]
@[simp] theorem setReserved_hiLatch (p : Part) (c n : Nat) : (setReserved p c n).hiLatch = p.hiLatch := by rw [setReserved_frame]
@[simp] theorem setReserved_loHeld (p : Part) (c n : Nat) : (setReserved p c n).loHeld = p.loHeld := by rw [setReserved_frame]
@[simp] theorem setReserved_free (p : Part) (c n : Nat) : (setReserved p c n).free = p.free := by rw [setReserved_frame]
@[simp] theorem setReserved_now (p : Part) (c n : Nat) : (setReserved p c n).now = p.now := by rw [setReserved_frame]
@[simp] theorem setReserved_tk (p : Part) (c n : Nat) : (setReserved p c n).tk = p.tk := by rw [setReserved_frame]
@[simp] theorem setReserved_svn (p : Part) (c n : Nat) : (setReserved p c n).svn = p.svn := by rw [setReserved_frame]
@[simp] theorem setReserved_sp (p : Part) (c n : Nat) : (setReserved p c n).sp = p.sp := by rw [setReserved_frame]
@[simp] theorem setReserved_gr (p : Part) (c n : Nat) : (setReserved p c n).gr = p.gr := by rw [setReserved_frame]
@[simp] theorem setReserved_blank (p : Part) (c n : Nat) : (setReserved p c n).blank = p.blank := by rw [setReserved_frame]
@[simp] theorem setReserved_cols (p : Part) (c n : Nat) : (setReserved p c n).cols = p.cols := by rw [setReserved_frame]
@[simp] theorem setReserved_regions (p : Part) (c n : Nat) : (setReserved p c n).regions = p.regions := by rw [setReserved_frame]
@[simp] theorem setReserved_loader (p : Part) (c n : Nat) : (setReserved p c n).loader = p.loader := by rw [setReserved_frame]
@[simp] theorem setReserved_boot (p : Part) (c n : Nat) : (setReserved p c n).boot = p.boot := by rw [setReserved_frame]
@[simp] theorem setReserved_mon (p : Part) (c n : Nat) : (setReserved p c n).mon = p.mon := by rw [setReserved_frame]
@[simp] theorem setReserved_sm (p : Part) (c n : Nat) : (setReserved p c n).sm = p.sm := by rw [setReserved_frame]
@[simp] theorem setReserved_tim (p : Part) (c n : Nat) : (setReserved p c n).tim = p.tim := by rw [setReserved_frame]
@[simp] theorem setReserved_lanes (p : Part) (c n : Nat) : (setReserved p c n).lanes = p.lanes := by rw [setReserved_frame]
@[simp] theorem setReserved_his (p : Part) (c n : Nat) : (setReserved p c n).his = p.his := by rw [setReserved_frame]
@[simp] theorem setReserved_rdo (p : Part) (c n : Nat) : (setReserved p c n).rdo = p.rdo := by rw [setReserved_frame]
@[simp] theorem setReserved_cap (p : Part) (c n : Nat) : (setReserved p c n).cap = p.cap := by rw [setReserved_frame]
@[simp] theorem setReserved_trc (p : Part) (c n : Nat) : (setReserved p c n).trc = p.trc := by rw [setReserved_frame]

/-- The entries without a message are kept in the host interface. -/
theorem setUnsignalled_frame (p : Part) (r : RingId) (n : Nat) :
    setUnsignalled p r n = { p with host := (setUnsignalled p r n).host } := rfl

@[simp] theorem setUnsignalled_regs (p : Part) (r : RingId) (n : Nat) : (setUnsignalled p r n).regs = p.regs := by rw [setUnsignalled_frame]
@[simp] theorem setUnsignalled_readData (p : Part) (r : RingId) (n : Nat) : (setUnsignalled p r n).readData = p.readData := by rw [setUnsignalled_frame]
@[simp] theorem setUnsignalled_readPec (p : Part) (r : RingId) (n : Nat) : (setUnsignalled p r n).readPec = p.readPec := by rw [setUnsignalled_frame]
@[simp] theorem setUnsignalled_hiLatch (p : Part) (r : RingId) (n : Nat) : (setUnsignalled p r n).hiLatch = p.hiLatch := by rw [setUnsignalled_frame]
@[simp] theorem setUnsignalled_loHeld (p : Part) (r : RingId) (n : Nat) : (setUnsignalled p r n).loHeld = p.loHeld := by rw [setUnsignalled_frame]
@[simp] theorem setUnsignalled_free (p : Part) (r : RingId) (n : Nat) : (setUnsignalled p r n).free = p.free := by rw [setUnsignalled_frame]
@[simp] theorem setUnsignalled_now (p : Part) (r : RingId) (n : Nat) : (setUnsignalled p r n).now = p.now := by rw [setUnsignalled_frame]
@[simp] theorem setUnsignalled_tk (p : Part) (r : RingId) (n : Nat) : (setUnsignalled p r n).tk = p.tk := by rw [setUnsignalled_frame]
@[simp] theorem setUnsignalled_svn (p : Part) (r : RingId) (n : Nat) : (setUnsignalled p r n).svn = p.svn := by rw [setUnsignalled_frame]
@[simp] theorem setUnsignalled_sp (p : Part) (r : RingId) (n : Nat) : (setUnsignalled p r n).sp = p.sp := by rw [setUnsignalled_frame]
@[simp] theorem setUnsignalled_gr (p : Part) (r : RingId) (n : Nat) : (setUnsignalled p r n).gr = p.gr := by rw [setUnsignalled_frame]
@[simp] theorem setUnsignalled_blank (p : Part) (r : RingId) (n : Nat) : (setUnsignalled p r n).blank = p.blank := by rw [setUnsignalled_frame]
@[simp] theorem setUnsignalled_cols (p : Part) (r : RingId) (n : Nat) : (setUnsignalled p r n).cols = p.cols := by rw [setUnsignalled_frame]
@[simp] theorem setUnsignalled_regions (p : Part) (r : RingId) (n : Nat) : (setUnsignalled p r n).regions = p.regions := by rw [setUnsignalled_frame]
@[simp] theorem setUnsignalled_loader (p : Part) (r : RingId) (n : Nat) : (setUnsignalled p r n).loader = p.loader := by rw [setUnsignalled_frame]
@[simp] theorem setUnsignalled_boot (p : Part) (r : RingId) (n : Nat) : (setUnsignalled p r n).boot = p.boot := by rw [setUnsignalled_frame]
@[simp] theorem setUnsignalled_mon (p : Part) (r : RingId) (n : Nat) : (setUnsignalled p r n).mon = p.mon := by rw [setUnsignalled_frame]
@[simp] theorem setUnsignalled_sm (p : Part) (r : RingId) (n : Nat) : (setUnsignalled p r n).sm = p.sm := by rw [setUnsignalled_frame]
@[simp] theorem setUnsignalled_tim (p : Part) (r : RingId) (n : Nat) : (setUnsignalled p r n).tim = p.tim := by rw [setUnsignalled_frame]
@[simp] theorem setUnsignalled_lanes (p : Part) (r : RingId) (n : Nat) : (setUnsignalled p r n).lanes = p.lanes := by rw [setUnsignalled_frame]
@[simp] theorem setUnsignalled_his (p : Part) (r : RingId) (n : Nat) : (setUnsignalled p r n).his = p.his := by rw [setUnsignalled_frame]
@[simp] theorem setUnsignalled_rdo (p : Part) (r : RingId) (n : Nat) : (setUnsignalled p r n).rdo = p.rdo := by rw [setUnsignalled_frame]
@[simp] theorem setUnsignalled_cap (p : Part) (r : RingId) (n : Nat) : (setUnsignalled p r n).cap = p.cap := by rw [setUnsignalled_frame]
@[simp] theorem setUnsignalled_trc (p : Part) (r : RingId) (n : Nat) : (setUnsignalled p r n).trc = p.trc := by rw [setUnsignalled_frame]

/-- A signal of a ring changes the host interface alone. -/
theorem signalRing_frame (p : Part) (r : RingId) :
    signalRing p r = { p with host := (signalRing p r).host } := by
  unfold signalRing; split
  · rfl
  · dsimp only; split
    · rw [setUnsignalled_frame, sendVector_frame]; rfl
    · rfl

@[simp] theorem signalRing_regs (p : Part) (r : RingId) : (signalRing p r).regs = p.regs := by rw [signalRing_frame]
@[simp] theorem signalRing_readData (p : Part) (r : RingId) : (signalRing p r).readData = p.readData := by rw [signalRing_frame]
@[simp] theorem signalRing_readPec (p : Part) (r : RingId) : (signalRing p r).readPec = p.readPec := by rw [signalRing_frame]
@[simp] theorem signalRing_hiLatch (p : Part) (r : RingId) : (signalRing p r).hiLatch = p.hiLatch := by rw [signalRing_frame]
@[simp] theorem signalRing_loHeld (p : Part) (r : RingId) : (signalRing p r).loHeld = p.loHeld := by rw [signalRing_frame]
@[simp] theorem signalRing_free (p : Part) (r : RingId) : (signalRing p r).free = p.free := by rw [signalRing_frame]
@[simp] theorem signalRing_now (p : Part) (r : RingId) : (signalRing p r).now = p.now := by rw [signalRing_frame]
@[simp] theorem signalRing_tk (p : Part) (r : RingId) : (signalRing p r).tk = p.tk := by rw [signalRing_frame]
@[simp] theorem signalRing_svn (p : Part) (r : RingId) : (signalRing p r).svn = p.svn := by rw [signalRing_frame]
@[simp] theorem signalRing_sp (p : Part) (r : RingId) : (signalRing p r).sp = p.sp := by rw [signalRing_frame]
@[simp] theorem signalRing_gr (p : Part) (r : RingId) : (signalRing p r).gr = p.gr := by rw [signalRing_frame]
@[simp] theorem signalRing_blank (p : Part) (r : RingId) : (signalRing p r).blank = p.blank := by rw [signalRing_frame]
@[simp] theorem signalRing_cols (p : Part) (r : RingId) : (signalRing p r).cols = p.cols := by rw [signalRing_frame]
@[simp] theorem signalRing_regions (p : Part) (r : RingId) : (signalRing p r).regions = p.regions := by rw [signalRing_frame]
@[simp] theorem signalRing_loader (p : Part) (r : RingId) : (signalRing p r).loader = p.loader := by rw [signalRing_frame]
@[simp] theorem signalRing_boot (p : Part) (r : RingId) : (signalRing p r).boot = p.boot := by rw [signalRing_frame]
@[simp] theorem signalRing_mon (p : Part) (r : RingId) : (signalRing p r).mon = p.mon := by rw [signalRing_frame]
@[simp] theorem signalRing_sm (p : Part) (r : RingId) : (signalRing p r).sm = p.sm := by rw [signalRing_frame]
@[simp] theorem signalRing_tim (p : Part) (r : RingId) : (signalRing p r).tim = p.tim := by rw [signalRing_frame]
@[simp] theorem signalRing_lanes (p : Part) (r : RingId) : (signalRing p r).lanes = p.lanes := by rw [signalRing_frame]
@[simp] theorem signalRing_his (p : Part) (r : RingId) : (signalRing p r).his = p.his := by rw [signalRing_frame]
@[simp] theorem signalRing_rdo (p : Part) (r : RingId) : (signalRing p r).rdo = p.rdo := by rw [signalRing_frame]
@[simp] theorem signalRing_cap (p : Part) (r : RingId) : (signalRing p r).cap = p.cap := by rw [signalRing_frame]
@[simp] theorem signalRing_trc (p : Part) (r : RingId) : (signalRing p r).trc = p.trc := by rw [signalRing_frame]

/-! A completion entry changes the host interface alone. -/

@[simp] theorem writeCpl_regs (p : Part) (e : CplEntry) : (writeCpl p e).regs = p.regs := by
  simp [writeCpl]
@[simp] theorem writeCpl_readData (p : Part) (e : CplEntry) : (writeCpl p e).readData = p.readData := by
  simp [writeCpl]
@[simp] theorem writeCpl_readPec (p : Part) (e : CplEntry) : (writeCpl p e).readPec = p.readPec := by
  simp [writeCpl]
@[simp] theorem writeCpl_hiLatch (p : Part) (e : CplEntry) : (writeCpl p e).hiLatch = p.hiLatch := by
  simp [writeCpl]
@[simp] theorem writeCpl_loHeld (p : Part) (e : CplEntry) : (writeCpl p e).loHeld = p.loHeld := by
  simp [writeCpl]
@[simp] theorem writeCpl_free (p : Part) (e : CplEntry) : (writeCpl p e).free = p.free := by
  simp [writeCpl]
@[simp] theorem writeCpl_now (p : Part) (e : CplEntry) : (writeCpl p e).now = p.now := by
  simp [writeCpl]
@[simp] theorem writeCpl_tk (p : Part) (e : CplEntry) : (writeCpl p e).tk = p.tk := by
  simp [writeCpl]
@[simp] theorem writeCpl_svn (p : Part) (e : CplEntry) : (writeCpl p e).svn = p.svn := by
  simp [writeCpl]
@[simp] theorem writeCpl_sp (p : Part) (e : CplEntry) : (writeCpl p e).sp = p.sp := by
  simp [writeCpl]
@[simp] theorem writeCpl_gr (p : Part) (e : CplEntry) : (writeCpl p e).gr = p.gr := by
  simp [writeCpl]
@[simp] theorem writeCpl_blank (p : Part) (e : CplEntry) : (writeCpl p e).blank = p.blank := by
  simp [writeCpl]
@[simp] theorem writeCpl_cols (p : Part) (e : CplEntry) : (writeCpl p e).cols = p.cols := by
  simp [writeCpl]
@[simp] theorem writeCpl_regions (p : Part) (e : CplEntry) : (writeCpl p e).regions = p.regions := by
  simp [writeCpl]
@[simp] theorem writeCpl_loader (p : Part) (e : CplEntry) : (writeCpl p e).loader = p.loader := by
  simp [writeCpl]
@[simp] theorem writeCpl_boot (p : Part) (e : CplEntry) : (writeCpl p e).boot = p.boot := by
  simp [writeCpl]
@[simp] theorem writeCpl_mon (p : Part) (e : CplEntry) : (writeCpl p e).mon = p.mon := by
  simp [writeCpl]
@[simp] theorem writeCpl_sm (p : Part) (e : CplEntry) : (writeCpl p e).sm = p.sm := by
  simp [writeCpl]
@[simp] theorem writeCpl_tim (p : Part) (e : CplEntry) : (writeCpl p e).tim = p.tim := by
  simp [writeCpl]
@[simp] theorem writeCpl_lanes (p : Part) (e : CplEntry) : (writeCpl p e).lanes = p.lanes := by
  simp [writeCpl]
@[simp] theorem writeCpl_his (p : Part) (e : CplEntry) : (writeCpl p e).his = p.his := by
  simp [writeCpl]
@[simp] theorem writeCpl_rdo (p : Part) (e : CplEntry) : (writeCpl p e).rdo = p.rdo := by
  simp [writeCpl]
@[simp] theorem writeCpl_cap (p : Part) (e : CplEntry) : (writeCpl p e).cap = p.cap := by
  simp [writeCpl]
@[simp] theorem writeCpl_trc (p : Part) (e : CplEntry) : (writeCpl p e).trc = p.trc := by
  simp [writeCpl]
/-- A completion entry changes the host interface alone. -/
theorem writeCpl_frame (p : Part) (e : CplEntry) :
    writeCpl p e = { p with host := (writeCpl p e).host } := by
  have eta : ∀ q : Part, q = ⟨q.regs, q.readData, q.readPec, q.hiLatch, q.loHeld, q.free, q.now, q.tk, q.host, q.svn, q.sp, q.gr, q.blank, q.cols, q.regions, q.loader, q.boot, q.mon, q.sm, q.tim, q.lanes, q.his, q.rdo, q.cap, q.trc⟩ := fun q => rfl
  rw [eta (writeCpl p e)]; simp

/-- A completion changes the host interface alone. -/
theorem deliverCpl_frame (p : Part) (e : CplEntry) :
    deliverCpl p e = { p with host := (deliverCpl p e).host } := by
  unfold deliverCpl; split
  · rw [writeCpl_frame]
  · rfl

@[simp] theorem deliverCpl_regs (p : Part) (e : CplEntry) : (deliverCpl p e).regs = p.regs := by rw [deliverCpl_frame]
@[simp] theorem deliverCpl_readData (p : Part) (e : CplEntry) : (deliverCpl p e).readData = p.readData := by rw [deliverCpl_frame]
@[simp] theorem deliverCpl_readPec (p : Part) (e : CplEntry) : (deliverCpl p e).readPec = p.readPec := by rw [deliverCpl_frame]
@[simp] theorem deliverCpl_hiLatch (p : Part) (e : CplEntry) : (deliverCpl p e).hiLatch = p.hiLatch := by rw [deliverCpl_frame]
@[simp] theorem deliverCpl_loHeld (p : Part) (e : CplEntry) : (deliverCpl p e).loHeld = p.loHeld := by rw [deliverCpl_frame]
@[simp] theorem deliverCpl_free (p : Part) (e : CplEntry) : (deliverCpl p e).free = p.free := by rw [deliverCpl_frame]
@[simp] theorem deliverCpl_now (p : Part) (e : CplEntry) : (deliverCpl p e).now = p.now := by rw [deliverCpl_frame]
@[simp] theorem deliverCpl_tk (p : Part) (e : CplEntry) : (deliverCpl p e).tk = p.tk := by rw [deliverCpl_frame]
@[simp] theorem deliverCpl_svn (p : Part) (e : CplEntry) : (deliverCpl p e).svn = p.svn := by rw [deliverCpl_frame]
@[simp] theorem deliverCpl_sp (p : Part) (e : CplEntry) : (deliverCpl p e).sp = p.sp := by rw [deliverCpl_frame]
@[simp] theorem deliverCpl_gr (p : Part) (e : CplEntry) : (deliverCpl p e).gr = p.gr := by rw [deliverCpl_frame]
@[simp] theorem deliverCpl_blank (p : Part) (e : CplEntry) : (deliverCpl p e).blank = p.blank := by rw [deliverCpl_frame]
@[simp] theorem deliverCpl_cols (p : Part) (e : CplEntry) : (deliverCpl p e).cols = p.cols := by rw [deliverCpl_frame]
@[simp] theorem deliverCpl_regions (p : Part) (e : CplEntry) : (deliverCpl p e).regions = p.regions := by rw [deliverCpl_frame]
@[simp] theorem deliverCpl_loader (p : Part) (e : CplEntry) : (deliverCpl p e).loader = p.loader := by rw [deliverCpl_frame]
@[simp] theorem deliverCpl_boot (p : Part) (e : CplEntry) : (deliverCpl p e).boot = p.boot := by rw [deliverCpl_frame]
@[simp] theorem deliverCpl_mon (p : Part) (e : CplEntry) : (deliverCpl p e).mon = p.mon := by rw [deliverCpl_frame]
@[simp] theorem deliverCpl_sm (p : Part) (e : CplEntry) : (deliverCpl p e).sm = p.sm := by rw [deliverCpl_frame]
@[simp] theorem deliverCpl_tim (p : Part) (e : CplEntry) : (deliverCpl p e).tim = p.tim := by rw [deliverCpl_frame]
@[simp] theorem deliverCpl_lanes (p : Part) (e : CplEntry) : (deliverCpl p e).lanes = p.lanes := by rw [deliverCpl_frame]
@[simp] theorem deliverCpl_his (p : Part) (e : CplEntry) : (deliverCpl p e).his = p.his := by rw [deliverCpl_frame]
@[simp] theorem deliverCpl_rdo (p : Part) (e : CplEntry) : (deliverCpl p e).rdo = p.rdo := by rw [deliverCpl_frame]
@[simp] theorem deliverCpl_cap (p : Part) (e : CplEntry) : (deliverCpl p e).cap = p.cap := by rw [deliverCpl_frame]
@[simp] theorem deliverCpl_trc (p : Part) (e : CplEntry) : (deliverCpl p e).trc = p.trc := by rw [deliverCpl_frame]

/-- A completion changes the host interface alone. -/
theorem complete_frame (p : Part) (h : Hdr) (st : Status) (a r : Nat) :
    complete p h st a r = { p with host := (complete p h st a r).host } := by
  unfold complete; rw [deliverCpl_frame]

@[simp] theorem complete_regs (p : Part) (h : Hdr) (st : Status) (a r : Nat) : (complete p h st a r).regs = p.regs := by rw [complete_frame]
@[simp] theorem complete_readData (p : Part) (h : Hdr) (st : Status) (a r : Nat) : (complete p h st a r).readData = p.readData := by rw [complete_frame]
@[simp] theorem complete_readPec (p : Part) (h : Hdr) (st : Status) (a r : Nat) : (complete p h st a r).readPec = p.readPec := by rw [complete_frame]
@[simp] theorem complete_hiLatch (p : Part) (h : Hdr) (st : Status) (a r : Nat) : (complete p h st a r).hiLatch = p.hiLatch := by rw [complete_frame]
@[simp] theorem complete_loHeld (p : Part) (h : Hdr) (st : Status) (a r : Nat) : (complete p h st a r).loHeld = p.loHeld := by rw [complete_frame]
@[simp] theorem complete_free (p : Part) (h : Hdr) (st : Status) (a r : Nat) : (complete p h st a r).free = p.free := by rw [complete_frame]
@[simp] theorem complete_now (p : Part) (h : Hdr) (st : Status) (a r : Nat) : (complete p h st a r).now = p.now := by rw [complete_frame]
@[simp] theorem complete_tk (p : Part) (h : Hdr) (st : Status) (a r : Nat) : (complete p h st a r).tk = p.tk := by rw [complete_frame]
@[simp] theorem complete_svn (p : Part) (h : Hdr) (st : Status) (a r : Nat) : (complete p h st a r).svn = p.svn := by rw [complete_frame]
@[simp] theorem complete_sp (p : Part) (h : Hdr) (st : Status) (a r : Nat) : (complete p h st a r).sp = p.sp := by rw [complete_frame]
@[simp] theorem complete_gr (p : Part) (h : Hdr) (st : Status) (a r : Nat) : (complete p h st a r).gr = p.gr := by rw [complete_frame]
@[simp] theorem complete_blank (p : Part) (h : Hdr) (st : Status) (a r : Nat) : (complete p h st a r).blank = p.blank := by rw [complete_frame]
@[simp] theorem complete_cols (p : Part) (h : Hdr) (st : Status) (a r : Nat) : (complete p h st a r).cols = p.cols := by rw [complete_frame]
@[simp] theorem complete_regions (p : Part) (h : Hdr) (st : Status) (a r : Nat) : (complete p h st a r).regions = p.regions := by rw [complete_frame]
@[simp] theorem complete_loader (p : Part) (h : Hdr) (st : Status) (a r : Nat) : (complete p h st a r).loader = p.loader := by rw [complete_frame]
@[simp] theorem complete_boot (p : Part) (h : Hdr) (st : Status) (a r : Nat) : (complete p h st a r).boot = p.boot := by rw [complete_frame]
@[simp] theorem complete_mon (p : Part) (h : Hdr) (st : Status) (a r : Nat) : (complete p h st a r).mon = p.mon := by rw [complete_frame]
@[simp] theorem complete_sm (p : Part) (h : Hdr) (st : Status) (a r : Nat) : (complete p h st a r).sm = p.sm := by rw [complete_frame]
@[simp] theorem complete_tim (p : Part) (h : Hdr) (st : Status) (a r : Nat) : (complete p h st a r).tim = p.tim := by rw [complete_frame]
@[simp] theorem complete_lanes (p : Part) (h : Hdr) (st : Status) (a r : Nat) : (complete p h st a r).lanes = p.lanes := by rw [complete_frame]
@[simp] theorem complete_his (p : Part) (h : Hdr) (st : Status) (a r : Nat) : (complete p h st a r).his = p.his := by rw [complete_frame]
@[simp] theorem complete_rdo (p : Part) (h : Hdr) (st : Status) (a r : Nat) : (complete p h st a r).rdo = p.rdo := by rw [complete_frame]
@[simp] theorem complete_cap (p : Part) (h : Hdr) (st : Status) (a r : Nat) : (complete p h st a r).cap = p.cap := by rw [complete_frame]
@[simp] theorem complete_trc (p : Part) (h : Hdr) (st : Status) (a r : Nat) : (complete p h st a r).trc = p.trc := by rw [complete_frame]

/-- A completion changes the host interface alone. -/
theorem completeSt_frame (p : Part) (h : Hdr) (st : Status) :
    completeSt p h st = { p with host := (completeSt p h st).host } := complete_frame p h st 0 0

@[simp] theorem completeSt_regs (p : Part) (h : Hdr) (st : Status) : (completeSt p h st).regs = p.regs := by rw [completeSt_frame]
@[simp] theorem completeSt_readData (p : Part) (h : Hdr) (st : Status) : (completeSt p h st).readData = p.readData := by rw [completeSt_frame]
@[simp] theorem completeSt_readPec (p : Part) (h : Hdr) (st : Status) : (completeSt p h st).readPec = p.readPec := by rw [completeSt_frame]
@[simp] theorem completeSt_hiLatch (p : Part) (h : Hdr) (st : Status) : (completeSt p h st).hiLatch = p.hiLatch := by rw [completeSt_frame]
@[simp] theorem completeSt_loHeld (p : Part) (h : Hdr) (st : Status) : (completeSt p h st).loHeld = p.loHeld := by rw [completeSt_frame]
@[simp] theorem completeSt_free (p : Part) (h : Hdr) (st : Status) : (completeSt p h st).free = p.free := by rw [completeSt_frame]
@[simp] theorem completeSt_now (p : Part) (h : Hdr) (st : Status) : (completeSt p h st).now = p.now := by rw [completeSt_frame]
@[simp] theorem completeSt_tk (p : Part) (h : Hdr) (st : Status) : (completeSt p h st).tk = p.tk := by rw [completeSt_frame]
@[simp] theorem completeSt_svn (p : Part) (h : Hdr) (st : Status) : (completeSt p h st).svn = p.svn := by rw [completeSt_frame]
@[simp] theorem completeSt_sp (p : Part) (h : Hdr) (st : Status) : (completeSt p h st).sp = p.sp := by rw [completeSt_frame]
@[simp] theorem completeSt_gr (p : Part) (h : Hdr) (st : Status) : (completeSt p h st).gr = p.gr := by rw [completeSt_frame]
@[simp] theorem completeSt_blank (p : Part) (h : Hdr) (st : Status) : (completeSt p h st).blank = p.blank := by rw [completeSt_frame]
@[simp] theorem completeSt_cols (p : Part) (h : Hdr) (st : Status) : (completeSt p h st).cols = p.cols := by rw [completeSt_frame]
@[simp] theorem completeSt_regions (p : Part) (h : Hdr) (st : Status) : (completeSt p h st).regions = p.regions := by rw [completeSt_frame]
@[simp] theorem completeSt_loader (p : Part) (h : Hdr) (st : Status) : (completeSt p h st).loader = p.loader := by rw [completeSt_frame]
@[simp] theorem completeSt_boot (p : Part) (h : Hdr) (st : Status) : (completeSt p h st).boot = p.boot := by rw [completeSt_frame]
@[simp] theorem completeSt_mon (p : Part) (h : Hdr) (st : Status) : (completeSt p h st).mon = p.mon := by rw [completeSt_frame]
@[simp] theorem completeSt_sm (p : Part) (h : Hdr) (st : Status) : (completeSt p h st).sm = p.sm := by rw [completeSt_frame]
@[simp] theorem completeSt_tim (p : Part) (h : Hdr) (st : Status) : (completeSt p h st).tim = p.tim := by rw [completeSt_frame]
@[simp] theorem completeSt_lanes (p : Part) (h : Hdr) (st : Status) : (completeSt p h st).lanes = p.lanes := by rw [completeSt_frame]
@[simp] theorem completeSt_his (p : Part) (h : Hdr) (st : Status) : (completeSt p h st).his = p.his := by rw [completeSt_frame]
@[simp] theorem completeSt_rdo (p : Part) (h : Hdr) (st : Status) : (completeSt p h st).rdo = p.rdo := by rw [completeSt_frame]
@[simp] theorem completeSt_cap (p : Part) (h : Hdr) (st : Status) : (completeSt p h st).cap = p.cap := by rw [completeSt_frame]
@[simp] theorem completeSt_trc (p : Part) (h : Hdr) (st : Status) : (completeSt p h st).trc = p.trc := by rw [completeSt_frame]

/-- Completions change the host interface alone. -/
theorem completeAll_frame (p : Part) (l : List Hdr) (st : Status) (r : Nat) :
    completeAll p l st r = { p with host := (completeAll p l st r).host } := by
  unfold completeAll
  induction l generalizing p with
  | nil => rfl
  | cons h l ih => rw [List.foldl_cons, ih, complete_frame]

@[simp] theorem completeAll_regs (p : Part) (l : List Hdr) (st : Status) (r : Nat) : (completeAll p l st r).regs = p.regs := by rw [completeAll_frame]
@[simp] theorem completeAll_readData (p : Part) (l : List Hdr) (st : Status) (r : Nat) : (completeAll p l st r).readData = p.readData := by rw [completeAll_frame]
@[simp] theorem completeAll_readPec (p : Part) (l : List Hdr) (st : Status) (r : Nat) : (completeAll p l st r).readPec = p.readPec := by rw [completeAll_frame]
@[simp] theorem completeAll_hiLatch (p : Part) (l : List Hdr) (st : Status) (r : Nat) : (completeAll p l st r).hiLatch = p.hiLatch := by rw [completeAll_frame]
@[simp] theorem completeAll_loHeld (p : Part) (l : List Hdr) (st : Status) (r : Nat) : (completeAll p l st r).loHeld = p.loHeld := by rw [completeAll_frame]
@[simp] theorem completeAll_free (p : Part) (l : List Hdr) (st : Status) (r : Nat) : (completeAll p l st r).free = p.free := by rw [completeAll_frame]
@[simp] theorem completeAll_now (p : Part) (l : List Hdr) (st : Status) (r : Nat) : (completeAll p l st r).now = p.now := by rw [completeAll_frame]
@[simp] theorem completeAll_tk (p : Part) (l : List Hdr) (st : Status) (r : Nat) : (completeAll p l st r).tk = p.tk := by rw [completeAll_frame]
@[simp] theorem completeAll_svn (p : Part) (l : List Hdr) (st : Status) (r : Nat) : (completeAll p l st r).svn = p.svn := by rw [completeAll_frame]
@[simp] theorem completeAll_sp (p : Part) (l : List Hdr) (st : Status) (r : Nat) : (completeAll p l st r).sp = p.sp := by rw [completeAll_frame]
@[simp] theorem completeAll_gr (p : Part) (l : List Hdr) (st : Status) (r : Nat) : (completeAll p l st r).gr = p.gr := by rw [completeAll_frame]
@[simp] theorem completeAll_blank (p : Part) (l : List Hdr) (st : Status) (r : Nat) : (completeAll p l st r).blank = p.blank := by rw [completeAll_frame]
@[simp] theorem completeAll_cols (p : Part) (l : List Hdr) (st : Status) (r : Nat) : (completeAll p l st r).cols = p.cols := by rw [completeAll_frame]
@[simp] theorem completeAll_regions (p : Part) (l : List Hdr) (st : Status) (r : Nat) : (completeAll p l st r).regions = p.regions := by rw [completeAll_frame]
@[simp] theorem completeAll_loader (p : Part) (l : List Hdr) (st : Status) (r : Nat) : (completeAll p l st r).loader = p.loader := by rw [completeAll_frame]
@[simp] theorem completeAll_boot (p : Part) (l : List Hdr) (st : Status) (r : Nat) : (completeAll p l st r).boot = p.boot := by rw [completeAll_frame]
@[simp] theorem completeAll_mon (p : Part) (l : List Hdr) (st : Status) (r : Nat) : (completeAll p l st r).mon = p.mon := by rw [completeAll_frame]
@[simp] theorem completeAll_sm (p : Part) (l : List Hdr) (st : Status) (r : Nat) : (completeAll p l st r).sm = p.sm := by rw [completeAll_frame]
@[simp] theorem completeAll_tim (p : Part) (l : List Hdr) (st : Status) (r : Nat) : (completeAll p l st r).tim = p.tim := by rw [completeAll_frame]
@[simp] theorem completeAll_lanes (p : Part) (l : List Hdr) (st : Status) (r : Nat) : (completeAll p l st r).lanes = p.lanes := by rw [completeAll_frame]
@[simp] theorem completeAll_his (p : Part) (l : List Hdr) (st : Status) (r : Nat) : (completeAll p l st r).his = p.his := by rw [completeAll_frame]
@[simp] theorem completeAll_rdo (p : Part) (l : List Hdr) (st : Status) (r : Nat) : (completeAll p l st r).rdo = p.rdo := by rw [completeAll_frame]
@[simp] theorem completeAll_cap (p : Part) (l : List Hdr) (st : Status) (r : Nat) : (completeAll p l st r).cap = p.cap := by rw [completeAll_frame]
@[simp] theorem completeAll_trc (p : Part) (l : List Hdr) (st : Status) (r : Nat) : (completeAll p l st r).trc = p.trc := by rw [completeAll_frame]

/-- That a command begins changes the host interface alone. -/
theorem begun_frame (p : Part) (h : Hdr) (op : Nat) :
    begun p h op = { p with host := (begun p h op).host } := rfl

@[simp] theorem begun_regs (p : Part) (h : Hdr) (op : Nat) : (begun p h op).regs = p.regs := by rw [begun_frame]
@[simp] theorem begun_readData (p : Part) (h : Hdr) (op : Nat) : (begun p h op).readData = p.readData := by rw [begun_frame]
@[simp] theorem begun_readPec (p : Part) (h : Hdr) (op : Nat) : (begun p h op).readPec = p.readPec := by rw [begun_frame]
@[simp] theorem begun_hiLatch (p : Part) (h : Hdr) (op : Nat) : (begun p h op).hiLatch = p.hiLatch := by rw [begun_frame]
@[simp] theorem begun_loHeld (p : Part) (h : Hdr) (op : Nat) : (begun p h op).loHeld = p.loHeld := by rw [begun_frame]
@[simp] theorem begun_free (p : Part) (h : Hdr) (op : Nat) : (begun p h op).free = p.free := by rw [begun_frame]
@[simp] theorem begun_now (p : Part) (h : Hdr) (op : Nat) : (begun p h op).now = p.now := by rw [begun_frame]
@[simp] theorem begun_tk (p : Part) (h : Hdr) (op : Nat) : (begun p h op).tk = p.tk := by rw [begun_frame]
@[simp] theorem begun_svn (p : Part) (h : Hdr) (op : Nat) : (begun p h op).svn = p.svn := by rw [begun_frame]
@[simp] theorem begun_sp (p : Part) (h : Hdr) (op : Nat) : (begun p h op).sp = p.sp := by rw [begun_frame]
@[simp] theorem begun_gr (p : Part) (h : Hdr) (op : Nat) : (begun p h op).gr = p.gr := by rw [begun_frame]
@[simp] theorem begun_blank (p : Part) (h : Hdr) (op : Nat) : (begun p h op).blank = p.blank := by rw [begun_frame]
@[simp] theorem begun_cols (p : Part) (h : Hdr) (op : Nat) : (begun p h op).cols = p.cols := by rw [begun_frame]
@[simp] theorem begun_regions (p : Part) (h : Hdr) (op : Nat) : (begun p h op).regions = p.regions := by rw [begun_frame]
@[simp] theorem begun_loader (p : Part) (h : Hdr) (op : Nat) : (begun p h op).loader = p.loader := by rw [begun_frame]
@[simp] theorem begun_boot (p : Part) (h : Hdr) (op : Nat) : (begun p h op).boot = p.boot := by rw [begun_frame]
@[simp] theorem begun_mon (p : Part) (h : Hdr) (op : Nat) : (begun p h op).mon = p.mon := by rw [begun_frame]
@[simp] theorem begun_sm (p : Part) (h : Hdr) (op : Nat) : (begun p h op).sm = p.sm := by rw [begun_frame]
@[simp] theorem begun_tim (p : Part) (h : Hdr) (op : Nat) : (begun p h op).tim = p.tim := by rw [begun_frame]
@[simp] theorem begun_lanes (p : Part) (h : Hdr) (op : Nat) : (begun p h op).lanes = p.lanes := by rw [begun_frame]
@[simp] theorem begun_his (p : Part) (h : Hdr) (op : Nat) : (begun p h op).his = p.his := by rw [begun_frame]
@[simp] theorem begun_rdo (p : Part) (h : Hdr) (op : Nat) : (begun p h op).rdo = p.rdo := by rw [begun_frame]
@[simp] theorem begun_cap (p : Part) (h : Hdr) (op : Nat) : (begun p h op).cap = p.cap := by rw [begun_frame]
@[simp] theorem begun_trc (p : Part) (h : Hdr) (op : Nat) : (begun p h op).trc = p.trc := by rw [begun_frame]

/-- A refusal that no descriptor caused changes registers and the host interface alone (R390). -/
theorem refuseOther_frame (p : Part) (kase addr : Nat) :
    refuseOther p kase addr =
      { p with regs := (refuseOther p kase addr).regs, host := (refuseOther p kase addr).host } := by
  unfold refuseOther; rw [raise_frame]; rfl

/-- A word of the writeback page changes the host interface, and registers where the page lies in no window (R390). -/
theorem writeWb_frame (p : Part) (off v : Nat) :
    writeWb p off v = { p with regs := (writeWb p off v).regs, host := (writeWb p off v).host } := by
  cases h : inWindow p .write (wbBase p) 4096 with
  | true => simp [writeWb, h, hostWrite]
  | false => simp only [writeWb, h]; exact refuseOther_frame _ _ _

/-- The head writeback changes the host interface, and registers where the page lies in no window (R378, R390). -/
theorem writeHead_frame (p : Part) (i : Fin 16) :
    writeHead p i = { p with regs := (writeHead p i).regs, host := (writeHead p i).host } := by
  unfold writeHead; split
  · exact writeWb_frame _ _ _
  · rfl

/-- The head writeback into a page that lies in a window changes no register. -/
theorem writeHead_regs_inWindow {p : Part} {i : Fin 16} (h : inWindow p .write (wbBase p) 4096 = true) :
    (writeHead p i).regs = p.regs := by
  unfold writeHead; split
  · simp [writeWb, h, hostWrite]
  · rfl

@[simp] theorem writeHead_readData (p : Part) (i : Fin 16) : (writeHead p i).readData = p.readData := by rw [writeHead_frame]
@[simp] theorem writeHead_readPec (p : Part) (i : Fin 16) : (writeHead p i).readPec = p.readPec := by rw [writeHead_frame]
@[simp] theorem writeHead_hiLatch (p : Part) (i : Fin 16) : (writeHead p i).hiLatch = p.hiLatch := by rw [writeHead_frame]
@[simp] theorem writeHead_loHeld (p : Part) (i : Fin 16) : (writeHead p i).loHeld = p.loHeld := by rw [writeHead_frame]
@[simp] theorem writeHead_free (p : Part) (i : Fin 16) : (writeHead p i).free = p.free := by rw [writeHead_frame]
@[simp] theorem writeHead_now (p : Part) (i : Fin 16) : (writeHead p i).now = p.now := by rw [writeHead_frame]
@[simp] theorem writeHead_tk (p : Part) (i : Fin 16) : (writeHead p i).tk = p.tk := by rw [writeHead_frame]
@[simp] theorem writeHead_svn (p : Part) (i : Fin 16) : (writeHead p i).svn = p.svn := by rw [writeHead_frame]
@[simp] theorem writeHead_sp (p : Part) (i : Fin 16) : (writeHead p i).sp = p.sp := by rw [writeHead_frame]
@[simp] theorem writeHead_gr (p : Part) (i : Fin 16) : (writeHead p i).gr = p.gr := by rw [writeHead_frame]
@[simp] theorem writeHead_blank (p : Part) (i : Fin 16) : (writeHead p i).blank = p.blank := by rw [writeHead_frame]
@[simp] theorem writeHead_cols (p : Part) (i : Fin 16) : (writeHead p i).cols = p.cols := by rw [writeHead_frame]
@[simp] theorem writeHead_regions (p : Part) (i : Fin 16) : (writeHead p i).regions = p.regions := by rw [writeHead_frame]
@[simp] theorem writeHead_loader (p : Part) (i : Fin 16) : (writeHead p i).loader = p.loader := by rw [writeHead_frame]
@[simp] theorem writeHead_boot (p : Part) (i : Fin 16) : (writeHead p i).boot = p.boot := by rw [writeHead_frame]
@[simp] theorem writeHead_mon (p : Part) (i : Fin 16) : (writeHead p i).mon = p.mon := by rw [writeHead_frame]
@[simp] theorem writeHead_sm (p : Part) (i : Fin 16) : (writeHead p i).sm = p.sm := by rw [writeHead_frame]
@[simp] theorem writeHead_tim (p : Part) (i : Fin 16) : (writeHead p i).tim = p.tim := by rw [writeHead_frame]
@[simp] theorem writeHead_lanes (p : Part) (i : Fin 16) : (writeHead p i).lanes = p.lanes := by rw [writeHead_frame]
@[simp] theorem writeHead_his (p : Part) (i : Fin 16) : (writeHead p i).his = p.his := by rw [writeHead_frame]
@[simp] theorem writeHead_rdo (p : Part) (i : Fin 16) : (writeHead p i).rdo = p.rdo := by rw [writeHead_frame]
@[simp] theorem writeHead_cap (p : Part) (i : Fin 16) : (writeHead p i).cap = p.cap := by rw [writeHead_frame]
@[simp] theorem writeHead_trc (p : Part) (i : Fin 16) : (writeHead p i).trc = p.trc := by rw [writeHead_frame]

/-- A refused buffer changes registers and the host interface alone. -/
theorem refuseWindow_frame (p : Part) (h : Hdr) (op a n : Nat) :
    refuseWindow p h op a n = { p with regs := (refuseWindow p h op a n).regs, host := (refuseWindow p h op a n).host } := by
  unfold refuseWindow; dsimp only; rw [complete_frame, raise_frame]; rfl

@[simp] theorem refuseWindow_readData (p : Part) (h : Hdr) (op a n : Nat) : (refuseWindow p h op a n).readData = p.readData := by rw [refuseWindow_frame]
@[simp] theorem refuseWindow_readPec (p : Part) (h : Hdr) (op a n : Nat) : (refuseWindow p h op a n).readPec = p.readPec := by rw [refuseWindow_frame]
@[simp] theorem refuseWindow_hiLatch (p : Part) (h : Hdr) (op a n : Nat) : (refuseWindow p h op a n).hiLatch = p.hiLatch := by rw [refuseWindow_frame]
@[simp] theorem refuseWindow_loHeld (p : Part) (h : Hdr) (op a n : Nat) : (refuseWindow p h op a n).loHeld = p.loHeld := by rw [refuseWindow_frame]
@[simp] theorem refuseWindow_free (p : Part) (h : Hdr) (op a n : Nat) : (refuseWindow p h op a n).free = p.free := by rw [refuseWindow_frame]
@[simp] theorem refuseWindow_now (p : Part) (h : Hdr) (op a n : Nat) : (refuseWindow p h op a n).now = p.now := by rw [refuseWindow_frame]
@[simp] theorem refuseWindow_tk (p : Part) (h : Hdr) (op a n : Nat) : (refuseWindow p h op a n).tk = p.tk := by rw [refuseWindow_frame]
@[simp] theorem refuseWindow_svn (p : Part) (h : Hdr) (op a n : Nat) : (refuseWindow p h op a n).svn = p.svn := by rw [refuseWindow_frame]
@[simp] theorem refuseWindow_sp (p : Part) (h : Hdr) (op a n : Nat) : (refuseWindow p h op a n).sp = p.sp := by rw [refuseWindow_frame]
@[simp] theorem refuseWindow_gr (p : Part) (h : Hdr) (op a n : Nat) : (refuseWindow p h op a n).gr = p.gr := by rw [refuseWindow_frame]
@[simp] theorem refuseWindow_blank (p : Part) (h : Hdr) (op a n : Nat) : (refuseWindow p h op a n).blank = p.blank := by rw [refuseWindow_frame]
@[simp] theorem refuseWindow_cols (p : Part) (h : Hdr) (op a n : Nat) : (refuseWindow p h op a n).cols = p.cols := by rw [refuseWindow_frame]
@[simp] theorem refuseWindow_regions (p : Part) (h : Hdr) (op a n : Nat) : (refuseWindow p h op a n).regions = p.regions := by rw [refuseWindow_frame]
@[simp] theorem refuseWindow_loader (p : Part) (h : Hdr) (op a n : Nat) : (refuseWindow p h op a n).loader = p.loader := by rw [refuseWindow_frame]
@[simp] theorem refuseWindow_boot (p : Part) (h : Hdr) (op a n : Nat) : (refuseWindow p h op a n).boot = p.boot := by rw [refuseWindow_frame]
@[simp] theorem refuseWindow_mon (p : Part) (h : Hdr) (op a n : Nat) : (refuseWindow p h op a n).mon = p.mon := by rw [refuseWindow_frame]
@[simp] theorem refuseWindow_sm (p : Part) (h : Hdr) (op a n : Nat) : (refuseWindow p h op a n).sm = p.sm := by rw [refuseWindow_frame]
@[simp] theorem refuseWindow_tim (p : Part) (h : Hdr) (op a n : Nat) : (refuseWindow p h op a n).tim = p.tim := by rw [refuseWindow_frame]
@[simp] theorem refuseWindow_lanes (p : Part) (h : Hdr) (op a n : Nat) : (refuseWindow p h op a n).lanes = p.lanes := by rw [refuseWindow_frame]
@[simp] theorem refuseWindow_his (p : Part) (h : Hdr) (op a n : Nat) : (refuseWindow p h op a n).his = p.his := by rw [refuseWindow_frame]
@[simp] theorem refuseWindow_rdo (p : Part) (h : Hdr) (op a n : Nat) : (refuseWindow p h op a n).rdo = p.rdo := by rw [refuseWindow_frame]
@[simp] theorem refuseWindow_cap (p : Part) (h : Hdr) (op a n : Nat) : (refuseWindow p h op a n).cap = p.cap := by rw [refuseWindow_frame]
@[simp] theorem refuseWindow_trc (p : Part) (h : Hdr) (op a n : Nat) : (refuseWindow p h op a n).trc = p.trc := by rw [refuseWindow_frame]

/-- The result of a self-test is kept with the boot. -/
theorem setTest_frame (p : Part) (i v : Nat) :
    setTest p i v = { p with boot := (setTest p i v).boot } := rfl

@[simp] theorem setTest_regs (p : Part) (i v : Nat) : (setTest p i v).regs = p.regs := by rw [setTest_frame]
@[simp] theorem setTest_readData (p : Part) (i v : Nat) : (setTest p i v).readData = p.readData := by rw [setTest_frame]
@[simp] theorem setTest_readPec (p : Part) (i v : Nat) : (setTest p i v).readPec = p.readPec := by rw [setTest_frame]
@[simp] theorem setTest_hiLatch (p : Part) (i v : Nat) : (setTest p i v).hiLatch = p.hiLatch := by rw [setTest_frame]
@[simp] theorem setTest_loHeld (p : Part) (i v : Nat) : (setTest p i v).loHeld = p.loHeld := by rw [setTest_frame]
@[simp] theorem setTest_free (p : Part) (i v : Nat) : (setTest p i v).free = p.free := by rw [setTest_frame]
@[simp] theorem setTest_now (p : Part) (i v : Nat) : (setTest p i v).now = p.now := by rw [setTest_frame]
@[simp] theorem setTest_tk (p : Part) (i v : Nat) : (setTest p i v).tk = p.tk := by rw [setTest_frame]
@[simp] theorem setTest_host (p : Part) (i v : Nat) : (setTest p i v).host = p.host := by rw [setTest_frame]
@[simp] theorem setTest_svn (p : Part) (i v : Nat) : (setTest p i v).svn = p.svn := by rw [setTest_frame]
@[simp] theorem setTest_sp (p : Part) (i v : Nat) : (setTest p i v).sp = p.sp := by rw [setTest_frame]
@[simp] theorem setTest_gr (p : Part) (i v : Nat) : (setTest p i v).gr = p.gr := by rw [setTest_frame]
@[simp] theorem setTest_blank (p : Part) (i v : Nat) : (setTest p i v).blank = p.blank := by rw [setTest_frame]
@[simp] theorem setTest_cols (p : Part) (i v : Nat) : (setTest p i v).cols = p.cols := by rw [setTest_frame]
@[simp] theorem setTest_regions (p : Part) (i v : Nat) : (setTest p i v).regions = p.regions := by rw [setTest_frame]
@[simp] theorem setTest_loader (p : Part) (i v : Nat) : (setTest p i v).loader = p.loader := by rw [setTest_frame]
@[simp] theorem setTest_mon (p : Part) (i v : Nat) : (setTest p i v).mon = p.mon := by rw [setTest_frame]
@[simp] theorem setTest_sm (p : Part) (i v : Nat) : (setTest p i v).sm = p.sm := by rw [setTest_frame]
@[simp] theorem setTest_tim (p : Part) (i v : Nat) : (setTest p i v).tim = p.tim := by rw [setTest_frame]
@[simp] theorem setTest_lanes (p : Part) (i v : Nat) : (setTest p i v).lanes = p.lanes := by rw [setTest_frame]
@[simp] theorem setTest_his (p : Part) (i v : Nat) : (setTest p i v).his = p.his := by rw [setTest_frame]
@[simp] theorem setTest_rdo (p : Part) (i v : Nat) : (setTest p i v).rdo = p.rdo := by rw [setTest_frame]
@[simp] theorem setTest_cap (p : Part) (i v : Nat) : (setTest p i v).cap = p.cap := by rw [setTest_frame]
@[simp] theorem setTest_trc (p : Part) (i v : Nat) : (setTest p i v).trc = p.trc := by rw [setTest_frame]

/-- A change of the part state changes the boot state and raises an event. -/
theorem setPartState_frame (p : Part) (s : PartState) :
    setPartState p s = { p with regs := (setPartState p s).regs, host := (setPartState p s).host, boot := (setPartState p s).boot } := by
  unfold setPartState; split
  · rfl
  · rw [raise_frame]

@[simp] theorem setPartState_readData (p : Part) (s : PartState) : (setPartState p s).readData = p.readData := by rw [setPartState_frame]
@[simp] theorem setPartState_readPec (p : Part) (s : PartState) : (setPartState p s).readPec = p.readPec := by rw [setPartState_frame]
@[simp] theorem setPartState_hiLatch (p : Part) (s : PartState) : (setPartState p s).hiLatch = p.hiLatch := by rw [setPartState_frame]
@[simp] theorem setPartState_loHeld (p : Part) (s : PartState) : (setPartState p s).loHeld = p.loHeld := by rw [setPartState_frame]
@[simp] theorem setPartState_free (p : Part) (s : PartState) : (setPartState p s).free = p.free := by rw [setPartState_frame]
@[simp] theorem setPartState_now (p : Part) (s : PartState) : (setPartState p s).now = p.now := by rw [setPartState_frame]
@[simp] theorem setPartState_tk (p : Part) (s : PartState) : (setPartState p s).tk = p.tk := by rw [setPartState_frame]
@[simp] theorem setPartState_svn (p : Part) (s : PartState) : (setPartState p s).svn = p.svn := by rw [setPartState_frame]
@[simp] theorem setPartState_sp (p : Part) (s : PartState) : (setPartState p s).sp = p.sp := by rw [setPartState_frame]
@[simp] theorem setPartState_gr (p : Part) (s : PartState) : (setPartState p s).gr = p.gr := by rw [setPartState_frame]
@[simp] theorem setPartState_blank (p : Part) (s : PartState) : (setPartState p s).blank = p.blank := by rw [setPartState_frame]
@[simp] theorem setPartState_cols (p : Part) (s : PartState) : (setPartState p s).cols = p.cols := by rw [setPartState_frame]
@[simp] theorem setPartState_regions (p : Part) (s : PartState) : (setPartState p s).regions = p.regions := by rw [setPartState_frame]
@[simp] theorem setPartState_loader (p : Part) (s : PartState) : (setPartState p s).loader = p.loader := by rw [setPartState_frame]
@[simp] theorem setPartState_mon (p : Part) (s : PartState) : (setPartState p s).mon = p.mon := by rw [setPartState_frame]
@[simp] theorem setPartState_sm (p : Part) (s : PartState) : (setPartState p s).sm = p.sm := by rw [setPartState_frame]
@[simp] theorem setPartState_tim (p : Part) (s : PartState) : (setPartState p s).tim = p.tim := by rw [setPartState_frame]
@[simp] theorem setPartState_lanes (p : Part) (s : PartState) : (setPartState p s).lanes = p.lanes := by rw [setPartState_frame]
@[simp] theorem setPartState_his (p : Part) (s : PartState) : (setPartState p s).his = p.his := by rw [setPartState_frame]
@[simp] theorem setPartState_rdo (p : Part) (s : PartState) : (setPartState p s).rdo = p.rdo := by rw [setPartState_frame]
@[simp] theorem setPartState_cap (p : Part) (s : PartState) : (setPartState p s).cap = p.cap := by rw [setPartState_frame]
@[simp] theorem setPartState_trc (p : Part) (s : PartState) : (setPartState p s).trc = p.trc := by rw [setPartState_frame]

/-- A change of the D-state changes registers and raises an event. -/
theorem setDstate_frame (p : Part) (d : Nat) :
    setDstate p d = { p with regs := (setDstate p d).regs, host := (setDstate p d).host } := by
  unfold setDstate; dsimp only; split
  · rfl
  · rw [raise_frame]; rfl

@[simp] theorem setDstate_readData (p : Part) (d : Nat) : (setDstate p d).readData = p.readData := by rw [setDstate_frame]
@[simp] theorem setDstate_readPec (p : Part) (d : Nat) : (setDstate p d).readPec = p.readPec := by rw [setDstate_frame]
@[simp] theorem setDstate_hiLatch (p : Part) (d : Nat) : (setDstate p d).hiLatch = p.hiLatch := by rw [setDstate_frame]
@[simp] theorem setDstate_loHeld (p : Part) (d : Nat) : (setDstate p d).loHeld = p.loHeld := by rw [setDstate_frame]
@[simp] theorem setDstate_free (p : Part) (d : Nat) : (setDstate p d).free = p.free := by rw [setDstate_frame]
@[simp] theorem setDstate_now (p : Part) (d : Nat) : (setDstate p d).now = p.now := by rw [setDstate_frame]
@[simp] theorem setDstate_tk (p : Part) (d : Nat) : (setDstate p d).tk = p.tk := by rw [setDstate_frame]
@[simp] theorem setDstate_svn (p : Part) (d : Nat) : (setDstate p d).svn = p.svn := by rw [setDstate_frame]
@[simp] theorem setDstate_sp (p : Part) (d : Nat) : (setDstate p d).sp = p.sp := by rw [setDstate_frame]
@[simp] theorem setDstate_gr (p : Part) (d : Nat) : (setDstate p d).gr = p.gr := by rw [setDstate_frame]
@[simp] theorem setDstate_blank (p : Part) (d : Nat) : (setDstate p d).blank = p.blank := by rw [setDstate_frame]
@[simp] theorem setDstate_cols (p : Part) (d : Nat) : (setDstate p d).cols = p.cols := by rw [setDstate_frame]
@[simp] theorem setDstate_regions (p : Part) (d : Nat) : (setDstate p d).regions = p.regions := by rw [setDstate_frame]
@[simp] theorem setDstate_loader (p : Part) (d : Nat) : (setDstate p d).loader = p.loader := by rw [setDstate_frame]
@[simp] theorem setDstate_boot (p : Part) (d : Nat) : (setDstate p d).boot = p.boot := by rw [setDstate_frame]
@[simp] theorem setDstate_mon (p : Part) (d : Nat) : (setDstate p d).mon = p.mon := by rw [setDstate_frame]
@[simp] theorem setDstate_sm (p : Part) (d : Nat) : (setDstate p d).sm = p.sm := by rw [setDstate_frame]
@[simp] theorem setDstate_tim (p : Part) (d : Nat) : (setDstate p d).tim = p.tim := by rw [setDstate_frame]
@[simp] theorem setDstate_lanes (p : Part) (d : Nat) : (setDstate p d).lanes = p.lanes := by rw [setDstate_frame]
@[simp] theorem setDstate_his (p : Part) (d : Nat) : (setDstate p d).his = p.his := by rw [setDstate_frame]
@[simp] theorem setDstate_rdo (p : Part) (d : Nat) : (setDstate p d).rdo = p.rdo := by rw [setDstate_frame]
@[simp] theorem setDstate_cap (p : Part) (d : Nat) : (setDstate p d).cap = p.cap := by rw [setDstate_frame]
@[simp] theorem setDstate_trc (p : Part) (d : Nat) : (setDstate p d).trc = p.trc := by rw [setDstate_frame]

/-- The input of a trace source is kept in trace. -/
theorem setTrcSource_frame (p : Part) (n : Nat) (t : TrcSource) :
    setTrcSource p n t = { p with trc := (setTrcSource p n t).trc } := rfl

@[simp] theorem setTrcSource_regs (p : Part) (n : Nat) (t : TrcSource) : (setTrcSource p n t).regs = p.regs := by rw [setTrcSource_frame]
@[simp] theorem setTrcSource_readData (p : Part) (n : Nat) (t : TrcSource) : (setTrcSource p n t).readData = p.readData := by rw [setTrcSource_frame]
@[simp] theorem setTrcSource_readPec (p : Part) (n : Nat) (t : TrcSource) : (setTrcSource p n t).readPec = p.readPec := by rw [setTrcSource_frame]
@[simp] theorem setTrcSource_hiLatch (p : Part) (n : Nat) (t : TrcSource) : (setTrcSource p n t).hiLatch = p.hiLatch := by rw [setTrcSource_frame]
@[simp] theorem setTrcSource_loHeld (p : Part) (n : Nat) (t : TrcSource) : (setTrcSource p n t).loHeld = p.loHeld := by rw [setTrcSource_frame]
@[simp] theorem setTrcSource_free (p : Part) (n : Nat) (t : TrcSource) : (setTrcSource p n t).free = p.free := by rw [setTrcSource_frame]
@[simp] theorem setTrcSource_now (p : Part) (n : Nat) (t : TrcSource) : (setTrcSource p n t).now = p.now := by rw [setTrcSource_frame]
@[simp] theorem setTrcSource_tk (p : Part) (n : Nat) (t : TrcSource) : (setTrcSource p n t).tk = p.tk := by rw [setTrcSource_frame]
@[simp] theorem setTrcSource_host (p : Part) (n : Nat) (t : TrcSource) : (setTrcSource p n t).host = p.host := by rw [setTrcSource_frame]
@[simp] theorem setTrcSource_svn (p : Part) (n : Nat) (t : TrcSource) : (setTrcSource p n t).svn = p.svn := by rw [setTrcSource_frame]
@[simp] theorem setTrcSource_sp (p : Part) (n : Nat) (t : TrcSource) : (setTrcSource p n t).sp = p.sp := by rw [setTrcSource_frame]
@[simp] theorem setTrcSource_gr (p : Part) (n : Nat) (t : TrcSource) : (setTrcSource p n t).gr = p.gr := by rw [setTrcSource_frame]
@[simp] theorem setTrcSource_blank (p : Part) (n : Nat) (t : TrcSource) : (setTrcSource p n t).blank = p.blank := by rw [setTrcSource_frame]
@[simp] theorem setTrcSource_cols (p : Part) (n : Nat) (t : TrcSource) : (setTrcSource p n t).cols = p.cols := by rw [setTrcSource_frame]
@[simp] theorem setTrcSource_regions (p : Part) (n : Nat) (t : TrcSource) : (setTrcSource p n t).regions = p.regions := by rw [setTrcSource_frame]
@[simp] theorem setTrcSource_loader (p : Part) (n : Nat) (t : TrcSource) : (setTrcSource p n t).loader = p.loader := by rw [setTrcSource_frame]
@[simp] theorem setTrcSource_boot (p : Part) (n : Nat) (t : TrcSource) : (setTrcSource p n t).boot = p.boot := by rw [setTrcSource_frame]
@[simp] theorem setTrcSource_mon (p : Part) (n : Nat) (t : TrcSource) : (setTrcSource p n t).mon = p.mon := by rw [setTrcSource_frame]
@[simp] theorem setTrcSource_sm (p : Part) (n : Nat) (t : TrcSource) : (setTrcSource p n t).sm = p.sm := by rw [setTrcSource_frame]
@[simp] theorem setTrcSource_tim (p : Part) (n : Nat) (t : TrcSource) : (setTrcSource p n t).tim = p.tim := by rw [setTrcSource_frame]
@[simp] theorem setTrcSource_lanes (p : Part) (n : Nat) (t : TrcSource) : (setTrcSource p n t).lanes = p.lanes := by rw [setTrcSource_frame]
@[simp] theorem setTrcSource_his (p : Part) (n : Nat) (t : TrcSource) : (setTrcSource p n t).his = p.his := by rw [setTrcSource_frame]
@[simp] theorem setTrcSource_rdo (p : Part) (n : Nat) (t : TrcSource) : (setTrcSource p n t).rdo = p.rdo := by rw [setTrcSource_frame]
@[simp] theorem setTrcSource_cap (p : Part) (n : Nat) (t : TrcSource) : (setTrcSource p n t).cap = p.cap := by rw [setTrcSource_frame]

/-- A dropped shaving changes trace, its drop counter and the event queue alone. -/
theorem dropShaving_frame (p : Part) (n k : Nat) :
    dropShaving p n k = { p with
      regs := (dropShaving p n k).regs, host := (dropShaving p n k).host, trc := (dropShaving p n k).trc } := by
  have g : ∀ (b : Bool) (x y : Part) (l : List (Nat × Nat)),
      x = { p with regs := x.regs, host := x.host, trc := x.trc } →
      y = { p with regs := y.regs, host := y.host, trc := y.trc } →
      (if b then x else raise y 113 l) = { p with
        regs := (if b then x else raise y 113 l).regs
        host := (if b then x else raise y 113 l).host
        trc := (if b then x else raise y 113 l).trc } := by
    intro b x y l hx hy
    cases b
    · simp only [Bool.false_eq_true, if_false]; rw [raise_frame, hy]
    · exact hx
  exact g _ _ _ _ rfl rfl

/-- Reporting a loss changes trace alone. -/
theorem reportLoss_frame (p : Part) (n : Nat) : reportLoss p n = { p with trc := (reportLoss p n).trc } := by
  unfold reportLoss; dsimp only; (repeat' split) <;> rfl

/-- A shaving changes trace, its drop counter and the event queue alone. -/
theorem shave_frame (p : Part) (n k : Nat) (l : List Byte) :
    shave p n k l = { p with regs := (shave p n k l).regs, host := (shave p n k l).host, trc := (shave p n k l).trc } := by
  unfold shave; dsimp only
  generalize hq : reportLoss p n = q
  have e : q = { p with trc := q.trc } := hq ▸ reportLoss_frame p n
  (repeat' split) <;> first | rfl | (rw [e]; rfl) | (rw [dropShaving_frame, e])

@[simp] theorem shave_readData (p : Part) (n k : Nat) (l : List Byte) : (shave p n k l).readData = p.readData := by rw [shave_frame]
@[simp] theorem shave_readPec (p : Part) (n k : Nat) (l : List Byte) : (shave p n k l).readPec = p.readPec := by rw [shave_frame]
@[simp] theorem shave_hiLatch (p : Part) (n k : Nat) (l : List Byte) : (shave p n k l).hiLatch = p.hiLatch := by rw [shave_frame]
@[simp] theorem shave_loHeld (p : Part) (n k : Nat) (l : List Byte) : (shave p n k l).loHeld = p.loHeld := by rw [shave_frame]
@[simp] theorem shave_free (p : Part) (n k : Nat) (l : List Byte) : (shave p n k l).free = p.free := by rw [shave_frame]
@[simp] theorem shave_now (p : Part) (n k : Nat) (l : List Byte) : (shave p n k l).now = p.now := by rw [shave_frame]
@[simp] theorem shave_tk (p : Part) (n k : Nat) (l : List Byte) : (shave p n k l).tk = p.tk := by rw [shave_frame]
@[simp] theorem shave_svn (p : Part) (n k : Nat) (l : List Byte) : (shave p n k l).svn = p.svn := by rw [shave_frame]
@[simp] theorem shave_sp (p : Part) (n k : Nat) (l : List Byte) : (shave p n k l).sp = p.sp := by rw [shave_frame]
@[simp] theorem shave_gr (p : Part) (n k : Nat) (l : List Byte) : (shave p n k l).gr = p.gr := by rw [shave_frame]
@[simp] theorem shave_blank (p : Part) (n k : Nat) (l : List Byte) : (shave p n k l).blank = p.blank := by rw [shave_frame]
@[simp] theorem shave_cols (p : Part) (n k : Nat) (l : List Byte) : (shave p n k l).cols = p.cols := by rw [shave_frame]
@[simp] theorem shave_regions (p : Part) (n k : Nat) (l : List Byte) : (shave p n k l).regions = p.regions := by rw [shave_frame]
@[simp] theorem shave_loader (p : Part) (n k : Nat) (l : List Byte) : (shave p n k l).loader = p.loader := by rw [shave_frame]
@[simp] theorem shave_boot (p : Part) (n k : Nat) (l : List Byte) : (shave p n k l).boot = p.boot := by rw [shave_frame]
@[simp] theorem shave_mon (p : Part) (n k : Nat) (l : List Byte) : (shave p n k l).mon = p.mon := by rw [shave_frame]
@[simp] theorem shave_sm (p : Part) (n k : Nat) (l : List Byte) : (shave p n k l).sm = p.sm := by rw [shave_frame]
@[simp] theorem shave_tim (p : Part) (n k : Nat) (l : List Byte) : (shave p n k l).tim = p.tim := by rw [shave_frame]
@[simp] theorem shave_lanes (p : Part) (n k : Nat) (l : List Byte) : (shave p n k l).lanes = p.lanes := by rw [shave_frame]
@[simp] theorem shave_his (p : Part) (n k : Nat) (l : List Byte) : (shave p n k l).his = p.his := by rw [shave_frame]
@[simp] theorem shave_rdo (p : Part) (n k : Nat) (l : List Byte) : (shave p n k l).rdo = p.rdo := by rw [shave_frame]
@[simp] theorem shave_cap (p : Part) (n k : Nat) (l : List Byte) : (shave p n k l).cap = p.cap := by rw [shave_frame]

/-- A trace trigger changes trace, its drop counter and the event queue alone. -/
theorem traceTrigger_frame (p : Part) (c u t : Nat) :
    traceTrigger p c u t = { p with regs := (traceTrigger p c u t).regs, host := (traceTrigger p c u t).host, trc := (traceTrigger p c u t).trc } := by
  unfold traceTrigger; split
  · dsimp only; rw [shave_frame]
  · rfl

@[simp] theorem traceTrigger_readData (p : Part) (c u t : Nat) : (traceTrigger p c u t).readData = p.readData := by rw [traceTrigger_frame]
@[simp] theorem traceTrigger_readPec (p : Part) (c u t : Nat) : (traceTrigger p c u t).readPec = p.readPec := by rw [traceTrigger_frame]
@[simp] theorem traceTrigger_hiLatch (p : Part) (c u t : Nat) : (traceTrigger p c u t).hiLatch = p.hiLatch := by rw [traceTrigger_frame]
@[simp] theorem traceTrigger_loHeld (p : Part) (c u t : Nat) : (traceTrigger p c u t).loHeld = p.loHeld := by rw [traceTrigger_frame]
@[simp] theorem traceTrigger_free (p : Part) (c u t : Nat) : (traceTrigger p c u t).free = p.free := by rw [traceTrigger_frame]
@[simp] theorem traceTrigger_now (p : Part) (c u t : Nat) : (traceTrigger p c u t).now = p.now := by rw [traceTrigger_frame]
@[simp] theorem traceTrigger_tk (p : Part) (c u t : Nat) : (traceTrigger p c u t).tk = p.tk := by rw [traceTrigger_frame]
@[simp] theorem traceTrigger_svn (p : Part) (c u t : Nat) : (traceTrigger p c u t).svn = p.svn := by rw [traceTrigger_frame]
@[simp] theorem traceTrigger_sp (p : Part) (c u t : Nat) : (traceTrigger p c u t).sp = p.sp := by rw [traceTrigger_frame]
@[simp] theorem traceTrigger_gr (p : Part) (c u t : Nat) : (traceTrigger p c u t).gr = p.gr := by rw [traceTrigger_frame]
@[simp] theorem traceTrigger_blank (p : Part) (c u t : Nat) : (traceTrigger p c u t).blank = p.blank := by rw [traceTrigger_frame]
@[simp] theorem traceTrigger_cols (p : Part) (c u t : Nat) : (traceTrigger p c u t).cols = p.cols := by rw [traceTrigger_frame]
@[simp] theorem traceTrigger_regions (p : Part) (c u t : Nat) : (traceTrigger p c u t).regions = p.regions := by rw [traceTrigger_frame]
@[simp] theorem traceTrigger_loader (p : Part) (c u t : Nat) : (traceTrigger p c u t).loader = p.loader := by rw [traceTrigger_frame]
@[simp] theorem traceTrigger_boot (p : Part) (c u t : Nat) : (traceTrigger p c u t).boot = p.boot := by rw [traceTrigger_frame]
@[simp] theorem traceTrigger_mon (p : Part) (c u t : Nat) : (traceTrigger p c u t).mon = p.mon := by rw [traceTrigger_frame]
@[simp] theorem traceTrigger_sm (p : Part) (c u t : Nat) : (traceTrigger p c u t).sm = p.sm := by rw [traceTrigger_frame]
@[simp] theorem traceTrigger_tim (p : Part) (c u t : Nat) : (traceTrigger p c u t).tim = p.tim := by rw [traceTrigger_frame]
@[simp] theorem traceTrigger_lanes (p : Part) (c u t : Nat) : (traceTrigger p c u t).lanes = p.lanes := by rw [traceTrigger_frame]
@[simp] theorem traceTrigger_his (p : Part) (c u t : Nat) : (traceTrigger p c u t).his = p.his := by rw [traceTrigger_frame]
@[simp] theorem traceTrigger_rdo (p : Part) (c u t : Nat) : (traceTrigger p c u t).rdo = p.rdo := by rw [traceTrigger_frame]
@[simp] theorem traceTrigger_cap (p : Part) (c u t : Nat) : (traceTrigger p c u t).cap = p.cap := by rw [traceTrigger_frame]

/-- A halt request is kept in the tick sequencer. -/
theorem requestHalt_frame (p : Part) (r : HaltReq) :
    requestHalt p r = { p with tk := (requestHalt p r).tk } := by
  unfold requestHalt; dsimp only; split <;> split <;> rfl

@[simp] theorem requestHalt_regs (p : Part) (r : HaltReq) : (requestHalt p r).regs = p.regs := by rw [requestHalt_frame]
@[simp] theorem requestHalt_readData (p : Part) (r : HaltReq) : (requestHalt p r).readData = p.readData := by rw [requestHalt_frame]
@[simp] theorem requestHalt_readPec (p : Part) (r : HaltReq) : (requestHalt p r).readPec = p.readPec := by rw [requestHalt_frame]
@[simp] theorem requestHalt_hiLatch (p : Part) (r : HaltReq) : (requestHalt p r).hiLatch = p.hiLatch := by rw [requestHalt_frame]
@[simp] theorem requestHalt_loHeld (p : Part) (r : HaltReq) : (requestHalt p r).loHeld = p.loHeld := by rw [requestHalt_frame]
@[simp] theorem requestHalt_free (p : Part) (r : HaltReq) : (requestHalt p r).free = p.free := by rw [requestHalt_frame]
@[simp] theorem requestHalt_now (p : Part) (r : HaltReq) : (requestHalt p r).now = p.now := by rw [requestHalt_frame]
@[simp] theorem requestHalt_host (p : Part) (r : HaltReq) : (requestHalt p r).host = p.host := by rw [requestHalt_frame]
@[simp] theorem requestHalt_svn (p : Part) (r : HaltReq) : (requestHalt p r).svn = p.svn := by rw [requestHalt_frame]
@[simp] theorem requestHalt_sp (p : Part) (r : HaltReq) : (requestHalt p r).sp = p.sp := by rw [requestHalt_frame]
@[simp] theorem requestHalt_gr (p : Part) (r : HaltReq) : (requestHalt p r).gr = p.gr := by rw [requestHalt_frame]
@[simp] theorem requestHalt_blank (p : Part) (r : HaltReq) : (requestHalt p r).blank = p.blank := by rw [requestHalt_frame]
@[simp] theorem requestHalt_cols (p : Part) (r : HaltReq) : (requestHalt p r).cols = p.cols := by rw [requestHalt_frame]
@[simp] theorem requestHalt_regions (p : Part) (r : HaltReq) : (requestHalt p r).regions = p.regions := by rw [requestHalt_frame]
@[simp] theorem requestHalt_loader (p : Part) (r : HaltReq) : (requestHalt p r).loader = p.loader := by rw [requestHalt_frame]
@[simp] theorem requestHalt_boot (p : Part) (r : HaltReq) : (requestHalt p r).boot = p.boot := by rw [requestHalt_frame]
@[simp] theorem requestHalt_mon (p : Part) (r : HaltReq) : (requestHalt p r).mon = p.mon := by rw [requestHalt_frame]
@[simp] theorem requestHalt_sm (p : Part) (r : HaltReq) : (requestHalt p r).sm = p.sm := by rw [requestHalt_frame]
@[simp] theorem requestHalt_tim (p : Part) (r : HaltReq) : (requestHalt p r).tim = p.tim := by rw [requestHalt_frame]
@[simp] theorem requestHalt_lanes (p : Part) (r : HaltReq) : (requestHalt p r).lanes = p.lanes := by rw [requestHalt_frame]
@[simp] theorem requestHalt_his (p : Part) (r : HaltReq) : (requestHalt p r).his = p.his := by rw [requestHalt_frame]
@[simp] theorem requestHalt_rdo (p : Part) (r : HaltReq) : (requestHalt p r).rdo = p.rdo := by rw [requestHalt_frame]
@[simp] theorem requestHalt_cap (p : Part) (r : HaltReq) : (requestHalt p r).cap = p.cap := by rw [requestHalt_frame]
@[simp] theorem requestHalt_trc (p : Part) (r : HaltReq) : (requestHalt p r).trc = p.trc := by rw [requestHalt_frame]

/-! A catch record changes the catch log, its counter and the event queue alone. -/

@[simp] theorem logCatch_readData (p : Part) (r : CatchRec) : (logCatch p r).readData = p.readData := by
  unfold logCatch; dsimp only; (repeat' split) <;> simp
@[simp] theorem logCatch_readPec (p : Part) (r : CatchRec) : (logCatch p r).readPec = p.readPec := by
  unfold logCatch; dsimp only; (repeat' split) <;> simp
@[simp] theorem logCatch_hiLatch (p : Part) (r : CatchRec) : (logCatch p r).hiLatch = p.hiLatch := by
  unfold logCatch; dsimp only; (repeat' split) <;> simp
@[simp] theorem logCatch_loHeld (p : Part) (r : CatchRec) : (logCatch p r).loHeld = p.loHeld := by
  unfold logCatch; dsimp only; (repeat' split) <;> simp
@[simp] theorem logCatch_free (p : Part) (r : CatchRec) : (logCatch p r).free = p.free := by
  unfold logCatch; dsimp only; (repeat' split) <;> simp
@[simp] theorem logCatch_now (p : Part) (r : CatchRec) : (logCatch p r).now = p.now := by
  unfold logCatch; dsimp only; (repeat' split) <;> simp
@[simp] theorem logCatch_svn (p : Part) (r : CatchRec) : (logCatch p r).svn = p.svn := by
  unfold logCatch; dsimp only; (repeat' split) <;> simp
@[simp] theorem logCatch_sp (p : Part) (r : CatchRec) : (logCatch p r).sp = p.sp := by
  unfold logCatch; dsimp only; (repeat' split) <;> simp
@[simp] theorem logCatch_gr (p : Part) (r : CatchRec) : (logCatch p r).gr = p.gr := by
  unfold logCatch; dsimp only; (repeat' split) <;> simp
@[simp] theorem logCatch_blank (p : Part) (r : CatchRec) : (logCatch p r).blank = p.blank := by
  unfold logCatch; dsimp only; (repeat' split) <;> simp
@[simp] theorem logCatch_cols (p : Part) (r : CatchRec) : (logCatch p r).cols = p.cols := by
  unfold logCatch; dsimp only; (repeat' split) <;> simp
@[simp] theorem logCatch_regions (p : Part) (r : CatchRec) : (logCatch p r).regions = p.regions := by
  unfold logCatch; dsimp only; (repeat' split) <;> simp
@[simp] theorem logCatch_loader (p : Part) (r : CatchRec) : (logCatch p r).loader = p.loader := by
  unfold logCatch; dsimp only; (repeat' split) <;> simp
@[simp] theorem logCatch_boot (p : Part) (r : CatchRec) : (logCatch p r).boot = p.boot := by
  unfold logCatch; dsimp only; (repeat' split) <;> simp
@[simp] theorem logCatch_mon (p : Part) (r : CatchRec) : (logCatch p r).mon = p.mon := by
  unfold logCatch; dsimp only; (repeat' split) <;> simp
@[simp] theorem logCatch_sm (p : Part) (r : CatchRec) : (logCatch p r).sm = p.sm := by
  unfold logCatch; dsimp only; (repeat' split) <;> simp
@[simp] theorem logCatch_tim (p : Part) (r : CatchRec) : (logCatch p r).tim = p.tim := by
  unfold logCatch; dsimp only; (repeat' split) <;> simp
@[simp] theorem logCatch_lanes (p : Part) (r : CatchRec) : (logCatch p r).lanes = p.lanes := by
  unfold logCatch; dsimp only; (repeat' split) <;> simp
@[simp] theorem logCatch_his (p : Part) (r : CatchRec) : (logCatch p r).his = p.his := by
  unfold logCatch; dsimp only; (repeat' split) <;> simp
@[simp] theorem logCatch_rdo (p : Part) (r : CatchRec) : (logCatch p r).rdo = p.rdo := by
  unfold logCatch; dsimp only; (repeat' split) <;> simp
@[simp] theorem logCatch_cap (p : Part) (r : CatchRec) : (logCatch p r).cap = p.cap := by
  unfold logCatch; dsimp only; (repeat' split) <;> simp
@[simp] theorem logCatch_trc (p : Part) (r : CatchRec) : (logCatch p r).trc = p.trc := by
  unfold logCatch; dsimp only; (repeat' split) <;> simp
/-- A catch record changes the catch log, its counter and the event queue alone. -/
theorem logCatch_frame (p : Part) (r : CatchRec) :
    logCatch p r = { p with regs := (logCatch p r).regs, host := (logCatch p r).host, tk := (logCatch p r).tk } := by
  have eta : ∀ q : Part, q = ⟨q.regs, q.readData, q.readPec, q.hiLatch, q.loHeld, q.free, q.now, q.tk, q.host, q.svn, q.sp, q.gr, q.blank, q.cols, q.regions, q.loader, q.boot, q.mon, q.sm, q.tim, q.lanes, q.his, q.rdo, q.cap, q.trc⟩ := fun q => rfl
  rw [eta (logCatch p r)]; simp

/-- A catch changes the catch log, the halt request, trace, registers and the event queue alone. -/
theorem raiseCatch_frame (p : Part) (c : CatchClass) (pl : CatchPlace) (st fl d : Nat) :
    raiseCatch p c pl st fl d = { p with regs := (raiseCatch p c pl st fl d).regs, host := (raiseCatch p c pl st fl d).host, tk := (raiseCatch p c pl st fl d).tk, trc := (raiseCatch p c pl st fl d).trc } := by
  unfold raiseCatch; dsimp only
  split <;> split <;> first
    | (rw [requestHalt_frame, traceTrigger_frame, logCatch_frame]; done)
    | (rw [traceTrigger_frame, logCatch_frame]; done)
    | (rw [requestHalt_frame, logCatch_frame]; done)
    | (rw [logCatch_frame]; done)

@[simp] theorem raiseCatch_readData (p : Part) (c : CatchClass) (pl : CatchPlace) (st fl d : Nat) : (raiseCatch p c pl st fl d).readData = p.readData := by rw [raiseCatch_frame]
@[simp] theorem raiseCatch_readPec (p : Part) (c : CatchClass) (pl : CatchPlace) (st fl d : Nat) : (raiseCatch p c pl st fl d).readPec = p.readPec := by rw [raiseCatch_frame]
@[simp] theorem raiseCatch_hiLatch (p : Part) (c : CatchClass) (pl : CatchPlace) (st fl d : Nat) : (raiseCatch p c pl st fl d).hiLatch = p.hiLatch := by rw [raiseCatch_frame]
@[simp] theorem raiseCatch_loHeld (p : Part) (c : CatchClass) (pl : CatchPlace) (st fl d : Nat) : (raiseCatch p c pl st fl d).loHeld = p.loHeld := by rw [raiseCatch_frame]
@[simp] theorem raiseCatch_free (p : Part) (c : CatchClass) (pl : CatchPlace) (st fl d : Nat) : (raiseCatch p c pl st fl d).free = p.free := by rw [raiseCatch_frame]
@[simp] theorem raiseCatch_now (p : Part) (c : CatchClass) (pl : CatchPlace) (st fl d : Nat) : (raiseCatch p c pl st fl d).now = p.now := by rw [raiseCatch_frame]
@[simp] theorem raiseCatch_svn (p : Part) (c : CatchClass) (pl : CatchPlace) (st fl d : Nat) : (raiseCatch p c pl st fl d).svn = p.svn := by rw [raiseCatch_frame]
@[simp] theorem raiseCatch_sp (p : Part) (c : CatchClass) (pl : CatchPlace) (st fl d : Nat) : (raiseCatch p c pl st fl d).sp = p.sp := by rw [raiseCatch_frame]
@[simp] theorem raiseCatch_gr (p : Part) (c : CatchClass) (pl : CatchPlace) (st fl d : Nat) : (raiseCatch p c pl st fl d).gr = p.gr := by rw [raiseCatch_frame]
@[simp] theorem raiseCatch_blank (p : Part) (c : CatchClass) (pl : CatchPlace) (st fl d : Nat) : (raiseCatch p c pl st fl d).blank = p.blank := by rw [raiseCatch_frame]
@[simp] theorem raiseCatch_cols (p : Part) (c : CatchClass) (pl : CatchPlace) (st fl d : Nat) : (raiseCatch p c pl st fl d).cols = p.cols := by rw [raiseCatch_frame]
@[simp] theorem raiseCatch_regions (p : Part) (c : CatchClass) (pl : CatchPlace) (st fl d : Nat) : (raiseCatch p c pl st fl d).regions = p.regions := by rw [raiseCatch_frame]
@[simp] theorem raiseCatch_loader (p : Part) (c : CatchClass) (pl : CatchPlace) (st fl d : Nat) : (raiseCatch p c pl st fl d).loader = p.loader := by rw [raiseCatch_frame]
@[simp] theorem raiseCatch_boot (p : Part) (c : CatchClass) (pl : CatchPlace) (st fl d : Nat) : (raiseCatch p c pl st fl d).boot = p.boot := by rw [raiseCatch_frame]
@[simp] theorem raiseCatch_mon (p : Part) (c : CatchClass) (pl : CatchPlace) (st fl d : Nat) : (raiseCatch p c pl st fl d).mon = p.mon := by rw [raiseCatch_frame]
@[simp] theorem raiseCatch_sm (p : Part) (c : CatchClass) (pl : CatchPlace) (st fl d : Nat) : (raiseCatch p c pl st fl d).sm = p.sm := by rw [raiseCatch_frame]
@[simp] theorem raiseCatch_tim (p : Part) (c : CatchClass) (pl : CatchPlace) (st fl d : Nat) : (raiseCatch p c pl st fl d).tim = p.tim := by rw [raiseCatch_frame]
@[simp] theorem raiseCatch_lanes (p : Part) (c : CatchClass) (pl : CatchPlace) (st fl d : Nat) : (raiseCatch p c pl st fl d).lanes = p.lanes := by rw [raiseCatch_frame]
@[simp] theorem raiseCatch_his (p : Part) (c : CatchClass) (pl : CatchPlace) (st fl d : Nat) : (raiseCatch p c pl st fl d).his = p.his := by rw [raiseCatch_frame]
@[simp] theorem raiseCatch_rdo (p : Part) (c : CatchClass) (pl : CatchPlace) (st fl d : Nat) : (raiseCatch p c pl st fl d).rdo = p.rdo := by rw [raiseCatch_frame]
@[simp] theorem raiseCatch_cap (p : Part) (c : CatchClass) (pl : CatchPlace) (st fl d : Nat) : (raiseCatch p c pl st fl d).cap = p.cap := by rw [raiseCatch_frame]

/-- A catch changes the catch log, the halt request, trace, registers and the event queue alone. -/
theorem blockCatch_frame (p : Part) (c : CatchClass) (b d : Nat) :
    blockCatch p c b d = { p with regs := (blockCatch p c b d).regs, host := (blockCatch p c b d).host, tk := (blockCatch p c b d).tk, trc := (blockCatch p c b d).trc } := raiseCatch_frame p c _ _ 0 d

@[simp] theorem blockCatch_readData (p : Part) (c : CatchClass) (b d : Nat) : (blockCatch p c b d).readData = p.readData := by rw [blockCatch_frame]
@[simp] theorem blockCatch_readPec (p : Part) (c : CatchClass) (b d : Nat) : (blockCatch p c b d).readPec = p.readPec := by rw [blockCatch_frame]
@[simp] theorem blockCatch_hiLatch (p : Part) (c : CatchClass) (b d : Nat) : (blockCatch p c b d).hiLatch = p.hiLatch := by rw [blockCatch_frame]
@[simp] theorem blockCatch_loHeld (p : Part) (c : CatchClass) (b d : Nat) : (blockCatch p c b d).loHeld = p.loHeld := by rw [blockCatch_frame]
@[simp] theorem blockCatch_free (p : Part) (c : CatchClass) (b d : Nat) : (blockCatch p c b d).free = p.free := by rw [blockCatch_frame]
@[simp] theorem blockCatch_now (p : Part) (c : CatchClass) (b d : Nat) : (blockCatch p c b d).now = p.now := by rw [blockCatch_frame]
@[simp] theorem blockCatch_svn (p : Part) (c : CatchClass) (b d : Nat) : (blockCatch p c b d).svn = p.svn := by rw [blockCatch_frame]
@[simp] theorem blockCatch_sp (p : Part) (c : CatchClass) (b d : Nat) : (blockCatch p c b d).sp = p.sp := by rw [blockCatch_frame]
@[simp] theorem blockCatch_gr (p : Part) (c : CatchClass) (b d : Nat) : (blockCatch p c b d).gr = p.gr := by rw [blockCatch_frame]
@[simp] theorem blockCatch_blank (p : Part) (c : CatchClass) (b d : Nat) : (blockCatch p c b d).blank = p.blank := by rw [blockCatch_frame]
@[simp] theorem blockCatch_cols (p : Part) (c : CatchClass) (b d : Nat) : (blockCatch p c b d).cols = p.cols := by rw [blockCatch_frame]
@[simp] theorem blockCatch_regions (p : Part) (c : CatchClass) (b d : Nat) : (blockCatch p c b d).regions = p.regions := by rw [blockCatch_frame]
@[simp] theorem blockCatch_loader (p : Part) (c : CatchClass) (b d : Nat) : (blockCatch p c b d).loader = p.loader := by rw [blockCatch_frame]
@[simp] theorem blockCatch_boot (p : Part) (c : CatchClass) (b d : Nat) : (blockCatch p c b d).boot = p.boot := by rw [blockCatch_frame]
@[simp] theorem blockCatch_mon (p : Part) (c : CatchClass) (b d : Nat) : (blockCatch p c b d).mon = p.mon := by rw [blockCatch_frame]
@[simp] theorem blockCatch_sm (p : Part) (c : CatchClass) (b d : Nat) : (blockCatch p c b d).sm = p.sm := by rw [blockCatch_frame]
@[simp] theorem blockCatch_tim (p : Part) (c : CatchClass) (b d : Nat) : (blockCatch p c b d).tim = p.tim := by rw [blockCatch_frame]
@[simp] theorem blockCatch_lanes (p : Part) (c : CatchClass) (b d : Nat) : (blockCatch p c b d).lanes = p.lanes := by rw [blockCatch_frame]
@[simp] theorem blockCatch_his (p : Part) (c : CatchClass) (b d : Nat) : (blockCatch p c b d).his = p.his := by rw [blockCatch_frame]
@[simp] theorem blockCatch_rdo (p : Part) (c : CatchClass) (b d : Nat) : (blockCatch p c b d).rdo = p.rdo := by rw [blockCatch_frame]
@[simp] theorem blockCatch_cap (p : Part) (c : CatchClass) (b d : Nat) : (blockCatch p c b d).cap = p.cap := by rw [blockCatch_frame]

/-- Writing the held completions changes the host interface alone. -/
theorem flushHeld_frame (p : Part) :
    flushHeld p = { p with host := (flushHeld p).host } := by
  unfold flushHeld; dsimp only
  have g : ∀ (l : List CplEntry) (q : Part), l.foldl deliverCpl q = { q with host := (l.foldl deliverCpl q).host } := by
    intro l
    induction l with
    | nil => intro q; rfl
    | cons e l ih => intro q; rw [List.foldl_cons, ih, deliverCpl_frame]
  rw [g]

@[simp] theorem flushHeld_regs (p : Part) : (flushHeld p).regs = p.regs := by rw [flushHeld_frame]
@[simp] theorem flushHeld_readData (p : Part) : (flushHeld p).readData = p.readData := by rw [flushHeld_frame]
@[simp] theorem flushHeld_readPec (p : Part) : (flushHeld p).readPec = p.readPec := by rw [flushHeld_frame]
@[simp] theorem flushHeld_hiLatch (p : Part) : (flushHeld p).hiLatch = p.hiLatch := by rw [flushHeld_frame]
@[simp] theorem flushHeld_loHeld (p : Part) : (flushHeld p).loHeld = p.loHeld := by rw [flushHeld_frame]
@[simp] theorem flushHeld_free (p : Part) : (flushHeld p).free = p.free := by rw [flushHeld_frame]
@[simp] theorem flushHeld_now (p : Part) : (flushHeld p).now = p.now := by rw [flushHeld_frame]
@[simp] theorem flushHeld_tk (p : Part) : (flushHeld p).tk = p.tk := by rw [flushHeld_frame]
@[simp] theorem flushHeld_svn (p : Part) : (flushHeld p).svn = p.svn := by rw [flushHeld_frame]
@[simp] theorem flushHeld_sp (p : Part) : (flushHeld p).sp = p.sp := by rw [flushHeld_frame]
@[simp] theorem flushHeld_gr (p : Part) : (flushHeld p).gr = p.gr := by rw [flushHeld_frame]
@[simp] theorem flushHeld_blank (p : Part) : (flushHeld p).blank = p.blank := by rw [flushHeld_frame]
@[simp] theorem flushHeld_cols (p : Part) : (flushHeld p).cols = p.cols := by rw [flushHeld_frame]
@[simp] theorem flushHeld_regions (p : Part) : (flushHeld p).regions = p.regions := by rw [flushHeld_frame]
@[simp] theorem flushHeld_loader (p : Part) : (flushHeld p).loader = p.loader := by rw [flushHeld_frame]
@[simp] theorem flushHeld_boot (p : Part) : (flushHeld p).boot = p.boot := by rw [flushHeld_frame]
@[simp] theorem flushHeld_mon (p : Part) : (flushHeld p).mon = p.mon := by rw [flushHeld_frame]
@[simp] theorem flushHeld_sm (p : Part) : (flushHeld p).sm = p.sm := by rw [flushHeld_frame]
@[simp] theorem flushHeld_tim (p : Part) : (flushHeld p).tim = p.tim := by rw [flushHeld_frame]
@[simp] theorem flushHeld_lanes (p : Part) : (flushHeld p).lanes = p.lanes := by rw [flushHeld_frame]
@[simp] theorem flushHeld_his (p : Part) : (flushHeld p).his = p.his := by rw [flushHeld_frame]
@[simp] theorem flushHeld_rdo (p : Part) : (flushHeld p).rdo = p.rdo := by rw [flushHeld_frame]
@[simp] theorem flushHeld_cap (p : Part) : (flushHeld p).cap = p.cap := by rw [flushHeld_frame]
@[simp] theorem flushHeld_trc (p : Part) : (flushHeld p).trc = p.trc := by rw [flushHeld_frame]

end Sys2Proof.Machine
end

