-- ==== Sys2Proof/Laws/SMap.lean ====
section
/-!
SUPPORT. The laws of sparse maps: a read after a write, and that every operation keeps the canonical form.
-/
namespace Sys2Proof.Machine

/-- A lower bound may be lowered. -/
theorem smapWfFrom_mono {α : Type} [DecidableEq α] {d : Nat → α} {m : SMap α} {a b : Nat} (h : smapWfFrom d b m = true)
    (hab : a ≤ b) : smapWfFrom d a m = true := by
  cases m with
  | nil => rfl
  | cons e m =>
    obtain ⟨k, v⟩ := e
    simp only [smapWfFrom, Bool.and_eq_true, decide_eq_true_eq] at h ⊢
    exact ⟨⟨by omega, h.1.2⟩, h.2⟩

/-- A key below the bound of a canonical map is not listed. -/
theorem smapGet_below {α : Type} [DecidableEq α] {d : Nat → α} {m : SMap α} {lo k : Nat} (h : smapWfFrom d lo m = true)
    (hk : k < lo) : smapGet d m k = d k := by
  induction m generalizing lo with
  | nil => rfl
  | cons e m ih =>
    obtain ⟨a, v⟩ := e
    simp only [smapWfFrom, Bool.and_eq_true, decide_eq_true_eq] at h
    simp only [smapGet]
    rw [if_neg (by omega)]
    exact ih h.2 (by omega)

/-- A write keeps the canonical form. -/
theorem smapWfFrom_set {α : Type} [DecidableEq α] {d : Nat → α} {m : SMap α} {lo k : Nat} (v : α)
    (h : smapWfFrom d lo m = true) (hk : lo ≤ k) : smapWfFrom d lo (smapSet d m k v) = true := by
  induction m generalizing lo with
  | nil =>
    simp only [smapSet]
    split
    · rfl
    · simp [smapWfFrom, *]
  | cons e m ih =>
    obtain ⟨a, w⟩ := e
    simp only [smapWfFrom, Bool.and_eq_true, decide_eq_true_eq] at h
    simp only [smapSet]
    split
    · split
      · simp [smapWfFrom, h]
      · simp [smapWfFrom, h.1.2, h.2, *] <;> omega
    · split
      · split
        · exact smapWfFrom_mono h.2 (by omega)
        · rename_i h1 h2 h3
          subst h2
          simp [smapWfFrom, h.1.1, h.2, h3]
      · simp only [smapWfFrom, Bool.and_eq_true, decide_eq_true_eq]
        exact ⟨h.1, ih h.2 (by omega)⟩

/-- A write keeps the canonical form. -/
theorem smapWf_set {α : Type} [DecidableEq α] {d : Nat → α} {m : SMap α} (k : Nat) (v : α)
    (h : smapWf d m = true) : smapWf d (smapSet d m k v) = true := smapWfFrom_set v h (Nat.zero_le k)

/-- Writes one after another keep the canonical form. -/
theorem smapWf_setMany {α : Type} [DecidableEq α] {d : Nat → α} (l : List (Nat × α)) {m : SMap α}
    (h : smapWf d m = true) : smapWf d (smapSetMany d m l) = true := by
  induction l generalizing m with
  | nil => exact h
  | cons e l ih => exact ih (smapWf_set _ _ h)

/-- Dropping keys keeps the canonical form. -/
theorem smapWfFrom_filter {α : Type} [DecidableEq α] {d : Nat → α} (f : Nat → Bool) {m : SMap α} {lo : Nat}
    (h : smapWfFrom d lo m = true) : smapWfFrom d lo (smapFilter f m) = true := by
  induction m generalizing lo with
  | nil => rfl
  | cons e m ih =>
    obtain ⟨a, v⟩ := e
    simp only [smapWfFrom, Bool.and_eq_true, decide_eq_true_eq] at h
    simp only [smapFilter]
    split
    · simp only [smapWfFrom, Bool.and_eq_true, decide_eq_true_eq]
      exact ⟨h.1, ih h.2⟩
    · exact smapWfFrom_mono (ih h.2) (by omega)

/-- Dropping keys keeps the canonical form. -/
theorem smapWf_filter {α : Type} [DecidableEq α] {d : Nat → α} (f : Nat → Bool) {m : SMap α}
    (h : smapWf d m = true) : smapWf d (smapFilter f m) = true := smapWfFrom_filter f h

/-- The empty map is canonical. -/
@[simp] theorem smapWf_nil {α : Type} [DecidableEq α] (d : Nat → α) : smapWf d [] = true := rfl

/-- A write leaves every other key as it is. -/
theorem smapGet_set_ne {α : Type} [DecidableEq α] {d : Nat → α} {m : SMap α} {k j : Nat} (v : α) (h : j ≠ k) :
    smapGet d (smapSet d m k v) j = smapGet d m j := by
  induction m with
  | nil =>
    simp only [smapSet]
    split
    · rfl
    · simp [smapGet, Ne.symm h]
  | cons e m ih =>
    obtain ⟨a, w⟩ := e
    simp only [smapSet]
    split
    · split
      · rfl
      · simp [smapGet, Ne.symm h]
    · split
      · split
        · have : a ≠ j := by omega
          simp [smapGet, this]
        · have : a ≠ j := by omega
          simp [smapGet, this, Ne.symm h]
      · simp only [smapGet]
        split
        · rfl
        · exact ih

/-- A read of a key just written gives the value written, in a canonical map. -/
theorem smapGet_setFrom {α : Type} [DecidableEq α] {d : Nat → α} {m : SMap α} {lo k : Nat} (v : α)
    (h : smapWfFrom d lo m = true) : smapGet d (smapSet d m k v) k = v := by
  induction m generalizing lo with
  | nil =>
    simp only [smapSet]
    split
    · simp [smapGet, *]
    · simp [smapGet]
  | cons e m ih =>
    obtain ⟨a, w⟩ := e
    simp only [smapWfFrom, Bool.and_eq_true, decide_eq_true_eq] at h
    simp only [smapSet]
    split
    · split
      · rename_i h1 h2
        simp only [smapGet]
        rw [if_neg (by omega), smapGet_below h.2 (by omega), h2]
      · simp [smapGet]
    · split
      · split
        · rename_i h1 h2 h3
          rw [smapGet_below h.2 (by omega), h3]
        · simp [smapGet]
      · simp only [smapGet]
        rw [if_neg (by omega)]
        exact ih h.2

/-- A read of a key just written gives the value written, in a canonical map. -/
theorem smapGet_set_self {α : Type} [DecidableEq α] {d : Nat → α} {m : SMap α} (k : Nat) (v : α)
    (h : smapWf d m = true) : smapGet d (smapSet d m k v) k = v := smapGet_setFrom v h

/-- A read after a write, in a canonical map. -/
theorem smapGet_set {α : Type} [DecidableEq α] {d : Nat → α} {m : SMap α} (k j : Nat) (v : α)
    (h : smapWf d m = true) : smapGet d (smapSet d m k v) j = if j = k then v else smapGet d m j := by
  split
  · rename_i hj; rw [hj]; exact smapGet_set_self k v h
  · exact smapGet_set_ne v (by assumption)

/-- A write of a value that an unlisted key does not read as is read back from any map. -/
theorem smapGet_set_ne_default {α : Type} [DecidableEq α] {d : Nat → α} {m : SMap α} {k : Nat} {v : α} (h : v ≠ d k) :
    smapGet d (smapSet d m k v) k = v := by
  induction m with
  | nil => simp [smapSet, smapGet, h]
  | cons e m ih =>
    obtain ⟨a, w⟩ := e
    simp only [smapSet, if_neg h]
    split
    · simp [smapGet]
    · split
      · simp [smapGet]
      · simp only [smapGet]
        rw [if_neg (by omega)]
        exact ih

end Sys2Proof.Machine
end

