-- ==== Sys2Proof/Laws/Regs.lean ====
section
/-!
SUPPORT. The laws of the register file: reading back a field that the part has set, and the fields that it leaves.
-/
namespace Sys2Proof.Machine

/-- A field fits its register. -/
theorem natBits_le (x lo w : Nat) : natBits x lo w * 2 ^ lo ≤ x := by
  unfold natBits
  calc x / 2 ^ lo % 2 ^ w * 2 ^ lo ≤ x / 2 ^ lo * 2 ^ lo := Nat.mul_le_mul_right _ (Nat.mod_le _ _)
    _ ≤ x := Nat.div_mul_le_self _ _

/-- The parts of a number below, in and above a field. -/
theorem nat_split (x lo w : Nat) : x = x % 2 ^ lo + natBits x lo w * 2 ^ lo + x / 2 ^ (lo + w) * 2 ^ (lo + w) := by
  unfold natBits
  have h1 := Nat.div_add_mod x (2 ^ lo)
  have h2 := Nat.div_add_mod (x / 2 ^ lo) (2 ^ w)
  rw [Nat.div_div_eq_div_mul, ← Nat.pow_add] at h2
  calc x = 2 ^ lo * (x / 2 ^ lo) + x % 2 ^ lo := h1.symm
    _ = 2 ^ lo * (2 ^ w * (x / 2 ^ (lo + w)) + x / 2 ^ lo % 2 ^ w) + x % 2 ^ lo := by rw [h2]
    _ = _ := by rw [Nat.pow_add]; grind

/-- What a field put into a number makes of it. -/
theorem natPut_split (x lo w v : Nat) :
    natPut x lo w v = x % 2 ^ lo + v % 2 ^ w * 2 ^ lo + x / 2 ^ (lo + w) * 2 ^ (lo + w) := by
  unfold natPut
  have h := nat_split x lo w
  have h2 := natBits_le x lo w
  omega

/-- A field put into a number reads back. -/
theorem natBits_natPut (x lo w v : Nat) : natBits (natPut x lo w v) lo w = v % 2 ^ w := by
  rw [natPut_split]
  unfold natBits
  have hlt : x % 2 ^ lo < 2 ^ lo := Nat.mod_lt _ (Nat.two_pow_pos _)
  have hv : v % 2 ^ w < 2 ^ w := Nat.mod_lt _ (Nat.two_pow_pos _)
  have e : x % 2 ^ lo + v % 2 ^ w * 2 ^ lo + x / 2 ^ (lo + w) * 2 ^ (lo + w) =
      x % 2 ^ lo + 2 ^ lo * (v % 2 ^ w + 2 ^ w * (x / 2 ^ (lo + w))) := by rw [Nat.pow_add]; grind
  rw [e, Nat.add_mul_div_left _ _ (Nat.two_pow_pos _), Nat.div_eq_of_lt hlt, Nat.zero_add, Nat.add_mul_mod_self_left,
    Nat.mod_eq_of_lt hv]

/-- A field above the one put is as before. -/
theorem natBits_natPut_above (x lo w v lo2 w2 : Nat) (h : lo + w ≤ lo2) :
    natBits (natPut x lo w v) lo2 w2 = natBits x lo2 w2 := by
  unfold natBits
  congr 1
  have hlt : x % 2 ^ lo < 2 ^ lo := Nat.mod_lt _ (Nat.two_pow_pos _)
  have hv : v % 2 ^ w < 2 ^ w := Nat.mod_lt _ (Nat.two_pow_pos _)
  obtain ⟨k, rfl⟩ := Nat.exists_eq_add_of_le h
  rw [Nat.pow_add 2 (lo + w) k, ← Nat.div_div_eq_div_mul, ← Nat.div_div_eq_div_mul]
  congr 1
  rw [natPut_split]
  rw [Nat.add_mul_div_right _ _ (Nat.two_pow_pos _)]
  have : x % 2 ^ lo + v % 2 ^ w * 2 ^ lo < 2 ^ (lo + w) := by
    rw [Nat.pow_add]
    have h3 : (v % 2 ^ w + 1) * 2 ^ lo ≤ 2 ^ w * 2 ^ lo := Nat.mul_le_mul_right _ hv
    have h4 : (v % 2 ^ w + 1) * 2 ^ lo = v % 2 ^ w * 2 ^ lo + 2 ^ lo := by grind
    have h5 : 2 ^ w * 2 ^ lo = 2 ^ lo * 2 ^ w := by grind
    omega
  rw [Nat.div_eq_of_lt this, Nat.zero_add]

/-- A field below the one put is as before. -/
theorem natBits_natPut_below (x lo w v lo2 w2 : Nat) (h : lo2 + w2 ≤ lo) :
    natBits (natPut x lo w v) lo2 w2 = natBits x lo2 w2 := by
  have key : ∀ y : Nat, natBits y lo2 w2 = natBits (y % 2 ^ lo) lo2 w2 := by
    intro y
    unfold natBits
    obtain ⟨k, rfl⟩ := Nat.exists_eq_add_of_le h
    rw [Nat.add_assoc, Nat.pow_add 2 lo2, Nat.mod_mul_right_div_self, Nat.pow_add 2 w2, Nat.mod_mul_right_mod]
  rw [key, key x, natPut_split]
  congr 1
  have e : x % 2 ^ lo + v % 2 ^ w * 2 ^ lo + x / 2 ^ (lo + w) * 2 ^ (lo + w) =
      x % 2 ^ lo + 2 ^ lo * (v % 2 ^ w + 2 ^ w * (x / 2 ^ (lo + w))) := by rw [Nat.pow_add]; grind
  rw [e, Nat.add_mul_mod_self_left, Nat.mod_mod]

/-- A field put into a 32-bit number leaves a 32-bit number. -/
theorem natPut_lt {x lo w : Nat} (v : Nat) (hx : x < 2 ^ 32) (h : lo + w ≤ 32) : natPut x lo w v < 2 ^ 32 := by
  rw [natPut_split]
  have hlt : x % 2 ^ lo < 2 ^ lo := Nat.mod_lt _ (Nat.two_pow_pos _)
  have hv : v % 2 ^ w < 2 ^ w := Nat.mod_lt _ (Nat.two_pow_pos _)
  obtain ⟨k, hk⟩ := Nat.exists_eq_add_of_le h
  have hq : x / 2 ^ (lo + w) < 2 ^ k := by
    rw [Nat.div_lt_iff_lt_mul (Nat.two_pow_pos _), ← Nat.pow_add]
    rw [hk] at hx; rw [Nat.add_comm k]; exact hx
  have h1 : x % 2 ^ lo + v % 2 ^ w * 2 ^ lo < 2 ^ (lo + w) := by
    rw [Nat.pow_add]
    have h3 : (v % 2 ^ w + 1) * 2 ^ lo ≤ 2 ^ w * 2 ^ lo := Nat.mul_le_mul_right _ hv
    have h4 : (v % 2 ^ w + 1) * 2 ^ lo = v % 2 ^ w * 2 ^ lo + 2 ^ lo := by grind
    have h5 : 2 ^ w * 2 ^ lo = 2 ^ lo * 2 ^ w := by grind
    omega
  have h2 : (x / 2 ^ (lo + w) + 1) * 2 ^ (lo + w) ≤ 2 ^ k * 2 ^ (lo + w) := Nat.mul_le_mul_right _ hq
  have h3 : 2 ^ k * 2 ^ (lo + w) = 2 ^ 32 := by rw [← Nat.pow_add, hk, Nat.add_comm]
  have h4 : (x / 2 ^ (lo + w) + 1) * 2 ^ (lo + w) = x / 2 ^ (lo + w) * 2 ^ (lo + w) + 2 ^ (lo + w) := by grind
  omega

/-- Setting a field keeps the register file canonical. -/
theorem smapWf_setFldI {p : Part} (f : FieldRow) (i v : Nat) (h : smapWf regReset p.regs = true) :
    smapWf regReset (setFldI p f i v).regs = true := smapWf_set _ _ h

/-- Setting a field keeps the register file canonical. -/
theorem smapWf_setFld {p : Part} (f : FieldRow) (v : Nat) (h : smapWf regReset p.regs = true) :
    smapWf regReset (setFld p f v).regs = true := smapWf_setFldI f 0 v h

/-- A field that the part has set reads back. -/
theorem fldI_setFldI {p : Part} (f : FieldRow) (i v : Nat) (h : smapWf regReset p.regs = true)
    (hf : f.lo + f.width ≤ 32) : fldI (setFldI p f i v) f i = v % 2 ^ f.width := by
  unfold fldI
  have e : regAt (setFldI p f i v) (f.at i) = BitVec.ofNat 32 (natPut (regAt p (f.at i)).toNat f.lo f.width v) :=
    smapGet_set_self _ _ h
  rw [e, BitVec.toNat_ofNat, Nat.mod_eq_of_lt (natPut_lt v (regAt p (f.at i)).isLt hf)]
  exact natBits_natPut _ _ _ _

/-- Setting a field leaves the fields of other registers. -/
theorem fldI_setFldI_ne {p : Part} {f g : FieldRow} {i j v : Nat} (h : g.at j ≠ f.at i) :
    fldI (setFldI p f i v) g j = fldI p g j := by
  unfold fldI
  have e : regAt (setFldI p f i v) (g.at j) = regAt p (g.at j) := smapGet_set_ne _ h
  rw [e]

/-- Setting a field leaves the other fields of its register. -/
theorem fldI_setFldI_apart {p : Part} {f g : FieldRow} {i j v : Nat} (h : smapWf regReset p.regs = true)
    (hf : f.lo + f.width ≤ 32) (hg : f.lo + f.width ≤ g.lo ∨ g.lo + g.width ≤ f.lo) :
    fldI (setFldI p f i v) g j = fldI p g j := by
  by_cases ho : g.at j = f.at i
  · unfold fldI
    rw [ho]
    have e : regAt (setFldI p f i v) (f.at i) = BitVec.ofNat 32 (natPut (regAt p (f.at i)).toNat f.lo f.width v) :=
      smapGet_set_self _ _ h
    rw [e, BitVec.toNat_ofNat, Nat.mod_eq_of_lt (natPut_lt v (regAt p (f.at i)).isLt hf)]
    rcases hg with hg | hg
    · exact natBits_natPut_above _ _ _ _ _ _ hg
    · exact natBits_natPut_below _ _ _ _ _ _ hg
  · exact fldI_setFldI_ne ho

/-- An event keeps the register file canonical. -/
theorem smapWf_queueEvent {p : Part} (e : Event) (h : smapWf regReset p.regs = true) :
    smapWf regReset (queueEvent p e).regs = true := by
  unfold queueEvent
  split
  · exact h
  · split
    · exact smapWf_setFldI _ _ _ h
    · exact h

/-- An event keeps the register file canonical. -/
theorem smapWf_raise {p : Part} (src : Nat) (l : List (Nat × Nat)) (h : smapWf regReset p.regs = true) :
    smapWf regReset (raise p src l).regs = true := smapWf_queueEvent _ h

/-- An event changes no register but the count of lost events (R387). -/
theorem regAt_queueEvent_ne {p : Part} (e : Event) {off : Nat} (h : off ≠ HIF_LOST_COUNT.off) :
    regAt (queueEvent p e) off = regAt p off := by
  unfold queueEvent
  split
  · rfl
  · split
    · exact smapGet_set_ne _ h
    · rfl

/-- An event changes no field but the count of lost events (R387). -/
theorem fldI_raise_ne {p : Part} (src : Nat) (l : List (Nat × Nat)) {g : FieldRow} {j : Nat}
    (h : g.at j ≠ HIF_LOST_COUNT.off) : fldI (raise p src l) g j = fldI p g j := by
  unfold fldI raise
  rw [regAt_queueEvent_ne _ h]

/-- A field of a single register that the part has set reads back. -/
theorem fld_setFld {p : Part} (f : FieldRow) (v : Nat) (h : smapWf regReset p.regs = true)
    (hf : f.lo + f.width ≤ 32) : fld (setFld p f v) f = v % 2 ^ f.width := fldI_setFldI f 0 v h hf

/-- Setting a field of a single register leaves the fields of other registers. -/
theorem fld_setFld_ne {p : Part} {f g : FieldRow} {v : Nat} (h : g.at 0 ≠ f.at 0) :
    fld (setFld p f v) g = fld p g := fldI_setFldI_ne h

/-- Setting a field of a single register leaves the other fields of its register. -/
theorem fld_setFld_apart {p : Part} {f g : FieldRow} {v : Nat} (h : smapWf regReset p.regs = true)
    (hf : f.lo + f.width ≤ 32) (hg : f.lo + f.width ≤ g.lo ∨ g.lo + g.width ≤ f.lo) :
    fld (setFld p f v) g = fld p g := fldI_setFldI_apart h hf hg

/-- An event changes no field but the count of lost events (R387). -/
theorem fld_raise_ne {p : Part} (src : Nat) (l : List (Nat × Nat)) {g : FieldRow} (h : g.at 0 ≠ HIF_LOST_COUNT.off) :
    fld (raise p src l) g = fld p g := fldI_raise_ne src l h

/-- A change of the part state keeps the register file canonical. -/
theorem smapWf_setPartState {p : Part} (s : PartState) (h : smapWf regReset p.regs = true) :
    smapWf regReset (setPartState p s).regs = true := by
  unfold setPartState
  split
  · exact h
  · exact smapWf_raise _ _ h

/-- A change of the part state changes no field but the count of lost events. -/
theorem fld_setPartState_ne {p : Part} (s : PartState) {g : FieldRow} (h : g.at 0 ≠ HIF_LOST_COUNT.off) :
    fld (setPartState p s) g = fld p g := by
  unfold setPartState
  split
  · rfl
  · rw [fld_raise_ne _ _ h]; rfl

/-- A change of the part state, whether or not it is one. -/
@[simp] theorem setPartState_boot (p : Part) (s : PartState) : (setPartState p s).boot = { p.boot with ps := s } := by
  unfold setPartState
  split
  · rename_i h; rw [← h]
  · simp

end Sys2Proof.Machine
end

