-- ==== Sys2Proof/Laws/Sealed.lean ====
section
/-!
SUPPORT. What the engine sealed, it opens: a block that it wrote meets CHECK and its digest, a line and tag that it
wrote meet the MAC, and what it enciphered it deciphers. These are the facts by which the engine's checks look at upset
bits alone.
-/
namespace Sys2Proof.Machine

/-- Deciphering undoes enciphering under the same identity (R329). -/
theorem cipherLine_cipherLine (p : Part) (kid l : Nat) (x : BitVec 512) :
    cipherLine p kid l (cipherLine p kid l x) = x := by
  unfold cipherLine; split
  · rw [BitVec.xor_assoc, BitVec.xor_self, BitVec.xor_zero]
  · rfl

/-- A block with CHECK keeps its bits below CHECK. -/
theorem withCheck_low (x : Nat) : (withCheck x).toNat % 2 ^ 504 = x % 2 ^ 504 := by
  have e : ∀ c : BitVec 8, (BitVec.ofNat 512 (x % 2 ^ 504 + c.toNat * 2 ^ 504)).toNat % 2 ^ 504 = x % 2 ^ 504 := by
    intro c
    have := c.isLt
    rw [BitVec.toNat_ofNat]; omega
  exact e _

/-- A block with CHECK meets CHECK (R331). -/
theorem checkOk_withCheck (x : Nat) : checkOk (withCheck x) = true := by
  have e : withCheck (withCheck x).toNat = withCheck x := by
    have h : ∀ y, y % 2 ^ 504 = x % 2 ^ 504 → withCheck y = withCheck x := by
      intro y hy; unfold withCheck; rw [hy]
    exact h _ (withCheck_low x)
  simp [checkOk, e]

/-- Every counter block and tree node that the engine forms meets CHECK. -/
theorem checkOk_blockNow (p : Part) (stack lvl idx : Nat) : checkOk (blockNow p stack lvl idx) = true := by
  cases lvl <;> exact checkOk_withCheck _

/-- A block without upset bits under a live identity passes its checks (R333). -/
theorem blockCheck_clean {p : Part} {stack lvl idx : Nat} (hf : blockFlips p stack lvl idx = 0)
    (hk : kidRetired p (blockKid p stack lvl idx) = false) : blockCheck p stack lvl idx = none := by
  simp [blockCheck, checkBad, hf, hk]

/-- A block without upset bits meets its digest (R332). -/
theorem storedBlock_clean {p : Part} {stack lvl idx : Nat} (hf : blockFlips p stack lvl idx = 0) :
    storedBlock p stack lvl idx = blockWritten p stack lvl idx := by
  simp [storedBlock, hf]

/-- The MAC of a tag is 60 bits wide (R330). -/
theorem lineMac_lt (p : Part) (kid l : Nat) (x : BitVec 512) : lineMac p kid l x < 2 ^ 60 := by
  unfold lineMac
  exact Nat.mod_lt _ (Nat.two_pow_pos _)

/-- The tag of a line holds its MAC and its identity (R330). -/
theorem sealedTag_parts {p : Part} {l : Nat} :
    sealedTag p l % 2 ^ 60 = lineMac p (lineKid p l) l (sealedData p l) ∧ sealedTag p l / 2 ^ 60 = lineKid p l := by
  have := lineMac_lt p (lineKid p l) l (sealedData p l)
  unfold sealedTag; omega

/-- A line and tag without upset bits meet the MAC, and open to the data that was sealed (R329, R333). -/
theorem openLine_clean {p : Part} {l : Nat} (hf : (sealLine p l).flips = 0) :
    lineMac p (lineKid p l) l (storedLine p l) = sealedTag p l % 2 ^ 60 ∧
    cipherLine p (lineKid p l) l (storedLine p l) = (sealLine p l).data := by
  have h : storedLine p l = sealedData p l := by simp [storedLine, hf]
  rw [h, sealedTag_parts.1]
  exact ⟨rfl, by simp [sealedData, cipherLine_cipherLine]⟩

end Sys2Proof.Machine
end

