-- ==== Sys2Proof/Laws/State.lean ====
section
/-!
SUPPORT. The laws of State: what each plain update of a field reads as afterwards, one lemma for every field and update.
The laws of the register file, the rings and the event queue stand in Laws/Ops.lean and Laws/Regs.lean.
-/
namespace Sys2Proof.Machine

@[simp] theorem withPart_part (s : State) (p : Part) : (withPart s p).part = p := rfl
@[simp] theorem withPart_pending (s : State) (p : Part) : (withPart s p).pending = s.pending := rfl
@[simp] theorem withPart_self (s : State) : withPart s s.part = s := rfl
@[simp] theorem withPart_withPart (s : State) (p q : Part) : withPart (withPart s p) q = withPart s q := rfl

/-! ### The fabric state changes alone. -/

@[simp] theorem setFab_regs (p : Part) (s : FabState) : (setFab p s).regs = p.regs := rfl
@[simp] theorem setFab_readData (p : Part) (s : FabState) : (setFab p s).readData = p.readData := rfl
@[simp] theorem setFab_readPec (p : Part) (s : FabState) : (setFab p s).readPec = p.readPec := rfl
@[simp] theorem setFab_hiLatch (p : Part) (s : FabState) : (setFab p s).hiLatch = p.hiLatch := rfl
@[simp] theorem setFab_loHeld (p : Part) (s : FabState) : (setFab p s).loHeld = p.loHeld := rfl
@[simp] theorem setFab_free (p : Part) (s : FabState) : (setFab p s).free = p.free := rfl
@[simp] theorem setFab_now (p : Part) (s : FabState) : (setFab p s).now = p.now := rfl
@[simp] theorem setFab_host (p : Part) (s : FabState) : (setFab p s).host = p.host := rfl
@[simp] theorem setFab_svn (p : Part) (s : FabState) : (setFab p s).svn = p.svn := rfl
@[simp] theorem setFab_sp (p : Part) (s : FabState) : (setFab p s).sp = p.sp := rfl
@[simp] theorem setFab_gr (p : Part) (s : FabState) : (setFab p s).gr = p.gr := rfl
@[simp] theorem setFab_blank (p : Part) (s : FabState) : (setFab p s).blank = p.blank := rfl
@[simp] theorem setFab_cols (p : Part) (s : FabState) : (setFab p s).cols = p.cols := rfl
@[simp] theorem setFab_regions (p : Part) (s : FabState) : (setFab p s).regions = p.regions := rfl
@[simp] theorem setFab_loader (p : Part) (s : FabState) : (setFab p s).loader = p.loader := rfl
@[simp] theorem setFab_boot (p : Part) (s : FabState) : (setFab p s).boot = p.boot := rfl
@[simp] theorem setFab_mon (p : Part) (s : FabState) : (setFab p s).mon = p.mon := rfl
@[simp] theorem setFab_sm (p : Part) (s : FabState) : (setFab p s).sm = p.sm := rfl
@[simp] theorem setFab_tim (p : Part) (s : FabState) : (setFab p s).tim = p.tim := rfl
@[simp] theorem setFab_lanes (p : Part) (s : FabState) : (setFab p s).lanes = p.lanes := rfl
@[simp] theorem setFab_his (p : Part) (s : FabState) : (setFab p s).his = p.his := rfl
@[simp] theorem setFab_rdo (p : Part) (s : FabState) : (setFab p s).rdo = p.rdo := rfl
@[simp] theorem setFab_cap (p : Part) (s : FabState) : (setFab p s).cap = p.cap := rfl
@[simp] theorem setFab_trc (p : Part) (s : FabState) : (setFab p s).trc = p.trc := rfl

/-! ### A receive lane is replaced: the lanes alone change. -/

@[simp] theorem setRx_regs (p : Part) (n : Nat) (l : RxLane) : (setRx p n l).regs = p.regs := rfl
@[simp] theorem setRx_readData (p : Part) (n : Nat) (l : RxLane) : (setRx p n l).readData = p.readData := rfl
@[simp] theorem setRx_readPec (p : Part) (n : Nat) (l : RxLane) : (setRx p n l).readPec = p.readPec := rfl
@[simp] theorem setRx_hiLatch (p : Part) (n : Nat) (l : RxLane) : (setRx p n l).hiLatch = p.hiLatch := rfl
@[simp] theorem setRx_loHeld (p : Part) (n : Nat) (l : RxLane) : (setRx p n l).loHeld = p.loHeld := rfl
@[simp] theorem setRx_free (p : Part) (n : Nat) (l : RxLane) : (setRx p n l).free = p.free := rfl
@[simp] theorem setRx_now (p : Part) (n : Nat) (l : RxLane) : (setRx p n l).now = p.now := rfl
@[simp] theorem setRx_tk (p : Part) (n : Nat) (l : RxLane) : (setRx p n l).tk = p.tk := rfl
@[simp] theorem setRx_host (p : Part) (n : Nat) (l : RxLane) : (setRx p n l).host = p.host := rfl
@[simp] theorem setRx_svn (p : Part) (n : Nat) (l : RxLane) : (setRx p n l).svn = p.svn := rfl
@[simp] theorem setRx_sp (p : Part) (n : Nat) (l : RxLane) : (setRx p n l).sp = p.sp := rfl
@[simp] theorem setRx_gr (p : Part) (n : Nat) (l : RxLane) : (setRx p n l).gr = p.gr := rfl
@[simp] theorem setRx_blank (p : Part) (n : Nat) (l : RxLane) : (setRx p n l).blank = p.blank := rfl
@[simp] theorem setRx_cols (p : Part) (n : Nat) (l : RxLane) : (setRx p n l).cols = p.cols := rfl
@[simp] theorem setRx_regions (p : Part) (n : Nat) (l : RxLane) : (setRx p n l).regions = p.regions := rfl
@[simp] theorem setRx_loader (p : Part) (n : Nat) (l : RxLane) : (setRx p n l).loader = p.loader := rfl
@[simp] theorem setRx_boot (p : Part) (n : Nat) (l : RxLane) : (setRx p n l).boot = p.boot := rfl
@[simp] theorem setRx_mon (p : Part) (n : Nat) (l : RxLane) : (setRx p n l).mon = p.mon := rfl
@[simp] theorem setRx_sm (p : Part) (n : Nat) (l : RxLane) : (setRx p n l).sm = p.sm := rfl
@[simp] theorem setRx_tim (p : Part) (n : Nat) (l : RxLane) : (setRx p n l).tim = p.tim := rfl
@[simp] theorem setRx_his (p : Part) (n : Nat) (l : RxLane) : (setRx p n l).his = p.his := rfl
@[simp] theorem setRx_rdo (p : Part) (n : Nat) (l : RxLane) : (setRx p n l).rdo = p.rdo := rfl
@[simp] theorem setRx_cap (p : Part) (n : Nat) (l : RxLane) : (setRx p n l).cap = p.cap := rfl
@[simp] theorem setRx_trc (p : Part) (n : Nat) (l : RxLane) : (setRx p n l).trc = p.trc := rfl

/-! ### A transmit lane is replaced: the lanes alone change. -/

@[simp] theorem setTx_regs (p : Part) (n : Nat) (l : TxLane) : (setTx p n l).regs = p.regs := rfl
@[simp] theorem setTx_readData (p : Part) (n : Nat) (l : TxLane) : (setTx p n l).readData = p.readData := rfl
@[simp] theorem setTx_readPec (p : Part) (n : Nat) (l : TxLane) : (setTx p n l).readPec = p.readPec := rfl
@[simp] theorem setTx_hiLatch (p : Part) (n : Nat) (l : TxLane) : (setTx p n l).hiLatch = p.hiLatch := rfl
@[simp] theorem setTx_loHeld (p : Part) (n : Nat) (l : TxLane) : (setTx p n l).loHeld = p.loHeld := rfl
@[simp] theorem setTx_free (p : Part) (n : Nat) (l : TxLane) : (setTx p n l).free = p.free := rfl
@[simp] theorem setTx_now (p : Part) (n : Nat) (l : TxLane) : (setTx p n l).now = p.now := rfl
@[simp] theorem setTx_tk (p : Part) (n : Nat) (l : TxLane) : (setTx p n l).tk = p.tk := rfl
@[simp] theorem setTx_host (p : Part) (n : Nat) (l : TxLane) : (setTx p n l).host = p.host := rfl
@[simp] theorem setTx_svn (p : Part) (n : Nat) (l : TxLane) : (setTx p n l).svn = p.svn := rfl
@[simp] theorem setTx_sp (p : Part) (n : Nat) (l : TxLane) : (setTx p n l).sp = p.sp := rfl
@[simp] theorem setTx_gr (p : Part) (n : Nat) (l : TxLane) : (setTx p n l).gr = p.gr := rfl
@[simp] theorem setTx_blank (p : Part) (n : Nat) (l : TxLane) : (setTx p n l).blank = p.blank := rfl
@[simp] theorem setTx_cols (p : Part) (n : Nat) (l : TxLane) : (setTx p n l).cols = p.cols := rfl
@[simp] theorem setTx_regions (p : Part) (n : Nat) (l : TxLane) : (setTx p n l).regions = p.regions := rfl
@[simp] theorem setTx_loader (p : Part) (n : Nat) (l : TxLane) : (setTx p n l).loader = p.loader := rfl
@[simp] theorem setTx_boot (p : Part) (n : Nat) (l : TxLane) : (setTx p n l).boot = p.boot := rfl
@[simp] theorem setTx_mon (p : Part) (n : Nat) (l : TxLane) : (setTx p n l).mon = p.mon := rfl
@[simp] theorem setTx_sm (p : Part) (n : Nat) (l : TxLane) : (setTx p n l).sm = p.sm := rfl
@[simp] theorem setTx_tim (p : Part) (n : Nat) (l : TxLane) : (setTx p n l).tim = p.tim := rfl
@[simp] theorem setTx_his (p : Part) (n : Nat) (l : TxLane) : (setTx p n l).his = p.his := rfl
@[simp] theorem setTx_rdo (p : Part) (n : Nat) (l : TxLane) : (setTx p n l).rdo = p.rdo := rfl
@[simp] theorem setTx_cap (p : Part) (n : Nat) (l : TxLane) : (setTx p n l).cap = p.cap := rfl
@[simp] theorem setTx_trc (p : Part) (n : Nat) (l : TxLane) : (setTx p n l).trc = p.trc := rfl

/-! ### A capture unit is replaced: capture alone changes. -/

@[simp] theorem setCap_regs (p : Part) (u : Nat) (c : CapUnit) : (setCap p u c).regs = p.regs := rfl
@[simp] theorem setCap_readData (p : Part) (u : Nat) (c : CapUnit) : (setCap p u c).readData = p.readData := rfl
@[simp] theorem setCap_readPec (p : Part) (u : Nat) (c : CapUnit) : (setCap p u c).readPec = p.readPec := rfl
@[simp] theorem setCap_hiLatch (p : Part) (u : Nat) (c : CapUnit) : (setCap p u c).hiLatch = p.hiLatch := rfl
@[simp] theorem setCap_loHeld (p : Part) (u : Nat) (c : CapUnit) : (setCap p u c).loHeld = p.loHeld := rfl
@[simp] theorem setCap_free (p : Part) (u : Nat) (c : CapUnit) : (setCap p u c).free = p.free := rfl
@[simp] theorem setCap_now (p : Part) (u : Nat) (c : CapUnit) : (setCap p u c).now = p.now := rfl
@[simp] theorem setCap_tk (p : Part) (u : Nat) (c : CapUnit) : (setCap p u c).tk = p.tk := rfl
@[simp] theorem setCap_host (p : Part) (u : Nat) (c : CapUnit) : (setCap p u c).host = p.host := rfl
@[simp] theorem setCap_svn (p : Part) (u : Nat) (c : CapUnit) : (setCap p u c).svn = p.svn := rfl
@[simp] theorem setCap_sp (p : Part) (u : Nat) (c : CapUnit) : (setCap p u c).sp = p.sp := rfl
@[simp] theorem setCap_gr (p : Part) (u : Nat) (c : CapUnit) : (setCap p u c).gr = p.gr := rfl
@[simp] theorem setCap_blank (p : Part) (u : Nat) (c : CapUnit) : (setCap p u c).blank = p.blank := rfl
@[simp] theorem setCap_cols (p : Part) (u : Nat) (c : CapUnit) : (setCap p u c).cols = p.cols := rfl
@[simp] theorem setCap_regions (p : Part) (u : Nat) (c : CapUnit) : (setCap p u c).regions = p.regions := rfl
@[simp] theorem setCap_loader (p : Part) (u : Nat) (c : CapUnit) : (setCap p u c).loader = p.loader := rfl
@[simp] theorem setCap_boot (p : Part) (u : Nat) (c : CapUnit) : (setCap p u c).boot = p.boot := rfl
@[simp] theorem setCap_mon (p : Part) (u : Nat) (c : CapUnit) : (setCap p u c).mon = p.mon := rfl
@[simp] theorem setCap_sm (p : Part) (u : Nat) (c : CapUnit) : (setCap p u c).sm = p.sm := rfl
@[simp] theorem setCap_tim (p : Part) (u : Nat) (c : CapUnit) : (setCap p u c).tim = p.tim := rfl
@[simp] theorem setCap_lanes (p : Part) (u : Nat) (c : CapUnit) : (setCap p u c).lanes = p.lanes := rfl
@[simp] theorem setCap_his (p : Part) (u : Nat) (c : CapUnit) : (setCap p u c).his = p.his := rfl
@[simp] theorem setCap_rdo (p : Part) (u : Nat) (c : CapUnit) : (setCap p u c).rdo = p.rdo := rfl
@[simp] theorem setCap_trc (p : Part) (u : Nat) (c : CapUnit) : (setCap p u c).trc = p.trc := rfl

/-! ### A readout core is set: readout alone changes. -/

@[simp] theorem setCore_regs (p : Part) (j : Nat) (c : CoreState) : (setCore p j c).regs = p.regs := rfl
@[simp] theorem setCore_readData (p : Part) (j : Nat) (c : CoreState) : (setCore p j c).readData = p.readData := rfl
@[simp] theorem setCore_readPec (p : Part) (j : Nat) (c : CoreState) : (setCore p j c).readPec = p.readPec := rfl
@[simp] theorem setCore_hiLatch (p : Part) (j : Nat) (c : CoreState) : (setCore p j c).hiLatch = p.hiLatch := rfl
@[simp] theorem setCore_loHeld (p : Part) (j : Nat) (c : CoreState) : (setCore p j c).loHeld = p.loHeld := rfl
@[simp] theorem setCore_free (p : Part) (j : Nat) (c : CoreState) : (setCore p j c).free = p.free := rfl
@[simp] theorem setCore_now (p : Part) (j : Nat) (c : CoreState) : (setCore p j c).now = p.now := rfl
@[simp] theorem setCore_tk (p : Part) (j : Nat) (c : CoreState) : (setCore p j c).tk = p.tk := rfl
@[simp] theorem setCore_host (p : Part) (j : Nat) (c : CoreState) : (setCore p j c).host = p.host := rfl
@[simp] theorem setCore_svn (p : Part) (j : Nat) (c : CoreState) : (setCore p j c).svn = p.svn := rfl
@[simp] theorem setCore_sp (p : Part) (j : Nat) (c : CoreState) : (setCore p j c).sp = p.sp := rfl
@[simp] theorem setCore_gr (p : Part) (j : Nat) (c : CoreState) : (setCore p j c).gr = p.gr := rfl
@[simp] theorem setCore_blank (p : Part) (j : Nat) (c : CoreState) : (setCore p j c).blank = p.blank := rfl
@[simp] theorem setCore_cols (p : Part) (j : Nat) (c : CoreState) : (setCore p j c).cols = p.cols := rfl
@[simp] theorem setCore_regions (p : Part) (j : Nat) (c : CoreState) : (setCore p j c).regions = p.regions := rfl
@[simp] theorem setCore_loader (p : Part) (j : Nat) (c : CoreState) : (setCore p j c).loader = p.loader := rfl
@[simp] theorem setCore_boot (p : Part) (j : Nat) (c : CoreState) : (setCore p j c).boot = p.boot := rfl
@[simp] theorem setCore_mon (p : Part) (j : Nat) (c : CoreState) : (setCore p j c).mon = p.mon := rfl
@[simp] theorem setCore_sm (p : Part) (j : Nat) (c : CoreState) : (setCore p j c).sm = p.sm := rfl
@[simp] theorem setCore_tim (p : Part) (j : Nat) (c : CoreState) : (setCore p j c).tim = p.tim := rfl
@[simp] theorem setCore_lanes (p : Part) (j : Nat) (c : CoreState) : (setCore p j c).lanes = p.lanes := rfl
@[simp] theorem setCore_his (p : Part) (j : Nat) (c : CoreState) : (setCore p j c).his = p.his := rfl
@[simp] theorem setCore_cap (p : Part) (j : Nat) (c : CoreState) : (setCore p j c).cap = p.cap := rfl
@[simp] theorem setCore_trc (p : Part) (j : Nat) (c : CoreState) : (setCore p j c).trc = p.trc := rfl

/-! ### An instance changes: readout alone changes. -/

@[simp] theorem mapInstance_regs (p : Part) (k : Nat) (f : Instance → Instance) : (mapInstance p k f).regs = p.regs := rfl
@[simp] theorem mapInstance_readData (p : Part) (k : Nat) (f : Instance → Instance) : (mapInstance p k f).readData = p.readData := rfl
@[simp] theorem mapInstance_readPec (p : Part) (k : Nat) (f : Instance → Instance) : (mapInstance p k f).readPec = p.readPec := rfl
@[simp] theorem mapInstance_hiLatch (p : Part) (k : Nat) (f : Instance → Instance) : (mapInstance p k f).hiLatch = p.hiLatch := rfl
@[simp] theorem mapInstance_loHeld (p : Part) (k : Nat) (f : Instance → Instance) : (mapInstance p k f).loHeld = p.loHeld := rfl
@[simp] theorem mapInstance_free (p : Part) (k : Nat) (f : Instance → Instance) : (mapInstance p k f).free = p.free := rfl
@[simp] theorem mapInstance_now (p : Part) (k : Nat) (f : Instance → Instance) : (mapInstance p k f).now = p.now := rfl
@[simp] theorem mapInstance_tk (p : Part) (k : Nat) (f : Instance → Instance) : (mapInstance p k f).tk = p.tk := rfl
@[simp] theorem mapInstance_host (p : Part) (k : Nat) (f : Instance → Instance) : (mapInstance p k f).host = p.host := rfl
@[simp] theorem mapInstance_svn (p : Part) (k : Nat) (f : Instance → Instance) : (mapInstance p k f).svn = p.svn := rfl
@[simp] theorem mapInstance_sp (p : Part) (k : Nat) (f : Instance → Instance) : (mapInstance p k f).sp = p.sp := rfl
@[simp] theorem mapInstance_gr (p : Part) (k : Nat) (f : Instance → Instance) : (mapInstance p k f).gr = p.gr := rfl
@[simp] theorem mapInstance_blank (p : Part) (k : Nat) (f : Instance → Instance) : (mapInstance p k f).blank = p.blank := rfl
@[simp] theorem mapInstance_cols (p : Part) (k : Nat) (f : Instance → Instance) : (mapInstance p k f).cols = p.cols := rfl
@[simp] theorem mapInstance_regions (p : Part) (k : Nat) (f : Instance → Instance) : (mapInstance p k f).regions = p.regions := rfl
@[simp] theorem mapInstance_loader (p : Part) (k : Nat) (f : Instance → Instance) : (mapInstance p k f).loader = p.loader := rfl
@[simp] theorem mapInstance_boot (p : Part) (k : Nat) (f : Instance → Instance) : (mapInstance p k f).boot = p.boot := rfl
@[simp] theorem mapInstance_mon (p : Part) (k : Nat) (f : Instance → Instance) : (mapInstance p k f).mon = p.mon := rfl
@[simp] theorem mapInstance_sm (p : Part) (k : Nat) (f : Instance → Instance) : (mapInstance p k f).sm = p.sm := rfl
@[simp] theorem mapInstance_tim (p : Part) (k : Nat) (f : Instance → Instance) : (mapInstance p k f).tim = p.tim := rfl
@[simp] theorem mapInstance_lanes (p : Part) (k : Nat) (f : Instance → Instance) : (mapInstance p k f).lanes = p.lanes := rfl
@[simp] theorem mapInstance_his (p : Part) (k : Nat) (f : Instance → Instance) : (mapInstance p k f).his = p.his := rfl
@[simp] theorem mapInstance_cap (p : Part) (k : Nat) (f : Instance → Instance) : (mapInstance p k f).cap = p.cap := rfl
@[simp] theorem mapInstance_trc (p : Part) (k : Nat) (f : Instance → Instance) : (mapInstance p k f).trc = p.trc := rfl

/-! ### A record has been delivered: readout alone changes. -/

@[simp] theorem bumpSeq_regs (p : Part) (d : Nat) : (bumpSeq p d).regs = p.regs := rfl
@[simp] theorem bumpSeq_readData (p : Part) (d : Nat) : (bumpSeq p d).readData = p.readData := rfl
@[simp] theorem bumpSeq_readPec (p : Part) (d : Nat) : (bumpSeq p d).readPec = p.readPec := rfl
@[simp] theorem bumpSeq_hiLatch (p : Part) (d : Nat) : (bumpSeq p d).hiLatch = p.hiLatch := rfl
@[simp] theorem bumpSeq_loHeld (p : Part) (d : Nat) : (bumpSeq p d).loHeld = p.loHeld := rfl
@[simp] theorem bumpSeq_free (p : Part) (d : Nat) : (bumpSeq p d).free = p.free := rfl
@[simp] theorem bumpSeq_now (p : Part) (d : Nat) : (bumpSeq p d).now = p.now := rfl
@[simp] theorem bumpSeq_tk (p : Part) (d : Nat) : (bumpSeq p d).tk = p.tk := rfl
@[simp] theorem bumpSeq_host (p : Part) (d : Nat) : (bumpSeq p d).host = p.host := rfl
@[simp] theorem bumpSeq_svn (p : Part) (d : Nat) : (bumpSeq p d).svn = p.svn := rfl
@[simp] theorem bumpSeq_sp (p : Part) (d : Nat) : (bumpSeq p d).sp = p.sp := rfl
@[simp] theorem bumpSeq_gr (p : Part) (d : Nat) : (bumpSeq p d).gr = p.gr := rfl
@[simp] theorem bumpSeq_blank (p : Part) (d : Nat) : (bumpSeq p d).blank = p.blank := rfl
@[simp] theorem bumpSeq_cols (p : Part) (d : Nat) : (bumpSeq p d).cols = p.cols := rfl
@[simp] theorem bumpSeq_regions (p : Part) (d : Nat) : (bumpSeq p d).regions = p.regions := rfl
@[simp] theorem bumpSeq_loader (p : Part) (d : Nat) : (bumpSeq p d).loader = p.loader := rfl
@[simp] theorem bumpSeq_boot (p : Part) (d : Nat) : (bumpSeq p d).boot = p.boot := rfl
@[simp] theorem bumpSeq_mon (p : Part) (d : Nat) : (bumpSeq p d).mon = p.mon := rfl
@[simp] theorem bumpSeq_sm (p : Part) (d : Nat) : (bumpSeq p d).sm = p.sm := rfl
@[simp] theorem bumpSeq_tim (p : Part) (d : Nat) : (bumpSeq p d).tim = p.tim := rfl
@[simp] theorem bumpSeq_lanes (p : Part) (d : Nat) : (bumpSeq p d).lanes = p.lanes := rfl
@[simp] theorem bumpSeq_his (p : Part) (d : Nat) : (bumpSeq p d).his = p.his := rfl
@[simp] theorem bumpSeq_cap (p : Part) (d : Nat) : (bumpSeq p d).cap = p.cap := rfl
@[simp] theorem bumpSeq_trc (p : Part) (d : Nat) : (bumpSeq p d).trc = p.trc := rfl

/-! ### A data-memory word is stored: the spindles alone change. -/

@[simp] theorem setDword_regs (p : Part) (k : Nat) (c : EccWord) : (setDword p k c).regs = p.regs := rfl
@[simp] theorem setDword_readData (p : Part) (k : Nat) (c : EccWord) : (setDword p k c).readData = p.readData := rfl
@[simp] theorem setDword_readPec (p : Part) (k : Nat) (c : EccWord) : (setDword p k c).readPec = p.readPec := rfl
@[simp] theorem setDword_hiLatch (p : Part) (k : Nat) (c : EccWord) : (setDword p k c).hiLatch = p.hiLatch := rfl
@[simp] theorem setDword_loHeld (p : Part) (k : Nat) (c : EccWord) : (setDword p k c).loHeld = p.loHeld := rfl
@[simp] theorem setDword_free (p : Part) (k : Nat) (c : EccWord) : (setDword p k c).free = p.free := rfl
@[simp] theorem setDword_now (p : Part) (k : Nat) (c : EccWord) : (setDword p k c).now = p.now := rfl
@[simp] theorem setDword_tk (p : Part) (k : Nat) (c : EccWord) : (setDword p k c).tk = p.tk := rfl
@[simp] theorem setDword_host (p : Part) (k : Nat) (c : EccWord) : (setDword p k c).host = p.host := rfl
@[simp] theorem setDword_svn (p : Part) (k : Nat) (c : EccWord) : (setDword p k c).svn = p.svn := rfl
@[simp] theorem setDword_gr (p : Part) (k : Nat) (c : EccWord) : (setDword p k c).gr = p.gr := rfl
@[simp] theorem setDword_blank (p : Part) (k : Nat) (c : EccWord) : (setDword p k c).blank = p.blank := rfl
@[simp] theorem setDword_cols (p : Part) (k : Nat) (c : EccWord) : (setDword p k c).cols = p.cols := rfl
@[simp] theorem setDword_regions (p : Part) (k : Nat) (c : EccWord) : (setDword p k c).regions = p.regions := rfl
@[simp] theorem setDword_loader (p : Part) (k : Nat) (c : EccWord) : (setDword p k c).loader = p.loader := rfl
@[simp] theorem setDword_boot (p : Part) (k : Nat) (c : EccWord) : (setDword p k c).boot = p.boot := rfl
@[simp] theorem setDword_mon (p : Part) (k : Nat) (c : EccWord) : (setDword p k c).mon = p.mon := rfl
@[simp] theorem setDword_sm (p : Part) (k : Nat) (c : EccWord) : (setDword p k c).sm = p.sm := rfl
@[simp] theorem setDword_tim (p : Part) (k : Nat) (c : EccWord) : (setDword p k c).tim = p.tim := rfl
@[simp] theorem setDword_lanes (p : Part) (k : Nat) (c : EccWord) : (setDword p k c).lanes = p.lanes := rfl
@[simp] theorem setDword_his (p : Part) (k : Nat) (c : EccWord) : (setDword p k c).his = p.his := rfl
@[simp] theorem setDword_rdo (p : Part) (k : Nat) (c : EccWord) : (setDword p k c).rdo = p.rdo := rfl
@[simp] theorem setDword_cap (p : Part) (k : Nat) (c : EccWord) : (setDword p k c).cap = p.cap := rfl
@[simp] theorem setDword_trc (p : Part) (k : Nat) (c : EccWord) : (setDword p k c).trc = p.trc := rfl

/-! ### An instruction-memory word is stored: the spindles alone change. -/

@[simp] theorem setIword_regs (p : Part) (k : Nat) (c : EccWord) : (setIword p k c).regs = p.regs := rfl
@[simp] theorem setIword_readData (p : Part) (k : Nat) (c : EccWord) : (setIword p k c).readData = p.readData := rfl
@[simp] theorem setIword_readPec (p : Part) (k : Nat) (c : EccWord) : (setIword p k c).readPec = p.readPec := rfl
@[simp] theorem setIword_hiLatch (p : Part) (k : Nat) (c : EccWord) : (setIword p k c).hiLatch = p.hiLatch := rfl
@[simp] theorem setIword_loHeld (p : Part) (k : Nat) (c : EccWord) : (setIword p k c).loHeld = p.loHeld := rfl
@[simp] theorem setIword_free (p : Part) (k : Nat) (c : EccWord) : (setIword p k c).free = p.free := rfl
@[simp] theorem setIword_now (p : Part) (k : Nat) (c : EccWord) : (setIword p k c).now = p.now := rfl
@[simp] theorem setIword_tk (p : Part) (k : Nat) (c : EccWord) : (setIword p k c).tk = p.tk := rfl
@[simp] theorem setIword_host (p : Part) (k : Nat) (c : EccWord) : (setIword p k c).host = p.host := rfl
@[simp] theorem setIword_svn (p : Part) (k : Nat) (c : EccWord) : (setIword p k c).svn = p.svn := rfl
@[simp] theorem setIword_gr (p : Part) (k : Nat) (c : EccWord) : (setIword p k c).gr = p.gr := rfl
@[simp] theorem setIword_blank (p : Part) (k : Nat) (c : EccWord) : (setIword p k c).blank = p.blank := rfl
@[simp] theorem setIword_cols (p : Part) (k : Nat) (c : EccWord) : (setIword p k c).cols = p.cols := rfl
@[simp] theorem setIword_regions (p : Part) (k : Nat) (c : EccWord) : (setIword p k c).regions = p.regions := rfl
@[simp] theorem setIword_loader (p : Part) (k : Nat) (c : EccWord) : (setIword p k c).loader = p.loader := rfl
@[simp] theorem setIword_boot (p : Part) (k : Nat) (c : EccWord) : (setIword p k c).boot = p.boot := rfl
@[simp] theorem setIword_mon (p : Part) (k : Nat) (c : EccWord) : (setIword p k c).mon = p.mon := rfl
@[simp] theorem setIword_sm (p : Part) (k : Nat) (c : EccWord) : (setIword p k c).sm = p.sm := rfl
@[simp] theorem setIword_tim (p : Part) (k : Nat) (c : EccWord) : (setIword p k c).tim = p.tim := rfl
@[simp] theorem setIword_lanes (p : Part) (k : Nat) (c : EccWord) : (setIword p k c).lanes = p.lanes := rfl
@[simp] theorem setIword_his (p : Part) (k : Nat) (c : EccWord) : (setIword p k c).his = p.his := rfl
@[simp] theorem setIword_rdo (p : Part) (k : Nat) (c : EccWord) : (setIword p k c).rdo = p.rdo := rfl
@[simp] theorem setIword_cap (p : Part) (k : Nat) (c : EccWord) : (setIword p k c).cap = p.cap := rfl
@[simp] theorem setIword_trc (p : Part) (k : Nat) (c : EccWord) : (setIword p k c).trc = p.trc := rfl

/-! ### A table word is stored: the spindles alone change. -/

@[simp] theorem setTword_regs (p : Part) (k : Nat) (c : EccWord) : (setTword p k c).regs = p.regs := rfl
@[simp] theorem setTword_readData (p : Part) (k : Nat) (c : EccWord) : (setTword p k c).readData = p.readData := rfl
@[simp] theorem setTword_readPec (p : Part) (k : Nat) (c : EccWord) : (setTword p k c).readPec = p.readPec := rfl
@[simp] theorem setTword_hiLatch (p : Part) (k : Nat) (c : EccWord) : (setTword p k c).hiLatch = p.hiLatch := rfl
@[simp] theorem setTword_loHeld (p : Part) (k : Nat) (c : EccWord) : (setTword p k c).loHeld = p.loHeld := rfl
@[simp] theorem setTword_free (p : Part) (k : Nat) (c : EccWord) : (setTword p k c).free = p.free := rfl
@[simp] theorem setTword_now (p : Part) (k : Nat) (c : EccWord) : (setTword p k c).now = p.now := rfl
@[simp] theorem setTword_tk (p : Part) (k : Nat) (c : EccWord) : (setTword p k c).tk = p.tk := rfl
@[simp] theorem setTword_host (p : Part) (k : Nat) (c : EccWord) : (setTword p k c).host = p.host := rfl
@[simp] theorem setTword_svn (p : Part) (k : Nat) (c : EccWord) : (setTword p k c).svn = p.svn := rfl
@[simp] theorem setTword_gr (p : Part) (k : Nat) (c : EccWord) : (setTword p k c).gr = p.gr := rfl
@[simp] theorem setTword_blank (p : Part) (k : Nat) (c : EccWord) : (setTword p k c).blank = p.blank := rfl
@[simp] theorem setTword_cols (p : Part) (k : Nat) (c : EccWord) : (setTword p k c).cols = p.cols := rfl
@[simp] theorem setTword_regions (p : Part) (k : Nat) (c : EccWord) : (setTword p k c).regions = p.regions := rfl
@[simp] theorem setTword_loader (p : Part) (k : Nat) (c : EccWord) : (setTword p k c).loader = p.loader := rfl
@[simp] theorem setTword_boot (p : Part) (k : Nat) (c : EccWord) : (setTword p k c).boot = p.boot := rfl
@[simp] theorem setTword_mon (p : Part) (k : Nat) (c : EccWord) : (setTword p k c).mon = p.mon := rfl
@[simp] theorem setTword_sm (p : Part) (k : Nat) (c : EccWord) : (setTword p k c).sm = p.sm := rfl
@[simp] theorem setTword_tim (p : Part) (k : Nat) (c : EccWord) : (setTword p k c).tim = p.tim := rfl
@[simp] theorem setTword_lanes (p : Part) (k : Nat) (c : EccWord) : (setTword p k c).lanes = p.lanes := rfl
@[simp] theorem setTword_his (p : Part) (k : Nat) (c : EccWord) : (setTword p k c).his = p.his := rfl
@[simp] theorem setTword_rdo (p : Part) (k : Nat) (c : EccWord) : (setTword p k c).rdo = p.rdo := rfl
@[simp] theorem setTword_cap (p : Part) (k : Nat) (c : EccWord) : (setTword p k c).cap = p.cap := rfl
@[simp] theorem setTword_trc (p : Part) (k : Nat) (c : EccWord) : (setTword p k c).trc = p.trc := rfl

/-! ### A region changes alone. -/

@[simp] theorem mapRegion_regs (p : Part) (k : Nat) (f : Region → Region) : (mapRegion p k f).regs = p.regs := rfl
@[simp] theorem mapRegion_readData (p : Part) (k : Nat) (f : Region → Region) : (mapRegion p k f).readData = p.readData := rfl
@[simp] theorem mapRegion_readPec (p : Part) (k : Nat) (f : Region → Region) : (mapRegion p k f).readPec = p.readPec := rfl
@[simp] theorem mapRegion_hiLatch (p : Part) (k : Nat) (f : Region → Region) : (mapRegion p k f).hiLatch = p.hiLatch := rfl
@[simp] theorem mapRegion_loHeld (p : Part) (k : Nat) (f : Region → Region) : (mapRegion p k f).loHeld = p.loHeld := rfl
@[simp] theorem mapRegion_free (p : Part) (k : Nat) (f : Region → Region) : (mapRegion p k f).free = p.free := rfl
@[simp] theorem mapRegion_now (p : Part) (k : Nat) (f : Region → Region) : (mapRegion p k f).now = p.now := rfl
@[simp] theorem mapRegion_tk (p : Part) (k : Nat) (f : Region → Region) : (mapRegion p k f).tk = p.tk := rfl
@[simp] theorem mapRegion_host (p : Part) (k : Nat) (f : Region → Region) : (mapRegion p k f).host = p.host := rfl
@[simp] theorem mapRegion_svn (p : Part) (k : Nat) (f : Region → Region) : (mapRegion p k f).svn = p.svn := rfl
@[simp] theorem mapRegion_sp (p : Part) (k : Nat) (f : Region → Region) : (mapRegion p k f).sp = p.sp := rfl
@[simp] theorem mapRegion_gr (p : Part) (k : Nat) (f : Region → Region) : (mapRegion p k f).gr = p.gr := rfl
@[simp] theorem mapRegion_blank (p : Part) (k : Nat) (f : Region → Region) : (mapRegion p k f).blank = p.blank := rfl
@[simp] theorem mapRegion_cols (p : Part) (k : Nat) (f : Region → Region) : (mapRegion p k f).cols = p.cols := rfl
@[simp] theorem mapRegion_loader (p : Part) (k : Nat) (f : Region → Region) : (mapRegion p k f).loader = p.loader := rfl
@[simp] theorem mapRegion_boot (p : Part) (k : Nat) (f : Region → Region) : (mapRegion p k f).boot = p.boot := rfl
@[simp] theorem mapRegion_mon (p : Part) (k : Nat) (f : Region → Region) : (mapRegion p k f).mon = p.mon := rfl
@[simp] theorem mapRegion_sm (p : Part) (k : Nat) (f : Region → Region) : (mapRegion p k f).sm = p.sm := rfl
@[simp] theorem mapRegion_tim (p : Part) (k : Nat) (f : Region → Region) : (mapRegion p k f).tim = p.tim := rfl
@[simp] theorem mapRegion_lanes (p : Part) (k : Nat) (f : Region → Region) : (mapRegion p k f).lanes = p.lanes := rfl
@[simp] theorem mapRegion_his (p : Part) (k : Nat) (f : Region → Region) : (mapRegion p k f).his = p.his := rfl
@[simp] theorem mapRegion_rdo (p : Part) (k : Nat) (f : Region → Region) : (mapRegion p k f).rdo = p.rdo := rfl
@[simp] theorem mapRegion_cap (p : Part) (k : Nat) (f : Region → Region) : (mapRegion p k f).cap = p.cap := rfl
@[simp] theorem mapRegion_trc (p : Part) (k : Nat) (f : Region → Region) : (mapRegion p k f).trc = p.trc := rfl

/-! ### A page changes: history alone changes. -/

@[simp] theorem mapPage_regs (p : Part) (k : Nat) (f : HPage → HPage) : (mapPage p k f).regs = p.regs := rfl
@[simp] theorem mapPage_readData (p : Part) (k : Nat) (f : HPage → HPage) : (mapPage p k f).readData = p.readData := rfl
@[simp] theorem mapPage_readPec (p : Part) (k : Nat) (f : HPage → HPage) : (mapPage p k f).readPec = p.readPec := rfl
@[simp] theorem mapPage_hiLatch (p : Part) (k : Nat) (f : HPage → HPage) : (mapPage p k f).hiLatch = p.hiLatch := rfl
@[simp] theorem mapPage_loHeld (p : Part) (k : Nat) (f : HPage → HPage) : (mapPage p k f).loHeld = p.loHeld := rfl
@[simp] theorem mapPage_free (p : Part) (k : Nat) (f : HPage → HPage) : (mapPage p k f).free = p.free := rfl
@[simp] theorem mapPage_now (p : Part) (k : Nat) (f : HPage → HPage) : (mapPage p k f).now = p.now := rfl
@[simp] theorem mapPage_tk (p : Part) (k : Nat) (f : HPage → HPage) : (mapPage p k f).tk = p.tk := rfl
@[simp] theorem mapPage_host (p : Part) (k : Nat) (f : HPage → HPage) : (mapPage p k f).host = p.host := rfl
@[simp] theorem mapPage_svn (p : Part) (k : Nat) (f : HPage → HPage) : (mapPage p k f).svn = p.svn := rfl
@[simp] theorem mapPage_sp (p : Part) (k : Nat) (f : HPage → HPage) : (mapPage p k f).sp = p.sp := rfl
@[simp] theorem mapPage_gr (p : Part) (k : Nat) (f : HPage → HPage) : (mapPage p k f).gr = p.gr := rfl
@[simp] theorem mapPage_blank (p : Part) (k : Nat) (f : HPage → HPage) : (mapPage p k f).blank = p.blank := rfl
@[simp] theorem mapPage_cols (p : Part) (k : Nat) (f : HPage → HPage) : (mapPage p k f).cols = p.cols := rfl
@[simp] theorem mapPage_regions (p : Part) (k : Nat) (f : HPage → HPage) : (mapPage p k f).regions = p.regions := rfl
@[simp] theorem mapPage_loader (p : Part) (k : Nat) (f : HPage → HPage) : (mapPage p k f).loader = p.loader := rfl
@[simp] theorem mapPage_boot (p : Part) (k : Nat) (f : HPage → HPage) : (mapPage p k f).boot = p.boot := rfl
@[simp] theorem mapPage_mon (p : Part) (k : Nat) (f : HPage → HPage) : (mapPage p k f).mon = p.mon := rfl
@[simp] theorem mapPage_sm (p : Part) (k : Nat) (f : HPage → HPage) : (mapPage p k f).sm = p.sm := rfl
@[simp] theorem mapPage_tim (p : Part) (k : Nat) (f : HPage → HPage) : (mapPage p k f).tim = p.tim := rfl
@[simp] theorem mapPage_lanes (p : Part) (k : Nat) (f : HPage → HPage) : (mapPage p k f).lanes = p.lanes := rfl
@[simp] theorem mapPage_rdo (p : Part) (k : Nat) (f : HPage → HPage) : (mapPage p k f).rdo = p.rdo := rfl
@[simp] theorem mapPage_cap (p : Part) (k : Nat) (f : HPage → HPage) : (mapPage p k f).cap = p.cap := rfl
@[simp] theorem mapPage_trc (p : Part) (k : Nat) (f : HPage → HPage) : (mapPage p k f).trc = p.trc := rfl

/-! ### Within the unit that an update changes -/

@[simp] theorem setFab_tk_fab (p : Part) (s : FabState) : (setFab p s).tk.fab = s := rfl
@[simp] theorem setFab_tk_tick (p : Part) (s : FabState) : (setFab p s).tk.tick = p.tk.tick := rfl
@[simp] theorem setFab_tk_reached (p : Part) (s : FabState) : (setFab p s).tk.reached = p.tk.reached := rfl
@[simp] theorem setFab_tk_pllN (p : Part) (s : FabState) : (setFab p s).tk.pllN = p.tk.pllN := rfl
@[simp] theorem setFab_tk_pllT (p : Part) (s : FabState) : (setFab p s).tk.pllT = p.tk.pllT := rfl
@[simp] theorem setFab_tk_start (p : Part) (s : FabState) : (setFab p s).tk.start = p.tk.start := rfl
@[simp] theorem setFab_tk_stopAt (p : Part) (s : FabState) : (setFab p s).tk.stopAt = p.tk.stopAt := rfl
@[simp] theorem setFab_tk_stopCmds (p : Part) (s : FabState) : (setFab p s).tk.stopCmds = p.tk.stopCmds := rfl
@[simp] theorem setFab_tk_haltReq (p : Part) (s : FabState) : (setFab p s).tk.haltReq = p.tk.haltReq := rfl
@[simp] theorem setFab_tk_haltDue (p : Part) (s : FabState) : (setFab p s).tk.haltDue = p.tk.haltDue := rfl
@[simp] theorem setFab_tk_halt (p : Part) (s : FabState) : (setFab p s).tk.halt = p.tk.halt := rfl
@[simp] theorem setFab_tk_haltCmds (p : Part) (s : FabState) : (setFab p s).tk.haltCmds = p.tk.haltCmds := rfl
@[simp] theorem setFab_tk_catchLog (p : Part) (s : FabState) : (setFab p s).tk.catchLog = p.tk.catchLog := rfl
@[simp] theorem setFab_tk_catchOvf (p : Part) (s : FabState) : (setFab p s).tk.catchOvf = p.tk.catchOvf := rfl
@[simp] theorem setFab_tk_classSeen (p : Part) (s : FabState) : (setFab p s).tk.classSeen = p.tk.classSeen := rfl
@[simp] theorem setFab_tk_log154 (p : Part) (s : FabState) : (setFab p s).tk.log154 = p.tk.log154 := rfl
@[simp] theorem setFab_tk_fabHaltFrom (p : Part) (s : FabState) : (setFab p s).tk.fabHaltFrom = p.tk.fabHaltFrom := rfl
@[simp] theorem setFab_tk_partHaltFrom (p : Part) (s : FabState) : (setFab p s).tk.partHaltFrom = p.tk.partHaltFrom := rfl
@[simp] theorem setFab_tk_pvWest (p : Part) (s : FabState) : (setFab p s).tk.pvWest = p.tk.pvWest := rfl
@[simp] theorem setFab_tk_pvEast (p : Part) (s : FabState) : (setFab p s).tk.pvEast = p.tk.pvEast := rfl
@[simp] theorem setRx_lanes_tx (p : Part) (n : Nat) (l : RxLane) : (setRx p n l).lanes.tx = p.lanes.tx := rfl
@[simp] theorem setRx_lanes_errs (p : Part) (n : Nat) (l : RxLane) : (setRx p n l).lanes.errs = p.lanes.errs := rfl
@[simp] theorem setRx_lanes_errAt (p : Part) (n : Nat) (l : RxLane) : (setRx p n l).lanes.errAt = p.lanes.errAt := rfl
@[simp] theorem setTx_lanes_rx (p : Part) (n : Nat) (l : TxLane) : (setTx p n l).lanes.rx = p.lanes.rx := rfl
@[simp] theorem setTx_lanes_errs (p : Part) (n : Nat) (l : TxLane) : (setTx p n l).lanes.errs = p.lanes.errs := rfl
@[simp] theorem setTx_lanes_errAt (p : Part) (n : Nat) (l : TxLane) : (setTx p n l).lanes.errAt = p.lanes.errAt := rfl
@[simp] theorem setCap_cap_ticks (p : Part) (u : Nat) (c : CapUnit) : (setCap p u c).cap.ticks = p.cap.ticks := rfl
@[simp] theorem setCap_cap_delivery (p : Part) (u : Nat) (c : CapUnit) : (setCap p u c).cap.delivery = p.cap.delivery := rfl
@[simp] theorem setCap_cap_drive (p : Part) (u : Nat) (c : CapUnit) : (setCap p u c).cap.drive = p.cap.drive := rfl
@[simp] theorem setCap_cap_driveFrom (p : Part) (u : Nat) (c : CapUnit) : (setCap p u c).cap.driveFrom = p.cap.driveFrom := rfl
@[simp] theorem setCap_cap_drv (p : Part) (u : Nat) (c : CapUnit) : (setCap p u c).cap.drv = p.cap.drv := rfl
@[simp] theorem setCap_cap_smp (p : Part) (u : Nat) (c : CapUnit) : (setCap p u c).cap.smp = p.cap.smp := rfl
@[simp] theorem setCore_rdo_graph (p : Part) (j : Nat) (c : CoreState) : (setCore p j c).rdo.graph = p.rdo.graph := rfl
@[simp] theorem setCore_rdo_order (p : Part) (j : Nat) (c : CoreState) : (setCore p j c).rdo.order = p.rdo.order := rfl
@[simp] theorem setCore_rdo_insts (p : Part) (j : Nat) (c : CoreState) : (setCore p j c).rdo.insts = p.rdo.insts := rfl
@[simp] theorem setCore_rdo_queue (p : Part) (j : Nat) (c : CoreState) : (setCore p j c).rdo.queue = p.rdo.queue := rfl
@[simp] theorem setCore_rdo_parked (p : Part) (j : Nat) (c : CoreState) : (setCore p j c).rdo.parked = p.rdo.parked := rfl
@[simp] theorem setCore_rdo_lanes (p : Part) (j : Nat) (c : CoreState) : (setCore p j c).rdo.lanes = p.rdo.lanes := rfl
@[simp] theorem setCore_rdo_seqs (p : Part) (j : Nat) (c : CoreState) : (setCore p j c).rdo.seqs = p.rdo.seqs := rfl
@[simp] theorem setCore_rdo_coreMem (p : Part) (j : Nat) (c : CoreState) : (setCore p j c).rdo.coreMem = p.rdo.coreMem := rfl
@[simp] theorem mapInstance_rdo_graph (p : Part) (k : Nat) (f : Instance → Instance) : (mapInstance p k f).rdo.graph = p.rdo.graph := rfl
@[simp] theorem mapInstance_rdo_order (p : Part) (k : Nat) (f : Instance → Instance) : (mapInstance p k f).rdo.order = p.rdo.order := rfl
@[simp] theorem mapInstance_rdo_queue (p : Part) (k : Nat) (f : Instance → Instance) : (mapInstance p k f).rdo.queue = p.rdo.queue := rfl
@[simp] theorem mapInstance_rdo_parked (p : Part) (k : Nat) (f : Instance → Instance) : (mapInstance p k f).rdo.parked = p.rdo.parked := rfl
@[simp] theorem mapInstance_rdo_cores (p : Part) (k : Nat) (f : Instance → Instance) : (mapInstance p k f).rdo.cores = p.rdo.cores := rfl
@[simp] theorem mapInstance_rdo_lanes (p : Part) (k : Nat) (f : Instance → Instance) : (mapInstance p k f).rdo.lanes = p.rdo.lanes := rfl
@[simp] theorem mapInstance_rdo_seqs (p : Part) (k : Nat) (f : Instance → Instance) : (mapInstance p k f).rdo.seqs = p.rdo.seqs := rfl
@[simp] theorem mapInstance_rdo_coreMem (p : Part) (k : Nat) (f : Instance → Instance) : (mapInstance p k f).rdo.coreMem = p.rdo.coreMem := rfl
@[simp] theorem bumpSeq_rdo_graph (p : Part) (d : Nat) : (bumpSeq p d).rdo.graph = p.rdo.graph := rfl
@[simp] theorem bumpSeq_rdo_order (p : Part) (d : Nat) : (bumpSeq p d).rdo.order = p.rdo.order := rfl
@[simp] theorem bumpSeq_rdo_insts (p : Part) (d : Nat) : (bumpSeq p d).rdo.insts = p.rdo.insts := rfl
@[simp] theorem bumpSeq_rdo_queue (p : Part) (d : Nat) : (bumpSeq p d).rdo.queue = p.rdo.queue := rfl
@[simp] theorem bumpSeq_rdo_parked (p : Part) (d : Nat) : (bumpSeq p d).rdo.parked = p.rdo.parked := rfl
@[simp] theorem bumpSeq_rdo_cores (p : Part) (d : Nat) : (bumpSeq p d).rdo.cores = p.rdo.cores := rfl
@[simp] theorem bumpSeq_rdo_lanes (p : Part) (d : Nat) : (bumpSeq p d).rdo.lanes = p.rdo.lanes := rfl
@[simp] theorem bumpSeq_rdo_coreMem (p : Part) (d : Nat) : (bumpSeq p d).rdo.coreMem = p.rdo.coreMem := rfl
@[simp] theorem setDword_sp_imem (p : Part) (k : Nat) (c : EccWord) : (setDword p k c).sp.imem = p.sp.imem := rfl
@[simp] theorem setDword_sp_table (p : Part) (k : Nat) (c : EccWord) : (setDword p k c).sp.table = p.sp.table := rfl
@[simp] theorem setDword_sp_pend (p : Part) (k : Nat) (c : EccWord) : (setDword p k c).sp.pend = p.sp.pend := rfl
@[simp] theorem setDword_sp_bus (p : Part) (k : Nat) (c : EccWord) : (setDword p k c).sp.bus = p.sp.bus := rfl
@[simp] theorem setDword_sp_tr (p : Part) (k : Nat) (c : EccWord) : (setDword p k c).sp.tr = p.sp.tr := rfl
@[simp] theorem setDword_sp_lastStep (p : Part) (k : Nat) (c : EccWord) : (setDword p k c).sp.lastStep = p.sp.lastStep := rfl
@[simp] theorem setDword_sp_suppressed (p : Part) (k : Nat) (c : EccWord) : (setDword p k c).sp.suppressed = p.sp.suppressed := rfl
@[simp] theorem setDword_sp_tableStep (p : Part) (k : Nat) (c : EccWord) : (setDword p k c).sp.tableStep = p.sp.tableStep := rfl
@[simp] theorem setDword_sp_dQueue (p : Part) (k : Nat) (c : EccWord) : (setDword p k c).sp.dQueue = p.sp.dQueue := rfl
@[simp] theorem setDword_sp_iQueue (p : Part) (k : Nat) (c : EccWord) : (setDword p k c).sp.iQueue = p.sp.iQueue := rfl
@[simp] theorem setDword_sp_dUsed (p : Part) (k : Nat) (c : EccWord) : (setDword p k c).sp.dUsed = p.sp.dUsed := rfl
@[simp] theorem setDword_sp_iUsed (p : Part) (k : Nat) (c : EccWord) : (setDword p k c).sp.iUsed = p.sp.iUsed := rfl
@[simp] theorem setDword_sp_dFixed (p : Part) (k : Nat) (c : EccWord) : (setDword p k c).sp.dFixed = p.sp.dFixed := rfl
@[simp] theorem setDword_sp_iFixed (p : Part) (k : Nat) (c : EccWord) : (setDword p k c).sp.iFixed = p.sp.iFixed := rfl
@[simp] theorem setDword_sp_tQueue (p : Part) (k : Nat) (c : EccWord) : (setDword p k c).sp.tQueue = p.sp.tQueue := rfl
@[simp] theorem setIword_sp_dmem (p : Part) (k : Nat) (c : EccWord) : (setIword p k c).sp.dmem = p.sp.dmem := rfl
@[simp] theorem setIword_sp_table (p : Part) (k : Nat) (c : EccWord) : (setIword p k c).sp.table = p.sp.table := rfl
@[simp] theorem setIword_sp_pend (p : Part) (k : Nat) (c : EccWord) : (setIword p k c).sp.pend = p.sp.pend := rfl
@[simp] theorem setIword_sp_bus (p : Part) (k : Nat) (c : EccWord) : (setIword p k c).sp.bus = p.sp.bus := rfl
@[simp] theorem setIword_sp_tr (p : Part) (k : Nat) (c : EccWord) : (setIword p k c).sp.tr = p.sp.tr := rfl
@[simp] theorem setIword_sp_lastStep (p : Part) (k : Nat) (c : EccWord) : (setIword p k c).sp.lastStep = p.sp.lastStep := rfl
@[simp] theorem setIword_sp_suppressed (p : Part) (k : Nat) (c : EccWord) : (setIword p k c).sp.suppressed = p.sp.suppressed := rfl
@[simp] theorem setIword_sp_tableStep (p : Part) (k : Nat) (c : EccWord) : (setIword p k c).sp.tableStep = p.sp.tableStep := rfl
@[simp] theorem setIword_sp_dQueue (p : Part) (k : Nat) (c : EccWord) : (setIword p k c).sp.dQueue = p.sp.dQueue := rfl
@[simp] theorem setIword_sp_iQueue (p : Part) (k : Nat) (c : EccWord) : (setIword p k c).sp.iQueue = p.sp.iQueue := rfl
@[simp] theorem setIword_sp_dUsed (p : Part) (k : Nat) (c : EccWord) : (setIword p k c).sp.dUsed = p.sp.dUsed := rfl
@[simp] theorem setIword_sp_iUsed (p : Part) (k : Nat) (c : EccWord) : (setIword p k c).sp.iUsed = p.sp.iUsed := rfl
@[simp] theorem setIword_sp_dFixed (p : Part) (k : Nat) (c : EccWord) : (setIword p k c).sp.dFixed = p.sp.dFixed := rfl
@[simp] theorem setIword_sp_iFixed (p : Part) (k : Nat) (c : EccWord) : (setIword p k c).sp.iFixed = p.sp.iFixed := rfl
@[simp] theorem setIword_sp_tQueue (p : Part) (k : Nat) (c : EccWord) : (setIword p k c).sp.tQueue = p.sp.tQueue := rfl
@[simp] theorem setTword_sp_imem (p : Part) (k : Nat) (c : EccWord) : (setTword p k c).sp.imem = p.sp.imem := rfl
@[simp] theorem setTword_sp_dmem (p : Part) (k : Nat) (c : EccWord) : (setTword p k c).sp.dmem = p.sp.dmem := rfl
@[simp] theorem setTword_sp_pend (p : Part) (k : Nat) (c : EccWord) : (setTword p k c).sp.pend = p.sp.pend := rfl
@[simp] theorem setTword_sp_bus (p : Part) (k : Nat) (c : EccWord) : (setTword p k c).sp.bus = p.sp.bus := rfl
@[simp] theorem setTword_sp_tr (p : Part) (k : Nat) (c : EccWord) : (setTword p k c).sp.tr = p.sp.tr := rfl
@[simp] theorem setTword_sp_lastStep (p : Part) (k : Nat) (c : EccWord) : (setTword p k c).sp.lastStep = p.sp.lastStep := rfl
@[simp] theorem setTword_sp_suppressed (p : Part) (k : Nat) (c : EccWord) : (setTword p k c).sp.suppressed = p.sp.suppressed := rfl
@[simp] theorem setTword_sp_tableStep (p : Part) (k : Nat) (c : EccWord) : (setTword p k c).sp.tableStep = p.sp.tableStep := rfl
@[simp] theorem setTword_sp_dQueue (p : Part) (k : Nat) (c : EccWord) : (setTword p k c).sp.dQueue = p.sp.dQueue := rfl
@[simp] theorem setTword_sp_iQueue (p : Part) (k : Nat) (c : EccWord) : (setTword p k c).sp.iQueue = p.sp.iQueue := rfl
@[simp] theorem setTword_sp_dUsed (p : Part) (k : Nat) (c : EccWord) : (setTword p k c).sp.dUsed = p.sp.dUsed := rfl
@[simp] theorem setTword_sp_iUsed (p : Part) (k : Nat) (c : EccWord) : (setTword p k c).sp.iUsed = p.sp.iUsed := rfl
@[simp] theorem setTword_sp_dFixed (p : Part) (k : Nat) (c : EccWord) : (setTword p k c).sp.dFixed = p.sp.dFixed := rfl
@[simp] theorem setTword_sp_iFixed (p : Part) (k : Nat) (c : EccWord) : (setTword p k c).sp.iFixed = p.sp.iFixed := rfl
@[simp] theorem setTword_sp_tQueue (p : Part) (k : Nat) (c : EccWord) : (setTword p k c).sp.tQueue = p.sp.tQueue := rfl
@[simp] theorem mapPage_his_handed (p : Part) (k : Nat) (f : HPage → HPage) : (mapPage p k f).his.handed = p.his.handed := rfl
@[simp] theorem mapPage_his_nextPage (p : Part) (k : Nat) (f : HPage → HPage) : (mapPage p k f).his.nextPage = p.his.nextPage := rfl
@[simp] theorem mapPage_his_frame (p : Part) (k : Nat) (f : HPage → HPage) : (mapPage p k f).his.frame = p.his.frame := rfl
@[simp] theorem mapPage_his_freed (p : Part) (k : Nat) (f : HPage → HPage) : (mapPage p k f).his.freed = p.his.freed := rfl
@[simp] theorem mapPage_his_fresh (p : Part) (k : Nat) (f : HPage → HPage) : (mapPage p k f).his.fresh = p.his.fresh := rfl
@[simp] theorem mapPage_his_lowSeen (p : Part) (k : Nat) (f : HPage → HPage) : (mapPage p k f).his.lowSeen = p.his.lowSeen := rfl
@[simp] theorem mapPage_his_accepts (p : Part) (k : Nat) (f : HPage → HPage) : (mapPage p k f).his.accepts = p.his.accepts := rfl
@[simp] theorem mapPage_his_nextAccept (p : Part) (k : Nat) (f : HPage → HPage) : (mapPage p k f).his.nextAccept = p.his.nextAccept := rfl
@[simp] theorem mapPage_his_fullSeen (p : Part) (k : Nat) (f : HPage → HPage) : (mapPage p k f).his.fullSeen = p.his.fullSeen := rfl
@[simp] theorem mapPage_his_takesBlank (p : Part) (k : Nat) (f : HPage → HPage) : (mapPage p k f).his.takesBlank = p.his.takesBlank := rfl
@[simp] theorem mapPage_his_takesExt (p : Part) (k : Nat) (f : HPage → HPage) : (mapPage p k f).his.takesExt = p.his.takesExt := rfl
@[simp] theorem mapPage_his_lastEvt (p : Part) (k : Nat) (f : HPage → HPage) : (mapPage p k f).his.lastEvt = p.his.lastEvt := rfl

/-! ### Reading back -/

theorem rxLane_setRx (p : Part) (n k : Nat) (l : RxLane) (h : smapWf (fun _ => RxLane.init) p.lanes.rx = true) :
    rxLane (setRx p n l) k = if k = n then l else rxLane p k := by
  simp only [rxLane, setRx]
  exact smapGet_set n k l h

theorem txLane_setTx (p : Part) (n k : Nat) (l : TxLane) (h : smapWf (fun _ => TxLane.init) p.lanes.tx = true) :
    txLane (setTx p n l) k = if k = n then l else txLane p k := by
  simp only [txLane, setTx]
  exact smapGet_set n k l h

@[simp] theorem rxLane_setTx (p : Part) (n k : Nat) (l : TxLane) : rxLane (setTx p n l) k = rxLane p k := rfl
@[simp] theorem txLane_setRx (p : Part) (n k : Nat) (l : RxLane) : txLane (setRx p n l) k = txLane p k := rfl

end Sys2Proof.Machine
end

