-- ==== Sys2Proof/Safety.lean ====
section
/-!
DEFINITION. What counts as a safe run: every step answers a next state. The machine has no stop, so a step is safe
whatever waits in the queue.
-/
namespace Sys2Proof

/-- A step that answers a next state. -/
def safeStep (s : Machine.State) : Prop := ∃ t, Machine.step s = .next t

/-- A run of `k` steps that meets no fault and no refusal. -/
def safeRun (k : Nat) (s : Machine.State) : Prop := ∃ t, core.run k s = .next t

end Sys2Proof
end

