-- ==== Sys2Proof/WellFormed.lean ====
section
/-!
DEFINITION. Well-formed commands: the sender's contract for the operands that the types do not bound. No meaning rests
on it; an ill-formed command runs too.
-/
namespace Sys2Proof

/-- A register offset is a multiple of 4 (R9). -/
def aligned (n : Nat) : Bool := n % 4 == 0

/-- A link is down, or up with a width of 1, 2, 4, 8 or 16 lanes (R369). -/
def linkOk (rate width : Nat) : Bool :=
  if rate = 0 then width == 0 else [1, 2, 4, 8, 16].contains width

/-- A column and a row of the grid (R27). -/
def gridOk (col row : Nat) : Bool := decide (col < 32) && decide (row < 32)

/-- A spindle of the grid and an execute step, 8 or more (R27, R29). -/
def siteOk (col row idx step : Nat) : Bool := gridOk col row && decide (idx < 64) && decide (8 ≤ step)

/-- A segment: its header, its payload in whole words of 8 bytes, and its trailer (R214). -/
def segOk (beats : List (BitVec 16)) : Bool := decide (16 ≤ beats.length) && beats.length % 4 == 0

/-- A command row carries a descriptor of its opcode (R380). -/
def opIs (h : Hdr) (op : Nat) : Bool := h.op == op

/-- A descriptor of an opcode, and the bytes that it names at their length (R380). -/
def withBytes (h : Hdr) (op off size : Nat) (b : List Byte) : Bool := opIs h op && b.length == h.par off size

/-- LINK_CTRL with an action (R249, R380). -/
def linkIs (h : Hdr) (action : Nat) : Bool := opIs h 0x10 && h.par 0x0B 1 == action

/-- TRACE_CTRL with an action (R317, R380). -/
def traceIs (h : Hdr) (action : Nat) : Bool := opIs h 0x28 && h.traceAction == action

/-- An Ethernet frame from its destination address to its FCS (R360). -/
def frameOk (b : List Byte) : Bool := decide (64 ≤ b.length)

/-- The well-formed commands. -/
def Instr.wf : Instr → Bool
  | .powerOn _ _ => true
  | .sysRstNLow => true
  | .sysRstNRelease _ => true
  | .perstNFall _ => true
  | .perstNRise => true
  | .hotReset => true
  | .busMasterEnable => true
  | .pcieLinkChange rate width => linkOk rate.val width.val
  | .aerError _ _ => true
  | .pllLock => true
  | .otpRead _ _ _ _ => true
  | .imageFetchEnd _ => true
  | .hstBootGo => true
  | .firmwareStart => true
  | .selfTestEnd _ _ => true
  | .hbmTrainingEnd _ _ => true
  | .sealingInitialisationEnd _ _ => true
  | .d3hotEntry => true
  | .d0Return => true
  | .wake _ => true
  | .registerWrite off _ => aligned off.toNat
  | .lowWordRead off _ => aligned off.toNat
  | .readClear off _ => aligned off.toNat
  | .timNowFracRead => true
  | .debugWindowRead off => aligned off.toNat
  | .i2cAccess _ written reads _ => if reads then written.length == 4 else written.length == 8 || written.length == 9
  | .sealEncEnWrite _ => true
  | .sealRegionWrite _ _ _ => true
  | .svnModeWrite _ => true
  | .svnModeSwitch => true
  | .routeWrite _ _ _ => true
  | .svnErecClr => true
  | .sysOvrEnWrite _ => true
  | .ringSetupWrite off _ => aligned off.toNat
  | .msixUnmask _ _ _ => true
  | .poll => true
  | .pollBatchReturn b => b.rings.all (fun r => decide (r.descs.length ≤ 4))
  | .nopCommand h => opIs h 0x00
  | .query h => opIs h 0x01
  | .countersRead h => opIs h 0x50 && h.par 9 1 == 0
  | .countersReadClear h => opIs h 0x50 && h.par 9 1 == 1
  | .loadBlank h img => withBytes h 0x02 0x10 8 img
  | .loadRegion h img => withBytes h 0x03 0x10 8 img
  | .loadCheck => true
  | .loadWriteEnd => true
  | .enterLoading => true
  | .enterHeld _ => true
  | .regionRelease => true
  | .admitFabric h => opIs h 0x04
  | .start h => opIs h 0x05
  | .enterRunning => true
  | .stop h => opIs h 0x06
  | .enterStopped => true
  | .halt h => opIs h 0x07
  | .haltN => true
  | .haltTakesEffect => true
  | .tickBoundary _ _ => true
  | .nop col row idx step => siteOk col row idx step
  | .bool3 col row idx step => siteOk col row idx step
  | .move col row idx step => siteOk col row idx step
  | .sel col row idx step => siteOk col row idx step
  | .add col row idx step => siteOk col row idx step
  | .sub col row idx step => siteOk col row idx step
  | .cmp col row idx step => siteOk col row idx step
  | .min col row idx step => siteOk col row idx step
  | .max col row idx step => siteOk col row idx step
  | .cmpx col row idx step => siteOk col row idx step
  | .shf col row idx step => siteOk col row idx step
  | .rot col row idx step => siteOk col row idx step
  | .popc col row idx step => siteOk col row idx step
  | .prio col row idx step => siteOk col row idx step
  | .ldi col row idx step => siteOk col row idx step
  | .send col row idx step => siteOk col row idx step
  | .recv col row idx step => siteOk col row idx step
  | .bpub col row idx step => siteOk col row idx step
  | .tblr col row idx step => siteOk col row idx step
  | .tblw col row idx step => siteOk col row idx step
  | .pin col row idx step => siteOk col row idx step
  | .pout col row idx step => siteOk col row idx step
  | .hist col row idx step => siteOk col row idx step
  | .probe col row idx step => siteOk col row idx step
  | .accept col row idx step => siteOk col row idx step
  | .uevt col row idx step => siteOk col row idx step
  | .stat col row idx step => siteOk col row idx step
  | .grainSlot col row step => gridOk col row && decide (1 ≤ step)
  | .tableWrite h list => opIs h 0x51 && list.length == 16 * h.par 0x18 2
  | .tableWriteApply => true
  | .startSegment beats => segOk beats
  | .dataSegment beats => segOk beats
  | .endSegment beats => segOk beats
  | .abortSegment beats => segOk beats
  | .cfgSelNHigh => true
  | .cfgSelNLow => true
  | .frameTransmit _ => true
  | .receiveFrame _ _ _ _ _ => true
  | .lossFramesExpiry _ => true
  | .signalLoss _ => true
  | .forwardedClockLoss _ => true
  | .trackingLimit _ => true
  | .forwardedClockDetect _ _ => true
  | .samplingPointCentred _ => true
  | .bitLock _ => true
  | .trainTimeout _ => true
  | .lockTimeout _ => true
  | .exchangeTimeout _ => true
  | .attemptsLimit _ => true
  | .capabilityMessage _ => true
  | .timeMessage _ => true
  | .receiverDetection _ => true
  | .tp1TimeEnd _ => true
  | .tp2TimeEnd _ => true
  | .txEnterActive _ => true
  | .lineClockPllLoss _ => true
  | .linkRetrain h => linkIs h 0
  | .linkTakeDown h => linkIs h 1
  | .linkBringUp h => linkIs h 2
  | .linkClear h => linkIs h 3
  | .historyWrite => true
  | .spillEnd _ => true
  | .releaseTransferEnd _ => true
  | .retentionExpiry _ => true
  | .acceptIn => true
  | .acceptCommand h => opIs h 0x18
  | .windowComplete => true
  | .instanceStart => true
  | .taskDispatch => true
  | .taskComplete _ _ _ => true
  | .taskTimeout _ => true
  | .gather _ => true
  | .zsupp _ => true
  | .pack _ => true
  | .checksum _ => true
  | .sendRing _ => true
  | .sendLane _ => true
  | .release _ => true
  | .ringWaitTimeout _ => true
  | .rdoGraphLoad h img => withBytes h 0x19 0x10 4 img
  | .rdoPolicy h => opIs h 0x1A
  | .captureArm h => opIs h 0x20
  | .captureDisarm h => opIs h 0x21
  | .decisionInstant => true
  | .captureRearm _ => true
  | .segmentDelivery => true
  | .deliveryWaitTimeout => true
  | .tbusDrive => true
  | .tbusSample _ => true
  | .chuteTake msgs => msgs.all (fun m => decide (4 ≤ m.2.length) && decide (m.2.length ≤ 1024))
  | .counterShaving _ _ _ => true
  | .chunkTimeout => true
  | .traceStopInstant => true
  | .sinkFullTimeout => true
  | .traceStart h => traceIs h 0
  | .traceStop h => traceIs h 1
  | .traceTrigger h => traceIs h 2
  | .setSources h => traceIs h 3
  | .drain h => traceIs h 4
  | .drainEnd => true
  | .auth h buf => traceIs h 5 && buf.length == 96
  | .sealedRead _ _ _ _ => true
  | .sealedWrite _ _ _ _ => true
  | .rekey h _ => opIs h 0x38
  | .rekeyAutoStart _ _ => true
  | .rekeyDeferredStart _ => true
  | .rekeyWalkEnd => true
  | .identityRetired _ => true
  | .timeSet h => opIs h 0x30
  | .timeAdj h => opIs h 0x31
  | .slewEnd => true
  | .timeIncrement h => opIs h 0x32
  | .incrementApply => true
  | .holdoverTimeout => true
  | .ppsInEdge _ => true
  | .ppsOutPulse => true
  | .timeAlarm => true
  | .mgmtFrame _ frame _ _ => frameOk frame
  | .mgmtLinkChange _ _ => true
  | .ptpSync frame _ => frameOk frame
  | .ptpFollowUp frame => frameOk frame
  | .ptpAnnounce frame => frameOk frame
  | .ptpDelayResp frame => frameOk frame
  | .delayReqSend _ => true
  | .announceTimeout => true
  | .eventRingWrite => true
  | .moderationTimeout _ => true
  | .completionBlockTimeout _ => true
  | .ringFault _ _ => true
  | .serviceRequest flits _ _ _ => decide (2 ≤ flits.length) && decide (flits.length ≤ 66)
  | .responseArrival _ _ _ => true
  | .errorNotice => true
  | .requestTimeout _ _ => true
  | .monConvert h => opIs h 0x40
  | .monitorScan => true
  | .conversionEnd _ => true
  | .openWireCheck _ => true
  | .monitorCalibration => true
  | .thermalComparator _ _ => true
  | .fwUpdate h img => withBytes h 0x58 0x10 4 img.bytes
  | .otpWriteRecord h payload _ => withBytes h 0x48 0x0A 2 payload
  | .flashWriteEnd _ => true

end Sys2Proof
end

