-- ==== Sys2Proof/Tests/Slice0.lean ====
section
/-!
SUPPORT. Tests. Each theorem witness_X, or the theorems witness_X_part together, show for every case of the statement
Obligations.X a state and operands that meet its premises. The theorems test_ compare words and results with the spec's
own tables and worked examples, and show ill-formed commands refused.
-/
open Sys2Proof Sys2Proof.Machine
namespace Sys2Proof.Tests
set_option Elab.async false

/-! ### Witnesses: boot, registers and the host interface -/

/-- A header of ring 0, with an opcode, TAG 0x1234 and values at byte offsets. -/
def hdr (op : Nat) (l : List (Nat × Nat)) : Hdr :=
  ⟨0, BitVec.ofNat 512 (l.foldl (fun n e => n + e.2 * 2 ^ (8 * e.1)) (op + 0x12340000))⟩

/-- A part that has started: awake, stage 7, READY, every die and stack present, the counter running, DMA allowed. -/
def up : Part :=
  { Part.init with
    boot := { BootState.init with rstLow := false, perstLow := false, ps := .ready, stage := 7, dies := 15
                                  stack0 := .ready, stack1 := .ready
                                  tests := [(0, 2), (1, 2), (2, 2), (3, 2), (4, 2), (5, 2), (6, 2), (7, 2), (8, 2), (9, 2)] }
    tim := { TimeState.init with run := true }
    host := { HostState.init with endpointUp := true, linkUp := true, pci := { PciConfig.init with busMaster := true } } }

/-- A state of a part with no command waiting. -/
def at1 (p : Part) : State := ⟨p, []⟩

/-- The part in which a command is picked up and next to begin. -/
def picked (h : Hdr) (p : Part) : Part := { p with host := { p.host with inflight := [⟨h, false, false, ⟨0, false, false, [], false⟩⟩] } }

/-- The state in which a command is picked up and next to begin. -/
def with1 (h : Hdr) (p : Part) : State := at1 (picked h p)

/-- A part with fields of single registers set. -/
def fields (p : Part) (l : List (FieldRow × Nat × Nat)) : Part := l.foldl (fun p e => setFldI p e.1 e.2.1 e.2.2) p

/-- A part with window 0 over 1 MiB from 1 MiB, for reads and writes. -/
def windowed (p : Part) : Part :=
  fields p [(HIF_WIN_ADDR_LO, 0, 0x100), (HIF_WIN_PAGES, 0, 0x100), (HIF_WIN_RD, 0, 1), (HIF_WIN_WR, 0, 1)]

/-- A part with command ring 0, completion ring 0 and the event ring enabled, 16 entries each. -/
def ringed (p : Part) : Part :=
  fields (windowed p) [(HIF_CMD_EN, 0, 1), (HIF_CMD_LOG2, 0, 4), (HIF_CMD_ADDR_LO, 0, 0x100), (HIF_CPL_EN, 0, 1), (HIF_CPL_LOG2, 0, 4),
    (HIF_CPL_ADDR_LO, 0, 0x101), (HIF_EVT_EN, 0, 1), (HIF_EVT_LOG2, 0, 4), (HIF_EVT_ADDR_LO, 0, 0x102)]

/-- A part that is locked (R11). -/
def shut : Part := fields up [(FAB_LOCKED, 0, 1)]

/-- A part in a part halt. -/
def halted : Part := { up with tk := { up.tk with halt := some ⟨true, .sw⟩ } }

/-- A firmware image of 192 bytes, FW_VER `ver`, for stepping 0x11. -/
def fwBytes (ver : Nat) : FwBytes :=
  ⟨leBytes 4 0x48574654 ++ leBytes 4 ver ++ leBytes 2 1 ++ leBytes 1 1 ++ leBytes 1 0 ++ leBytes 4 192 ++ leBytes 1 0x11 ++
    List.replicate 175 0, true⟩

/-- What the boot ROM keeps of it. -/
def fwImage (ver : Nat) : FwImage := ⟨ver, 1, 192, [0x11], [], none, [], true⟩

/-- A boot state at a stage. -/
def booting (k : Nat) : Part := { up with boot := { up.boot with ps := .boot, stage := k, tests := [] } }

/-- A stage 3 in which the boot ROM waits for a host image, with a sound one in window 0. -/
def awaiting : Part :=
  fields (windowed (booting 3)) [(HST_WAIT_HOST, 0, 1), (HST_BOOT_ADDR_L, 0, 0x100000), (HST_BOOT_BYTES, 0, 192)]

theorem witness_StepRunsFrontCommand : (step { at1 up with pending := [.powerOn true 0, .haltN] }) =
    exec (.powerOn true 0) { at1 up with pending := [.haltN] } := rfl

theorem witness_CommandsKeepTheQueueAndIdleStepsPassTime :
    (at1 up).pending = [] ∧ awake (at1 up) ∧ (at1 up).part.tim.run = true ∧ State.reset.pending = [] ∧
    State.reset.part.boot.rstLow = true ∧ { up with tim := .init }.tim.run = false := by decide

theorem witness_ResetReturnsEverything : State.reset.part.boot.rstLow = true ∧ Instr.haltN ≠ .sysRstNLow ∧
    up.boot.rstLow = false ∧ up.boot.perstLow = false := by decide

theorem witness_BootStagesOneToThree :
    State.reset.part.boot.rstLow = true ∧ State.reset.part.boot.perstLow = true ∧
    (let s := at1 (booting 1); awake s ∧ s.part.boot.stage = 1 ∧ s.part.boot.stage ≠ 3) ∧
    (let s := at1 (booting 3)
     awake s ∧ s.part.boot.stage = 3 ∧ s.part.boot.stage ≠ 1 ∧ fld s.part HST_WAIT_HOST = 0 ∧ s.part.boot.hostFetch = false ∧
     bootTakes s.part (some (fwBytes 5)) = some (fwImage 5) ∧ bootTakes s.part (some (fwBytes 6)) = some (fwImage 6) ∧
     bootTakes s.part none = none) ∧
    (let s := at1 { booting 3 with boot := { (booting 3).boot with hostFetch := true } }
     awake s ∧ s.part.boot.stage = 3 ∧ s.part.boot.hostFetch = true ∧
     bootTakes s.part (some (fwBytes 5)) = some (fwImage 5) ∧ bootTakes s.part (some ⟨[], true⟩) = none) ∧
    (awake (at1 awaiting) ∧ fld awaiting HST_WAIT_HOST = 1 ∧ dmaOk awaiting = true ∧
     inWindow awaiting .read (fld64 awaiting HST_BOOT_ADDR_L HST_BOOT_ADDR_H) (fld awaiting HST_BOOT_BYTES) = true) ∧
    (let s := at1 (fields awaiting [(HST_BOOT_ADDR_H, 0, 1)])
     awake s ∧ fld s.part HST_WAIT_HOST = 1 ∧ dmaOk s.part = true ∧ canon s.part ∧
     inWindow s.part .read (fld64 s.part HST_BOOT_ADDR_L HST_BOOT_ADDR_H) (fld s.part HST_BOOT_BYTES) = false) ∧
    (let s := at1 { awaiting with host := { awaiting.host with linkUp := false } }
     awake s ∧ fld s.part HST_WAIT_HOST = 1 ∧ dmaOk s.part = false) := by decide +kernel

theorem witness_OtpReadSetsResetValues :
    let s := at1 (booting 2); awake s ∧ s.part.boot.stage = 2 ∧ canon s.part := by decide +kernel

theorem witness_FirmwareStartAndRestrictedOperation :
    (let s := at1 { booting 4 with boot := { (booting 4).boot with fw := some (fwImage 5) } }
     awake s ∧ canon s.part ∧ s.part.boot.stage = 4 ∧ s.part.boot.fw = some (fwImage 5) ∧ diePowered s.part 3 = true ∧
     unitPowered s.part 9 = true ∧ unitPowered s.part 10 = true ∧ unitPowered s.part 13 = true ∧
     versionRules (minFirmware s.part) (fwImage 5) = none) ∧
    (let f : FwImage := { fwImage 5 with steppings := [0x10] }
     let s := at1 { booting 4 with boot := { (booting 4).boot with fw := some f } }
     awake s ∧ canon s.part ∧ s.part.boot.stage = 4 ∧ s.part.boot.fw = some f ∧ overrideOn s.part = false ∧
     versionRules (minFirmware s.part) f = some (2, 0)) := by decide +kernel

theorem witness_SelfTestsAndStacksEndTheBoot :
    (∀ i ∈ [0, 4, 7], let s := at1 (setTest (booting 5) i 1)
      awake s ∧ s.part.boot.d3Wanted = false ∧ testOf s.part i = 1 ∧ s.part.svn.waiting = []) ∧
    (let s := at1 { booting 5 with boot := { (booting 5).boot with stack0 := .training } }
     awake s ∧ s.part.boot.d3Wanted = false ∧ stackOf s.part 0 = .training) ∧
    (let s := at1 { booting 6 with boot := { (booting 6).boot with stack1 := .initialising } }
     awake s ∧ canon s.part ∧ s.part.boot.d3Wanted = false ∧ s.part.boot.ps = .boot ∧ s.part.boot.stage = 6 ∧
     testsEnded s.part = true ∧ s.part.sm.drawn = none ∧ s.part.sm.drawn.getD true = true ∧
     stackOf s.part 1 = .initialising ∧ stackPending (stackOf s.part 0) = false) ∧
    (let s := at1 { booting 6 with boot := { (booting 6).boot with stack1 := .initialising }
                                   sm := { SealState.init with drawn := some false } }
     stackOf s.part 1 = .initialising ∧ s.part.sm.drawn.getD true = false) := by decide +kernel

theorem witness_DStatesAndWakes :
    (let s := at1 (booting 5); awake s ∧ s.part.host.endpointUp = true ∧ inD3 s.part = false ∧ s.part.boot.ps = .boot) ∧
    (let s := at1 { up with tk := { up.tk with fab := .running }, boot := { up.boot with ps := .operating } }
     awake s ∧ s.part.host.endpointUp = true ∧ inD3 s.part = false ∧ s.part.boot.ps ≠ .boot ∧ running s.part = true ∧
     s.part.tk.stopAt = none) ∧
    (let s := at1 up
     awake s ∧ canon s.part ∧ s.part.host.endpointUp = true ∧ inD3 s.part = false ∧ s.part.boot.ps = .ready ∧
     running s.part = false) ∧
    (let s := at1 (fields up [(HIF_DSTATE, 0, 3), (LNK_RX_EN, 15, 1), (HIF_WAKE_RXG, 0, 0x8000), (HIF_WAKE_ACC, 0, 1),
       (HIF_WAKE_ALARM, 0, 1), (HIF_WAKE_MON, 0, 1)])
     awake s ∧ canon s.part ∧ inD3 s.part = true ∧ s.part.svn.waiting = [] ∧ fld s.part HIF_PME_PENDING = 0 ∧
     fldI s.part LNK_RX_EN 15 = 1 ∧ (fld s.part HIF_WAKE_RXG).testBit 15 = true ∧ fld s.part HIF_WAKE_ACC = 1 ∧
     fld s.part HIF_WAKE_ALARM = 1 ∧ fld s.part HIF_WAKE_MON = 1) ∧
    ((fld up HIF_WAKE_RXG).testBit 0 = false ∧ fld up HIF_WAKE_ACC = 0 ∧ fld up HIF_WAKE_ALARM = 0 ∧ fld up HIF_WAKE_MON = 0) := by
  decide +kernel

theorem witness_VersionOverrideAndFirmwareUpdate :
    (let m := otpProgram factoryOtp (otpArea 4).1 (otpRecord 4 0 [1, 0, 0, 0])
     let s := at1 { up with boot := { up.boot with otp := m, otpRead := m } }
     awake s ∧ canon s.part ∧ locked s.part = false ∧ (otpField s.part.boot.otpRead 4 0 4 0).testBit 0 = true) ∧
    (locked shut = true ∧ (otpField shut.boot.otpRead 4 0 4 0).testBit 0 = false) ∧
    (let fl : Flash := ⟨2 ^ 20, none, none⟩
     let h := hdr 0x58 [(0x08, 0x100000), (0x10, 192)]
     let s := with1 h { windowed up with boot := { up.boot with flash := some fl } }
     awake s ∧ commandRuns s.part h 0x58 ∧ s.part.boot.flash = some fl ∧ s.part.boot.update = none ∧ dmaOk s.part = true ∧
     inWindow s.part .read (h.par 0x08 8) (h.par 0x10 4) = true ∧ parseFw (fwBytes 5) = some (fwImage 5) ∧
     (fwImage 5).len = h.par 0x10 4 ∧ (fwImage 5).len ≤ fl.slotBytes ∧ (fwImage 5).len ≤ 2 ^ 26 ∧
     versionRules (minFirmware s.part) (fwImage 5) = none ∧
     (let f : FwImage := { fwImage 5 with sigOk := false }
      parseFw { fwBytes 5 with sigOk := false } = some f ∧ versionRules (minFirmware s.part) f = some (8, 1) ∧
      overrideOn s.part = false)) ∧
    (let h := hdr 0x58 []; let s := with1 h up; commandRuns s.part h 0x58 ∧ s.part.boot.flash = none) ∧
    (let fl : Flash := ⟨2 ^ 20, none, none⟩
     let s := at1 { up with boot := { up.boot with flash := some fl, update := some (hdr 0x58 [], fwImage 5) } }
     awake s ∧ s.part.boot.update = some (hdr 0x58 [], fwImage 5) ∧ s.part.boot.flash = some fl) := by decide +kernel

theorem witness_OtpWriteRecord :
    let h := hdr 0x48 [(0x08, 1), (0x0A, 8), (0x10, 0x1FFFF8)]
    let s := with1 h (windowed up)
    awake s ∧ commandRuns s.part h 0x48 ∧ running s.part = false ∧ h.par 0x08 2 = 1 ∧ h.par 0x0A 2 = (otpArea 1).2.1 ∧
    dmaOk s.part = true ∧ inWindow s.part .read (h.par 0x10 8) (h.par 0x0A 2) = true ∧
    otpPayloadBad s.part 1 [0xff, 0xff, 0xff, 0xff, 0x0f, 0, 0, 0] = false ∧
    otpUsed s.part.boot.otp 1 1 = false ∧ (∀ k < 1, otpUsed s.part.boot.otp 1 k = true) ∧
    otpBytesOk 1 1 (otpSlot (otpProgram s.part.boot.otp ((otpArea 1).1 + 1 * (otpArea 1).2.2.1)
      (otpRecord 1 1 [0xff, 0xff, 0xff, 0xff, 0x0f, 0, 0, 0])) 1 1) = true := by decide +kernel

/-- The address byte of the part on I²C. -/
def i2c58 : BitVec 7 := 0x58

theorem witness_RegisterReads :
    (let s := at1 up
     awake s ∧ canon s.part ∧ i2c58.toNat = i2cAddress s.part ∧ s.part.boot.ps ≠ .powerup ∧
     latched s.part HIF_LOST_COUNT.off = none ∧ HIF_LOST_COUNT.acc = .rc ∧ HIF_LOST_COUNT.off ≠ TIM_NOW_F.off ∧
     fieldsApart (rowsAt HIF_LOST_COUNT.off) ∧ isPairLow TIM_ALARM_S_L.off = true ∧ TIM_ALARM_S_L.off ≠ TIM_NOW_F.off ∧
     latched s.part TIM_ALARM_S_L.off = none ∧ fieldsApart (rowsAt TIM_ALARM_S_L.off) ∧
     regAt s.part TIM_NOW_N.off = 0 ∧ regAt s.part TIM_NOW_S_H.off = 0) ∧
    (let b : BlankInfo := ⟨1, 0, 0, 0, 0, 0, 0, 3, 0, [], Decl.none, [], []⟩
     let s := at1 { up with tk := { up.tk with fab := .stopped }, blank := some b, cols := [0, 9, 18, 27] }
     awake s ∧ latched s.part (0x2000000 + 0x100008) = none ∧ 64 * fld s.part FAB_DBG_PAGE_SEL + 0x100008 / 0x80000 = 2 ∧
     latched s.part (0x2000000 + 0x10000C) = none ∧ 64 * fld s.part FAB_DBG_PAGE_SEL + 0x10000C / 0x80000 = 2 ∧
     2 < 32 * blankCv s.part ∧ eccKind (windowWord s.part 2 8) ≠ .double) ∧
    (let s := at1 up; s.part.tk.fab ≠ .stopped ∧ s.part.tk.fab ≠ .halted ∧ latched s.part (0x2000000 + 8) = none) := by
  decide +kernel

theorem witness_HighWordLatch :
    let s := at1 up
    awake s ∧ TIM_ALARM_S_L.off < 0x1FFFFFC ∧ isPairLow TIM_ALARM_S_L.off = true ∧ TIM_ALARM_S_L.off ≠ TIM_NOW_F.off ∧
    TIM_ALARM_S_L.off + 4 ≠ TIM_NOW_F.off ∧ latched s.part TIM_ALARM_S_L.off = none ∧
    (BitVec.ofNat 26 TIM_ALARM_S_H.off).toNat = TIM_ALARM_S_L.off + 4 ∧
    smapWf (fun _ => (none : Option Nat)) s.part.hiLatch = true := by decide +kernel

theorem witness_UnlistedOffsets :
    let s := at1 up
    awake s ∧ canon s.part ∧ i2c58.toNat = i2cAddress s.part ∧ s.part.boot.ps ≠ .powerup ∧ rowsAt 0x1FFFFFC = [] ∧
    latched s.part 0x1FFFFFC = none := by decide +kernel

theorem witness_WriteAccessCodes :
    (let s := at1 up
     awake s ∧ canon s.part ∧ i2c58.toNat = i2cAddress s.part ∧ s.part.boot.ps ≠ .powerup ∧ locked s.part = false ∧
     plainReg MON_LO.off ∧ fieldsApart (rowsAt MON_LO.off) ∧ MON_LO.acc = .rw ∧
     plainReg MON_ALARM_H.off ∧ fieldsApart (rowsAt MON_ALARM_H.off) ∧ MON_ALARM_H.acc = .rw1c ∧
     plainReg MON_CAL_VALID.off ∧ fieldsApart (rowsAt MON_CAL_VALID.off) ∧ MON_CAL_VALID.acc = .ro) ∧
    (plainReg CFG_NACKS.off ∧ fieldsApart (rowsAt CFG_NACKS.off) ∧ CFG_NACKS.acc = .rc ∧
     actsOnWrite CFG_REL_LEAD.off = false ∧ MON_LO.off / 0x100000 = 14) := by decide +kernel

theorem witness_WriteAccessCodes_locked : (plainReg CFG_REL_LEAD.off ∧ fieldsApart (rowsAt CFG_REL_LEAD.off) ∧ CFG_REL_LEAD.acc = .rwl ∧
     CFG_REL_LEAD.admits 0 = false ∧ CFG_REL_LEAD.admits 255 = true ∧ awake (at1 shut) ∧ canon shut ∧ locked shut = true) := by decide +kernel

theorem witness_WriteAccessCodes_units :
    (let s := at1 up
     awake s ∧ canon s.part ∧ locked s.part = false ∧ natBits 0x4000 FAB_POL_PIN.lo 2 ≤ 1 ∧
     ¬ natBits 0x8000 FAB_POL_PIN.lo 2 ≤ 1 ∧ fld s.part TIM_MODE ≠ 1 % 4 ∧ fld s.part TIM_MODE ≠ 2 % 4) ∧
    (let s := at1 up
     (BitVec.ofNat 26 FAB_EPOCH_NSEC.off).toNat = FAB_EPOCH_NSEC.off ∧ ticksOn s.part = true ∧
     ∃ t : State, exec (.registerWrite (BitVec.ofNat 26 FAB_EPOCH_NSEC.off) 9) s = .next t ∧ epochE t.part ≠ epochE s.part) ∧
    (let s := at1 up
     ∀ off ∈ [LNK_RX_EN.at 15, LNK_TX_EN.at 15], (BitVec.ofNat 26 off).toNat = off ∧ rxEnabled s.part 120 = false ∧
       txEnabled s.part 120 = false ∧ (rxLane s.part 120).st = .down ∧ (txLane s.part 120).st = .down) ∧
    (let s := at1 (fields up [(LNK_RX_EN, 15, 1), (LNK_RX_LANE_EN, 15, 1), (LNK_TX_EN, 15, 1), (LNK_TX_LANE_EN, 15, 1)])
     awake s ∧ canon s.part ∧ rxEnabled s.part 120 = true ∧ txEnabled s.part 120 = true) := by
  refine ⟨by decide +kernel, ⟨by decide +kernel, by decide +kernel, ?_⟩, by decide +kernel, by decide +kernel⟩
  exact ⟨_, rfl, by decide +kernel⟩

theorem witness_LowWordWritesAreHeld :
    (let o := HST_BOOT_ADDR_L.off
     awake (at1 up) ∧ heldLow o = true ∧ rowsAt o ≠ [] ∧ setupReg o = false ∧ ¬ (0xa00100 ≤ o ∧ o < 0xa00200) ∧
     SVN_HOPS.hits o = false ∧ o ≠ SEAL_ENC_EN.off ∧ o ≠ SVN_MODE.off ∧ o ≠ SVN_EREC_CLR.off ∧ o ≠ SYS_OVR_EN.off ∧
     o ≠ HST_BOOT_GO_F.off ∧ o ≠ TIM_NOW_F.off) ∧
    (let s := at1 { up with loHeld := [(HST_BOOT_ADDR_L.off, some 0xFFFFFFFF)] }
     awake s ∧ canon s.part ∧ heldLow HST_BOOT_ADDR_L.off = true ∧ HST_BOOT_ADDR_H.off = HST_BOOT_ADDR_L.off + 4 ∧
     heldAt s.part HST_BOOT_ADDR_L.off = some 0xFFFFFFFF ∧ setupReg HST_BOOT_ADDR_L.off = false ∧
     smapWf (fun _ => (none : Option Nat)) s.part.loHeld = true) := by decide +kernel

theorem witness_LowWordWritesAreHeld_pairs :
    (let s := at1 { up with loHeld := [(TIM_ALARM_S_L.off, some 0)] }
     canon s.part ∧ heldLow TIM_ALARM_S_L.off = true ∧ TIM_ALARM_S_H.off = TIM_ALARM_S_L.off + 4 ∧
     heldAt s.part TIM_ALARM_S_L.off = some 0 ∧ setupReg TIM_ALARM_S_L.off = false ∧ alarmAt s.part ≤ s.part.now) ∧
    (∀ o ∈ [FAB_EPOCH_SEC_L.off, FAB_T_FRAC.off], let s := at1 { up with loHeld := [(o, some 1)] }
     canon s.part ∧ heldLow o = true ∧ heldAt s.part o = some 1 ∧ setupReg o = false ∧ ticksOn s.part = true ∧
     rowsAt (o + 4) ≠ []) ∧
    (let s := at1 { ringed up with loHeld := [(HIF_EVT_ADDR_LO.off, some 0x104000)] }
     awake s ∧ canon s.part ∧ locked s.part = false ∧ heldLow HIF_EVT_ADDR_LO.off = true ∧
     HIF_EVT_ADDR_HI.off = HIF_EVT_ADDR_LO.off + 4 ∧ heldAt s.part HIF_EVT_ADDR_LO.off = some 0x104000 ∧
     setupReg HIF_EVT_ADDR_LO.off = true ∧ setupReg HIF_EVT_ADDR_HI.off = true ∧
     setupFault (plainWrite s.part HIF_EVT_ADDR_HI.off 0) HIF_EVT_ADDR_HI.off = none) := by decide +kernel

theorem witness_SealAndRingSetupWrites :
    (let s := at1 up
     let q := setFldI (setFldI s.part SEAL_SIZE_MIB 0 43008) SEAL_INIT 0 0
     awake s ∧ canon s.part ∧ locked s.part = false ∧ rgnSize q 2 ≠ 0 ∧ (∃ j < 16, rgnClash q j 2 = true) ∧
     (let q := setFldI (setFldI s.part SEAL_SIZE_MIB 13 0) SEAL_INIT 13 0; rgnSize q 15 = 0) ∧
     (let q := setFldI (fields s.part [(SEAL_SIZE_MIB, 0, 1)]) SEAL_BASE_MIB 0 43008
      rgnSize q 2 ≠ 0 ∧ 43008 < rgnBase q 2 + rgnSize q 2) ∧
     (let q := setFldI (fields s.part [(SEAL_SIZE_MIB, 0, 1)]) SEAL_BASE_MIB 0 43007
      rgnBase q 2 + rgnSize q 2 = 43008 ∧ ∀ j < 16, rgnClash q j 2 = false) ∧
     fld s.part SEAL_ENC_FORCED = 0 ∧ s.part.tk.fab = .off ∧ loadInProgress s.part = false ∧
     fld s.part SEAL_ENC_EN = (if false then 1 else 0) ∧ fld s.part SEAL_ENC_EN ≠ (if true then 1 else 0) ∧
     s.part.boot.stack0 = .ready ∧ s.part.boot.stack1 = .ready ∧ s.part.sm.walk = none) ∧
    (let h := hdr 0x38 [(8, 15)]
     let s := with1 h { up with sm := { SealState.init with walk := some (15, some h) } }
     s.part.sm.walk = some (15, some h) ∧ fld s.part SEAL_ENC_EN ≠ (if true then 1 else 0)) ∧
    (awake (at1 shut) ∧ locked shut = true) ∧
    (let s := at1 (fields up [(SEAL_ENC_FORCED, 0, 1)]); awake s ∧ fld s.part SEAL_ENC_FORCED = 1) ∧
    (let s := at1 { up with tk := { up.tk with fab := .loaded } }; fld s.part SEAL_ENC_FORCED = 0 ∧ s.part.tk.fab ≠ .off) ∧
    (let s := at1 (ringed up)
     let o := HIF_EVT_EN.off
     awake s ∧ canon s.part ∧ locked s.part = false ∧ setupReg o = true ∧ rowsAt o ≠ [] ∧ heldLow o = false ∧
     setupFault (plainWrite s.part o 9) o = none ∧ (setupFault (plainWrite s.part o 33) o).isSome = true) ∧
    (let s := at1 (fields (ringed up) [(HIF_EVT_EN, 0, 0)])
     let o := HIF_EVT_EN.off
     setupFault (plainWrite s.part o 9) o = none ∧ ringEn (plainWrite s.part o 9) .evt = true ∧ ringEn s.part .evt = false ∧
     smapWf (fun _ => (0 : Nat)) s.part.host.partCount = true ∧ smapWf (fun _ => (0 : Nat)) s.part.host.hostCount = true ∧
     s.part.host.heldCpl = []) := by decide +kernel

/-! ### Witnesses: the service network -/

/-- A request packet without data or upset bits. -/
def pkt (h : NetHeader) (urgent : Bool) : NetPacket := ⟨h, packetFlits h (dataFlits 64 (List.replicate (16 * h.len) 7)), urgent, [1, 2, 3, 4], 0⟩

/-- A packet whose last flit has two upset bits. -/
def poisonedPkt (h : NetHeader) : NetPacket :=
  let q := pkt h false
  { q with flits := q.flits.dropLast ++ [{ q.flits.getLastD (flitOf 0) with flips := 3 }] }

/-- Do the flits of a packet spell a request that an NI accepts, which arrives at its target as `cond` says? -/
def arrives (p : Part) (pk : NetPacket) (cond : Part → NetPacket → Bool) : Bool :=
  readPacket pk.flits == some pk.head && requestOk pk.head && !heldBefore p pk.head &&
  match netSettle (sendRequest p pk) with
  | (q, [g]) => cond (bumpFld q SVN_CE_N (flitErrors g.flits)) g
  | _ => false

/-- A request that arrives, fails for no reason and finds its target free. -/
def plainly (p : Part) (pk : NetPacket) (cond : Part → NetPacket → Bool) : Bool :=
  arrives p pk (fun p g => !g.flits.any flitPoisoned && targetDecodes g && !targetHalted p g.head && !targetBusy p g.head &&
    !targetTesting p g.head && g.head.op == pk.head.op && g.head.dst == pk.head.dst && cond p g)

/-- A control request of the host for a register of HIF, a data request of core 31 for host memory, of it for core 0, and
one for sealed memory. -/
def ctl (op : Nat) : NetHeader := ⟨0, 0, 8, op, 4095, if op = 0 then 0 else 1, 0, 0x100000, 0⟩
def toHost (op : Nat) : NetHeader := ⟨2, 0, 39, op, 1, if op = 0 then 0 else 1, 0, 0x100000, 0⟩
def toCore (op : Nat) : NetHeader := ⟨2, 8, 39, op, 1, if op = 0 then 0 else 1, 0, 65472, 0⟩
def toSeal (op dst : Nat) : NetHeader := ⟨2, dst, 39, op, 1, if op = 0 then 0 else 4, 0, 2 ^ 30 + 4096 * (dst - 43), 0⟩

theorem witness_RouteTurnRule :
    (let s := at1 up
     let v : Nat := packHops (xyHops 4 0) + (xyHops 4 0).length * 2 ^ 16
     awake s ∧ locked s.part = false ∧ niRouter 0 = some 4 ∧ routeOk 0 0 v = true ∧ routeOk 0 0 (v + 9 * 2 ^ 16) = false) ∧
    locked shut = true := by decide +kernel

theorem maySend_fresh (p : Part) (h : NetHeader) (hp : partHalted p = false) (hs : p.svn.switching = false)
    (ho : p.svn.outstanding = []) : maySend p h = true := by
  have hr : responseFlits h ≤ niBuffer h.src := by
    unfold responseFlits niBuffer
    split
    · omega
    · split <;> omega
  simp [maySend, classOpen, hp, hs, reservedRoom, outstandingOf, ho, hr]

theorem witness_DeadlockModeSwitch :
    (let s := at1 up; awake s ∧ locked s.part = false) ∧ locked shut = true ∧
    (let s := at1 { up with svn := { up.svn with switching := true } }
     awake s ∧ s.part.svn.switching = true ∧ s.part.svn.net.packets = [] ∧ readPacket (pkt (ctl 0) false).flits = some (ctl 0) ∧
     requestOk (ctl 0) = true ∧ (ctl 0).op ≠ 2 ∧ s.part.svn.held = [] ∧ s.part.svn.outstanding = []) ∧
    (let s := at1 { up with svn := { up.svn with switching := true, outstanding := [⟨1, 0, 2, 0, true, true, 3⟩] } }
     awake s ∧ s.part.svn.switching = true ∧ s.part.svn.net.packets = [] ∧ s.part.svn.held = [] ∧ s.part.svn.outstanding ≠ []) := by
  decide +kernel

theorem witness_ServiceRequests_held :
    (let s := at1 { up with svn := { up.svn with switching := true } }
     awake s ∧ readPacket (pkt (ctl 0) false).flits = some (ctl 0) ∧ requestOk (ctl 0) = true ∧ s.part.svn.net.packets = [] ∧
     maySend s.part (ctl 0) = false) ∧
    (let s := at1 { up with svn := { up.svn with held := [pkt (ctl 0) false] } }
     s.part.svn.net.packets = [] ∧ heldBefore s.part (ctl 0) = true) := by decide +kernel

theorem witness_ServiceRequests_send : ∀ h, maySend up h = true ∧ maySend (windowed up) h = true :=
  fun h => ⟨maySend_fresh _ h (by decide) rfl rfl, maySend_fresh _ h (by decide) rfl rfl⟩

theorem witness_ServiceRequests_served :
    awake (at1 up) ∧ awake (at1 (windowed up)) ∧
    (∀ op < 3, plainly up (pkt (ctl op) false) (fun _ g => controlVc g.head.cls) = true ∧
      plainly (windowed up) (pkt (toHost op) false) (fun p g => !controlVc g.head.cls &&
        inWindow p (if g.head.op = 0 then .read else .write) g.head.addr (requestBytes g)) = true ∧
      plainly up (pkt (toCore op) false) (fun _ g => !controlVc g.head.cls) = true) ∧
    (∀ op < 2, ∀ dst ∈ [43, 44], plainly up (pkt (toSeal op dst) false) (fun _ g => !controlVc g.head.cls &&
      sealUserOf g.head.src == some .cores) = true) := by decide +kernel

theorem witness_ServiceRequests_failed :
    (∀ op < 3,
      arrives up (poisonedPkt (ctl op)) (fun _ g => g.flits.any flitPoisoned && g.head.op == op) = true ∧
      arrives up (pkt { ctl op with dst := 1 } false) (fun _ g => !g.flits.any flitPoisoned && !targetDecodes g) = true ∧
      arrives up (pkt (toHost op) false) (fun p g => !g.flits.any flitPoisoned && targetDecodes g && !targetHalted p g.head &&
        !targetBusy p g.head && !controlVc g.head.cls && g.head.dst == 0 &&
        !inWindow p (if g.head.op = 0 then .read else .write) g.head.addr (requestBytes g)) = true ∧
      arrives (setTest up 6 1) (pkt (toCore op) true) (fun p g => !g.flits.any flitPoisoned && targetDecodes g &&
        !targetHalted p g.head && g.urgent && targetTesting p g.head) = true ∧
      arrives (setTest up 6 1) (pkt (toCore op) false) (fun p g => !g.flits.any flitPoisoned && targetDecodes g &&
        !targetHalted p g.head && !g.urgent && targetBusy p g.head) = true) ∧
    (let p := { up with sm := { SealState.init with stopped := true } }
     ∀ op < 3, arrives p (pkt (toSeal op 44) false) (fun p g => !g.flits.any flitPoisoned && targetDecodes g &&
       targetHalted p g.head) = true) := by decide +kernel

theorem witness_ResponsesTimeoutsAndNotices :
    (let r : SvnResponse := ⟨0, 8, 4095, true, .ok, [1, 2, 3, 4]⟩
     let crosses (p : Part) : Bool := awake (at1 p) && p.svn.held.isEmpty &&
       p.svn.responses.find? (fun r => r.ni == (8 : Nat) && r.tag == 4095) == some r &&
       (match netSettle (netLaunch { p with svn := { p.svn with
            responses := p.svn.responses.eraseP (fun q => q.ni == (8 : Nat) && q.tag == 4095) } }
          (replyPacket r.tgt r.ni 3 (if r.control then 1 else 3) r.tag r.status.code r.data [])) with
        | (q, [_]) => q.svn.net.packets.isEmpty
        | _ => false)
     (let p := { up with svn := { up.svn with responses := [r], outstanding := [⟨8, 4095, 0, 0, true, true, 3⟩] } }
      crosses p = true ∧ p.svn.outstanding.any (fun q => q.ni == r.ni && q.tag == r.tag) = true) ∧
     (let p := { up with svn := { up.svn with responses := [r] } }
      crosses p = true ∧ p.svn.outstanding.any (fun q => q.ni == r.ni && q.tag == r.tag) = false)) ∧
    (let s := at1 { up with svn := { up.svn with outstanding := [⟨0, 4095, 2, 0, true, true, 3⟩] } }
     awake s ∧ canon s.part ∧ s.part.svn.held = [] ∧ s.part.svn.net.packets = [] ∧
     s.part.svn.outstanding.find? (fun q => q.ni == (0 : Nat) && q.tag == 4095) = some ⟨0, 4095, 2, 0, true, true, 3⟩) ∧
    (∀ n ∈ [31, 32], let s := at1 { up with svn := { up.svn with notices := [(0, n), (1, 8)] } }
      awake s ∧ s.part.svn.notices = (0, n) :: [(1, 8)]) := by decide +kernel

/-! ### Witnesses: the host interface -/

theorem witness_HostLinkAndInterruptRows :
    (let s := at1 up
     awake s ∧ canon s.part ∧ s.part.host.endpointUp = true ∧ s.part.host.linkUp = true ∧ inD3 s.part = false ∧
     s.part.svn.waiting = [] ∧ s.part.host.heldCpl = [] ∧ s.part.host.vecDue = []) ∧
    (let s := at1 (fields up [(HIF_DSTATE, 0, 3)])
     awake s ∧ canon s.part ∧ s.part.host.endpointUp = true ∧ inD3 s.part = true) ∧
    (let s := at1 { up with host := { up.host with vecPending := [(63, true)] } }
     awake s ∧ smapGet (fun _ => false) s.part.host.vecPending 63 = true ∧ dmaOk s.part = true ∧
     smapGet (fun _ => false) s.part.host.vecPending 0 = false) ∧
    (let p := fields (ringed up) [(HIF_EVT_IRQ_EN, 0, 1), (HIF_EVT_MOD_NS, 0, 1), (HIF_EVT_MOD_COUNT, 0, 9)]
     let s := at1 { p with host := { p.host with unsignalled := [(32, 1)], msix := [(0, ⟨0, 0, false⟩)] } }
     awake s ∧ ringIrq s.part .evt = some (0, true, 9, 1) ∧ 0 < unsignalled s.part .evt ∧ dmaOk s.part = true ∧
     (msixEntry s.part 0).masked = false ∧ smapWf (fun _ => (0 : Nat)) s.part.host.unsignalled = true) ∧
    (let p := fields (ringed up) [(HIF_CMD_WAIT_CPL, 15, 1)]
     let s := at1 (setReserved p 0 16)
     awake s ∧ ringEn s.part (.cpl 0) = true ∧ cplFree s.part 0 = 0 ∧ fldI s.part HIF_CMD_WAIT_CPL 15 = 1 ∧
     ringStopped s.part (.cpl 0) = false) := by decide +kernel

theorem witness_PollingAndPickup :
    (let s := at1 (fields up [(HIF_POLL_EN, 0, 1), (HST_FW_RUN, 0, 1)])
     awake s ∧ fld s.part HIF_POLL_EN = 1 ∧ fld s.part HST_FW_RUN = 1 ∧ dmaOk s.part = true) ∧
    (let p := fields (ringed up) [(HIF_WB_ADDR_LO, 0, 0x103)]
     let s := at1 { p with host := { p.host with batches := [[(0, 0)]] }, trc := { p.trc with st := .running } }
     awake s ∧ canon s.part ∧ s.part.host.batches = [[(0, 0)]] ∧ List.lookup 0 [(0, 0)] = some 0 ∧
     inWindow s.part .write (wbBase s.part) 4096 = true ∧ dmaOk s.part = true ∧ ringEn s.part (.cmd 0) = true ∧
     ringStopped s.part (.cmd 0) = false ∧ partCount s.part (.cmd 0) = 0 ∧ s.part.host.evtHeld = 0 ∧
     ringEn s.part (.cpl 0) = true ∧ 0 < cplFree s.part 0 ∧
     (∀ h ∈ [hdr 0x00 [(5, 1)], hdr 0x07 [(5, 1)], hdr 0x28 [(5, 1), (8, 2)]],
       h.ring = 0 ∧ h.phase = phaseOf 0 (ringSize s.part (.cmd 0)) ∧ h.cpl = 0 ∧ opcodeKnown h.op = true ∧ h.op ≠ 0x51) ∧
     (let h := hdr 0x28 [(5, 1), (8, 2)]; h.op = 0x28 ∧ h.traceAction = 2 ∧ h.rsv = false ∧ s.part.trc.st = .running)) := by
  decide +kernel

theorem witness_CompletionEntryLayout :
    let p := ringed up
    canon p ∧ dmaOk p = true ∧ (hdr 0x00 []).cpl = 0 ∧ ringStopped p (.cpl 0) = false ∧ partCount p (.cpl 0) = 0 ∧
    smapWf (fun _ => (0 : Nat)) p.host.reserved = true := by decide +kernel

theorem witness_EventQueue :
    (eventMasked up 56 = false ∧ up.host.events.length < 256 ∧ canon up) ∧
    (let p := { up with host := { up.host with events := List.replicate 256 ⟨56, false, false, 0, []⟩ } }
     canon p ∧ eventMasked p 56 = false ∧ 256 ≤ p.host.events.length) ∧
    eventMasked (fields up [(HIF_EVT_MASK, 7, 0x80000000)]) 255 = true ∧
    (let p := ringed up
     let s := at1 { p with host := { p.host with events := [⟨56, false, false, 0, [(8, 1)]⟩], partCount := [(32, 15)] } }
     awake s ∧ canon s.part ∧ partCount s.part .evt = 15 ∧ ringSize s.part .evt = 16 ∧ dmaOk s.part = true ∧
     ringEn s.part .evt = true ∧ ringStopped s.part .evt = false ∧ 15 < hostCount s.part .evt + 16) ∧
    (let p := ringed up
     let s := at1 { p with host := { p.host with events := [⟨56, false, false, 0, []⟩], partCount := [(32, 16)] } }
     awake s ∧ canon s.part ∧ dmaOk s.part = true ∧ ringEn s.part .evt = true ∧ ringStopped s.part .evt = false ∧
     hostCount s.part .evt + ringSize s.part .evt ≤ partCount s.part .evt) := by decide +kernel

theorem witness_NopQueryAndCounters :
    (let h := hdr 0x00 []; let s := with1 h up; awake s ∧ commandRuns s.part h 0x00) ∧
    (let h := hdr 0x01 [(0x08, 0x1FFFC0), (0x10, 64)]
     let s := with1 h (windowed up)
     awake s ∧ mayBegin h 0x01 s.part.host.inflight = true ∧ inD3 s.part = false ∧ h.rsv = false ∧ 64 ≤ h.par 0x10 4 ∧
     inWindow s.part .write (h.par 0x08 8) (h.par 0x10 4) = true ∧ dmaOk s.part = true) ∧
    (let h := hdr 0x01 [(0x10, 63)]; let s := with1 h up
     mayBegin h 0x01 s.part.host.inflight = true ∧ h.rsv = false ∧ h.par 0x10 4 < 64) ∧
    (let b : BlankInfo := ⟨1, 0, 0, 0, 0, 0, 0, 3, 0, [], Decl.none, [], []⟩
     let p := { windowed up with blank := some b, cols := [0, 9, 18, 27] }
     ∀ clear < 2,
      (let h := hdr 0x50 [(0x08, 1), (0x09, clear), (0x0A, 127), (0x0C, 1), (0x10, 0x100000), (0x18, 8)]
       let s := with1 h p
       awake s ∧ mayBegin h 0x50 s.part.host.inflight = true ∧ inD3 s.part = false ∧ h.rsv = false ∧ dmaOk s.part = true ∧
       h.par 0x08 1 = 1 ∧ h.par 0x0A 2 = 127 ∧ h.par 0x0C 4 = 1 ∧ 127 + 1 ≤ setEnd s.part ∧ 1 * 8 ≤ h.par 0x18 4 ∧
       inWindow s.part .write (h.par 0x10 8) (h.par 0x18 4) = true ∧ clearSet h = (clear == 1) ∧
       smapWf (fun _ => (0 : Nat)) s.part.sp.ceD = true ∧ smapWf (fun _ => (0 : Nat)) s.part.sp.ceI = true ∧
       smapWf (fun _ => (0 : Nat)) s.part.sp.ceT = true) ∧
      (let h := hdr 0x50 [(0x08, 2), (0x09, clear), (0x0A, 255), (0x0C, 1), (0x10, 0x100000), (0x18, 24)]
       let s := with1 h p
       mayBegin h 0x50 s.part.host.inflight = true ∧ h.rsv = false ∧ h.par 0x08 1 = 2 ∧ h.par 0x0A 2 = 255 ∧
       h.par 0x0C 4 = 1 ∧ 255 + 1 ≤ 256 ∧ 1 * 24 ≤ h.par 0x18 4 ∧
       inWindow s.part .write (h.par 0x10 8) (h.par 0x18 4) = true ∧ clearSet h = (clear == 1))) := by decide +kernel

theorem witness_CommandRefusals :
    (∀ op ∈ [0x00, 0x04, 0x06, 0x05, 0x02, 0x03, 0x19, 0x1A, 0x21, 0x38, 0x40, 0x58, 0x48],
      let h := hdr op []
      let r := hdr op [(63, 1)]
      awake (with1 h halted) ∧ mayBegin h op (picked h halted).host.inflight = true ∧ partHalted (picked h halted) = true ∧
      mayRun (picked r up) r op ∧ r.rsv = true ∧ mayBegin h op up.host.inflight = false) ∧
    (let h := hdr 0x07 []
     let p := { halted with host := { halted.host with inflight := [⟨h, false, false, ⟨0, true, false, [], false⟩⟩] } }
     p.host.inflight.find? (fun e => e.hdr == h && !e.begun) = some ⟨h, false, false, ⟨0, true, false, [], false⟩⟩ ∧
     mayBegin h 0x07 p.host.inflight = true) ∧
    (let r := hdr 0x07 [(63, 1)]
     (picked r up).host.inflight.find? (fun e => e.hdr == r && !e.begun) = some ⟨r, false, false, ⟨0, false, false, [], false⟩⟩ ∧
     mayRun (picked r up) r 0x07 ∧ r.rsv = true) ∧
    (let h := hdr 0x07 []
     let e : Inflight := ⟨h, false, false, ⟨0, false, false, [], false⟩⟩
     let first : Inflight := ⟨hdr 0x00 [], false, false, ⟨0, false, false, [], false⟩⟩
     [first, e].find? (fun e => e.hdr == h && !e.begun) = some e ∧ mayBegin h 0x07 [first, e] = false) := by decide +kernel

/-! ### Witnesses: spindles -/

/-- A loaded blank of four columns with L = 96, one region over column 0. -/
def blank4 : BlankInfo := ⟨1, 96, 0, 0, 0, 0, 0, 3, 0, [], Decl.none, [(0, 0)], []⟩

/-- The last site of that blank: column 3, row 31, spindle 63, step 103. -/
def last : Site := ⟨3, 31, 63, 103⟩

/-- A part whose fabric runs that blank, with region 0 LIVE. -/
def spinning : Part :=
  { up with tk := { up.tk with fab := .running, reached := true }, blank := some blank4, cols := [0, 9, 18, 27]
            regions := [{ Region.empty with state := .live }]
            boot := { up.boot with ps := .operating } }

/-- The state in which the last site fetches a stored word. -/
def fetches (w : EccWord) : State := at1 (setIword spinning (entryKey last) w)

/-- The state in which the last site fetches an instruction. -/
def spins (i : SpInstr) : State := fetches (cleanWord (encodeSp i))

/-- Does an instruction execute at the last site, with every operand readable? -/
abbrev runs (i : SpInstr) : Prop := executes (spins i) last i ∧ readable (spins i) last (opndsOf i)

/-- The state in which an instruction's first operand d[5] has an uncorrectable error. -/
def broken (i : SpInstr) : State := at1 (setDword (spins i).part (last.sp * 256 + 5) ⟨1, 3⟩)

theorem witness_BitwiseMoveSelectAndImmediate :
    runs (.bool3 255 (.mem 5) (.mem 6) (.bus 71) true 0x96) ∧ ¬ readable (broken (.bool3 0 (.mem 5) (.mem 6) .tr false 0))
      last [.mem 5, .mem 6, .tr] ∧
    runs (.move 0 (.grain 15 255) false) ∧ runs (.sel 1 (.mem 0) (.mem 1) (.mem 2) true 2) ∧
    runs (.ldi 1 0x8000 0 true) ∧ runs (.ldi 1 0xFFFF 1 false) ∧ runs (.ldi 1 0x8000 2 false) ∧
    runs (.ldiInsert 1 5 3 0xFFFF false) := by decide +kernel

theorem witness_LaneArithmetic :
    runs (.add 255 (.mem 5) (.mem 6) (some (.mem 255)) true 0 2) ∧ runs (.add 0 (.mem 5) .tr none false 2 0) ∧
    runs (.sub 0 (.bus 0) (.mem 1) false 1 1) ∧ runs (.cmp 0 (.mem 0) (.mem 1) false 2 5) ∧
    runs (.min 0 (.mem 0) (.mem 1) false 0 true) ∧ runs (.max 0 (.mem 0) (.mem 1) false 0 false) ∧
    (runs (.cmpxPairs 0 (.mem 0) false 0 true false 2) ∧ cmpxPairsOf 0 2 = some [(0, 3), (1, 2)]) ∧
    runs (.cmpxSide 0 (.mem 0) (.mem 1) (.mem 2) true 1 true) := by decide +kernel

theorem witness_ShiftsAndBitCounts :
    runs (.shf 0 (.mem 0) false 0 true 15 1) ∧ runs (.shf 0 (.mem 0) false 2 false 0 0) ∧
    runs (.rot 0 (.mem 0) false 1 true 31) ∧ runs (.popc 0 (.mem 0) (some (.mem 1)) false 0) ∧
    runs (.popc 0 (.mem 0) none false 2) ∧ runs (.prio 0 (.mem 0) false 0 true) := by decide +kernel

theorem witness_NopHasNoEffect :
    runs .nop ∧ canon (spins .nop).part ∧ awake (fetches EccWord.zero) ∧ issues (fetches EccWord.zero).part last = true ∧
    iword (fetches EccWord.zero).part (entryKey last) = EccWord.zero ∧
    seenEntry (fetches EccWord.zero).part last = EccWord.zero := by decide +kernel

theorem witness_SuppressedInstructions :
    (awake (fetches ⟨5, 3⟩) ∧ issues (fetches ⟨5, 3⟩).part last = true ∧
     eccKind (seenEntry (fetches ⟨5, 3⟩).part last) = .double) ∧
    (let i : SpInstr := .move 0 (.mem 5) true
     issues (broken i).part last = true ∧ executes (broken i) last i ∧ ¬ readable (broken i) last (opndsOf i)) ∧
    (let p := { spinning with
       sp := { spinning.sp with suppressed := [(last.sp * 1024 + 8, true)] }
       gr := { spinning.gr with slots := [((last.bil * 16 + 15) * 512 + 1, ⟨.inject 63, 7, false⟩)] } }
     colHeld p 3 = false ∧ slotAt p (billetNo 3 31) 15 9 = ⟨.inject 63, 7, false⟩ ∧
     (∀ j ∈ smapGet (fun _ => []) p.gr.inject (billetNo 3 31 * 16 + 15), j.1 ≠ 9) ∧
     suppressedAt p (billetNo 3 31 * 64 + 63) (9 - 1) = true) := by decide +kernel

/-- Does a table access run at the last site, as the access of its billet? -/
abbrev turns (s : State) (i : SpInstr) : Prop :=
  executes s last i ∧ readable s last (opndsOf i) ∧ tableTurn s last (opndsOf i)

theorem witness_TableAccesses :
    (∀ i ∈ [SpInstr.tblr (some 5) 0x3FFF, .tblr none 0, .tblw (some 5) 6 0x3FFF, .tblw none 6 0], turns (spins i) i) ∧
    canon (spins (.tblw none 6 0)).part ∧
    (let s := at1 (setTword (spins (.tblr none 0)).part (last.bil * 16384) ⟨1, 3⟩)
     turns s (.tblr none 0) ∧ eccKind (tword s.part (last.bil * 16384 + 0)) = .double) := by decide +kernel

/-- The state of `spins`, in which another spindle of the billet has had the table access of the step. -/
def late (i : SpInstr) : State :=
  let p := (spins i).part
  at1 { p with sp := { p.sp with tableStep := [(last.bil, last.step)] } }

theorem witness_TableAccesses_late : ∀ i ∈ [SpInstr.tblr none 0, .tblw none 6 0],
    executes (late i) last i ∧ readable (late i) last (opndsOf i) ∧ ¬ tableTurn (late i) last (opndsOf i) := by
  decide +kernel

theorem witness_GrainBusAndWindowOperations :
    (let p := (spins (.send 7 (.mem 5) 15)).part
     let s := at1 { p with gr := { p.gr with slots := [((last.bil * 16 + 15) * 512 + 96, ⟨.inject 63, 7, false⟩)] } }
     executes s last (.send 7 (.mem 5) 15) ∧ readable s last [.mem 5] ∧
     slotAt s.part last.bil 15 (last.step + 1) = ⟨.inject 63, 7, false⟩) ∧
    runs (.send 7 (.mem 5) 0) ∧ slotAt (spins (.send 7 (.mem 5) 0)).part last.bil 0 (last.step + 1) = SlotEntry.none ∧
    runs (.recv 255 15 255 true) ∧ runs (.bpub .tr) ∧ runs (.pin 0 1 127 true) ∧ portLane spinning last 1 = some 127 := by
  decide +kernel

theorem witness_GrainBusAndWindowOperations_edge :
    (let i : SpInstr := .send 15 (.mem 5) 4
     let p := (spins i).part
     let s := at1 { p with gr := { p.gr with slots := [((last.bil * 16 + 4) * 512 + 96, ⟨.inject 63, 15, false⟩)] } }
     executes s last i ∧ readable s last [.mem 5] ∧ slotAt s.part last.bil 4 (last.step + 1) = ⟨.inject 63, 15, false⟩ ∧
     edgeChannel s.part last.col last.row 4 = true ∧ cornerOf last.col last.row = 3 ∧
     smapWf (fun _ => Staged.none) s.part.gr.gioStage = true) ∧
    (executes (spins (.recv 255 4 255 true)) last (.recv 255 4 255 true) ∧
     edgeChannel (spins (.recv 255 4 255 true)).part last.col last.row 4 = true) ∧
    (let s := at1 { spinning with gr := { spinning.gr with gioStage := [(62, ⟨9, 1, 5⟩)], gioWords := [(63, [7])] } }
     awake s ∧ ticksOn s.part = true ∧ s.part.tim.run = true ∧ smapWf (fun _ => ([] : List Word)) s.part.gr.gioWords = true ∧
     (smapGet (fun _ => Staged.none) s.part.gr.gioStage 62).step ≠ 0 ∧
     (smapGet (fun _ => Staged.none) s.part.gr.gioStage 63).step = 0 ∧ cellWords s.part 63 = [7]) := by decide +kernel

theorem witness_GrainBusAndWindowOperations_cells :
    (fldI up GIO_MODE 63 = 0 ∧ fldI up GIO_OFS 63 = 0) ∧ fldI up GIO_OE 63 = 0 ∧
    (∀ safe < 4, let p := fields up [(GIO_OE, 63, 1), (GIO_SAFE, 63, safe)]
     fldI p GIO_OE 63 = 1 ∧ cellLive p 63 = false ∧ fldI p GIO_SAFE 63 = safe) ∧
    (∀ mode < 2, let p := fields spinning [(GIO_OE, 63, 1), (GIO_MODE, 63, mode), (GIO_CORNER_EN, 0, 8)]
     fldI p GIO_OE 63 = 1 ∧ cellLive p 63 = true ∧ fldI p GIO_MODE 63 = mode) := by decide +kernel

theorem witness_StagingWrites :
    runs (.pout (.mem 5) 1 127) ∧ portLane spinning last 1 = some 127 ∧ runs (.hist (.mem 5) 7) ∧
    runs (.probe (.bus 3) 3) ∧ runs (.accept (.mem 5)) ∧ runs (.uevt .tr) ∧ runs (.stat (.mem 0) 7) ∧
    smapGet (fun _ => none) (declOf spinning).stat 7 ≠ some last.sp ∧
    (let p := (spins (.stat (.mem 0) 7)).part
     let s := at1 { p with blank := some { blank4 with decl := { Decl.none with stat := [(7, some last.sp)] } } }
     executes s last (.stat (.mem 0) 7) ∧ readable s last [.mem 0] ∧
     smapGet (fun _ => none) (declOf s.part).stat 7 = some last.sp) := by decide +kernel

theorem witness_SpindleFrame : (pendAt spinning last).addr < 256 := by decide

theorem witness_SpindleDecodeEncode :
    spWf (.bool3 255 (.mem 255) (.mem 0) (.bus 71) true 255) = true ∧
    decodeSp 0 = some .nop := by decide +kernel


/-! ### Witnesses: loading, admission, ticks and routers -/

/-- A loaded blank that passes admission. -/
def admissible : BlankInfo :=
  { blank4 with colsPerDie := 5, lastCol := 19, len := 72, stages := 1, steppings := 1
                travel := leBytes 4 grnConst ++ [4, 9, 14, 0, 2, 1, 3, 8, 0, 0, 0, 0] ++ (segDelays 5).map (BitVec.ofNat 8) }

/-- A part whose fabric is LOADED with it. -/
def loaded : Part :=
  fields { spinning with blank := some admissible, tk := { spinning.tk with fab := .loaded }, boot := up.boot }
    [(SYS_PWR_LIMIT, 0, 4000)]

/-- A part with a region in LOADING (k = 0), whose partial blank is on its way. -/
def incoming (st : RegionState) (fab : FabState) : Part :=
  let q := { blank4 with firstCol := 0, lastCol := 0 }
  { spinning with
    tk := { spinning.tk with fab := fab, tick := 9 }
    regions := [{ Region.empty with state := st, coming := some q, release := some 9
                                    imgs := { BlankImages.none with dmem := [(5, 7)], imem := [(6, 0)] } }] }

theorem div_step (c a s : Nat) (hc : c ≠ 0) : (a + s) / c ≤ a / c + s := by
  have : (a + s) / c ≤ (a + s * c) / c := Nat.div_le_div_right (by
    have := Nat.le_mul_of_pos_right s (Nat.pos_of_ne_zero hc); omega)
  rwa [Nat.add_mul_div_right _ _ (Nat.pos_of_ne_zero hc)] at this

theorem seams_le (c a s : Nat) : seamsBetween c a (a + s) ≤ s ∧ (s ≤ a → seamsBetween c a (a - s) ≤ s) := by
  have key : ∀ x, seamsBetween c x (x + s) ≤ s ∧ seamsBetween c (x + s) x ≤ s := by
    intro x
    unfold seamsBetween
    by_cases hc : c = 0
    · simp [hc]
    · have := div_step c x s hc
      have := Nat.div_le_div_right (c := c) (Nat.le_add_right x s)
      simp only [hc, if_false]
      split <;> (constructor <;> (try split) <;> omega)
  refine ⟨(key a).1, fun h => ?_⟩
  obtain ⟨x, rfl⟩ := Nat.exists_eq_add_of_le h
  rw [Nat.add_comm s x]
  simpa using (key x).2

/-- Every segment delay fits a byte. -/
theorem segment_lt (c cv col row ch : Nat) (x : Nat × Nat × Nat) (h : Machine.segment c cv col row ch = some x) :
    x.2.2 < 256 := by
  have h1 : (segSpan ch).2 ≤ 5 ∧ (segSpan ch).1 ≤ 16 := by unfold segSpan; split <;> simp
  have h2 := seams_le c col (segSpan ch).1
  unfold Machine.segment at h
  obtain ⟨span, delay⟩ := segSpan ch
  simp only at h h1 h2
  split at h
  all_goals first | (split at h <;> cases h) | cases h
  all_goals (simp only; omega)

/-- A TRAVEL section made of the placed grid's own values passes ADM_TRAVEL. -/
theorem travelDiff_own (c : Nat) (h : List Byte) (hl : h.length = 16)
    (h0 : leAt h 0 4 = grnConst) (h1 : (travelBytes c).find? (fun e => leAt h e.1 1 != e.2) = none) :
    travelDiff c (h ++ (segDelays c).map (BitVec.ofNat 8)) = none := by
  have e : ∀ o n, o + n ≤ 16 → leAt (h ++ (segDelays c).map (BitVec.ofNat 8)) o n = leAt h o n := by
    intro o n hn
    simp only [leAt]
    rw [List.drop_append_of_le_length (by omega), List.take_append_of_le_length (by simp; omega)]
  have hd : ∀ d ∈ segDelays c, d < 256 := by
    intro d hd
    simp only [segDelays, List.mem_flatMap, List.mem_map, List.mem_range] at hd
    obtain ⟨b, -, ch, -, hd⟩ := hd
    split at hd
    · next heq => subst hd; exact segment_lt _ _ _ _ _ _ heq
    · omega
  unfold travelDiff
  rw [e 0 4 (by omega), if_neg (by simpa using h0)]
  have h1' : (travelBytes c).find? (fun x => leAt (h ++ (segDelays c).map (BitVec.ofNat 8)) x.1 1 != x.2) = none := by
    rw [List.find?_eq_none] at h1 ⊢
    intro x hx
    have hx' : x.1 + 1 ≤ 16 := by
      simp only [travelBytes, List.mem_cons, List.not_mem_nil, or_false] at hx
      rcases hx with rfl | rfl | rfl | rfl | rfl | rfl | rfl <;> simp
    rw [e _ _ hx']; exact h1 x hx
  rw [h1']
  simp only [Option.map_eq_none_iff]
  rw [List.drop_left' hl, List.find?_eq_none]
  intro x hx
  have hx := List.fst_mem_of_mem_zipIdx hx
  rw [List.zip_map_right, List.mem_map] at hx
  obtain ⟨y, hy, hy2⟩ := hx
  have h3 := (List.of_mem_zip hy).1
  have h4 : y.1 = y.2 := by
    have : ∀ (l : List Nat), ∀ z ∈ l.zip l, z.1 = z.2 := by
      intro l; induction l with
      | nil => simp
      | cons a l ih => intro z hz; simp only [List.zip_cons_cons, List.mem_cons] at hz; rcases hz with rfl | hz; rfl; exact ih z hz
    exact this _ y hy
  have := hd _ h3
  rw [← hy2]
  simp only [Prod.map, id, bne_iff_ne, ne_eq, Decidable.not_not, BitVec.toNat_ofNat]
  omega

theorem admTravel_admissible : admTravel admissible = none := by
  have : travelDiff 5 admissible.travel = none := travelDiff_own 5 _ (by decide) (by decide +kernel) (by decide +kernel)
  simp only [admTravel, show admissible.colsPerDie = 5 from rfl, this, Option.map_none]

/-- Every check of admission passes, with the estimate `v` of ADM_POWER for the energy `e`. -/
theorem admits (p : Part) (b : BlankInfo) (e v : Nat) (hb : p.blank = some b) (ht : admTravel b = none)
    (h1 : admVersion p b = none ∧ admGrid p b = none ∧ admTable b = none ∧ admRegion p = none ∧ admSteps p b.len = none)
    (h2 : admLaneFrame (takeRatio p) b.decl = none ∧ admHistory (takeRatio p) b.decl = none ∧ admProbe b.decl = none ∧
      admAccept (takeRatio p) b.decl = none)
    (h3 : fabricEnergy (takeRatio p) = e) (h4 : min (powerEstimate (takeRatio p) e) 65535 = v)
    (h5 : admPower (setFld (takeRatio p) FAB_PWR_ESTIMATE v) e = none ∧
      admLaneMargin (setFld (takeRatio p) FAB_PWR_ESTIMATE v) b.decl = none) : (runAdmission p).2 = none := by
  obtain ⟨a1, a2, a3, a4, a5⟩ := h1
  obtain ⟨c1, c2, c3, c4⟩ := h2
  subst h3 h4
  have e2 : (admissionOf p b).2 = none := by
    unfold admissionOf
    rw [a1, a2, a3, a4, a5, ht]
    show (match (admLaneFrame (takeRatio p) b.decl).orElse _ with | some f => _ | none => _ : Part × AdmResult).2 = none
    rw [c1, c2, c3, c4]
    show (admPower _ _).orElse _ = none
    rw [h5.1, h5.2]
    rfl
  unfold runAdmission
  rw [hb]
  exact e2

theorem fields_blank (l : List (FieldRow × Nat × Nat)) : ∀ p, (fields p l).blank = p.blank := by
  induction l with
  | nil => intro p; rfl
  | cons e l ih => intro p; exact ih _

theorem blank_loaded (h : HostState) : { loaded with host := h }.blank = some admissible := fields_blank _ _

theorem witness_AdmitStartAndStop :
    let h := hdr 0x05 []
    let s := with1 h loaded
    awake s ∧ commandRuns s.part h 0x05 ∧ s.part.tk.fab = .loaded ∧ s.part.tk.start = none ∧ s.part.loader.writing = none ∧
    h.par 0x08 8 = 0 ∧ (hdr 0x05 [(8, 1)]).par 0x08 8 = 1 ∧ (runAdmission (begun s.part h 0x05)).2 = none :=
  ⟨rfl, by decide +kernel, rfl, rfl, rfl, by decide +kernel, by decide +kernel, admits _ _ 0 1080 (blank_loaded _) admTravel_admissible
    (by decide +kernel) (by decide +kernel) (by decide +kernel) (by decide +kernel) (by decide +kernel)⟩

theorem witness_AdmitStartAndStop_admit :
    let h := hdr 0x04 []
    let s := with1 h loaded
    awake s ∧ commandRuns s.part h 0x04 ∧ s.part.tk.fab = .loaded ∧ s.part.loader.writing = none ∧
    (runAdmission (begun s.part h 0x04)).2 = none :=
  ⟨rfl, by decide +kernel, rfl, rfl, admits _ _ 0 1080 (blank_loaded _) admTravel_admissible (by decide +kernel)
    (by decide +kernel) (by decide +kernel) (by decide +kernel) (by decide +kernel)⟩

/-- A part with a command that begins, of which its pickup found what is given. -/
def foundWith (h : Hdr) (blankOk : Bool) (regions : List Nat) (p : Part) : Part :=
  { p with host := { p.host with inflight := [⟨h, false, false, ⟨9, false, blankOk, regions, false⟩⟩] } }

theorem witness_LoadsTakenUp_found : (findAt up false).blankOk = true ∧ (findAt spinning true).blankOk = false ∧
    (findAt { spinning with boot := up.boot } false).regions = [0] := by decide +kernel

theorem witness_LoadsTakenUp_blank :
    let h := hdr 0x02 [(8, 0x1FFF00), (16, 256)]
    let out := hdr 0x02 [(8, 0x1FFF01), (16, 256)]
    let big := hdr 0x02 [(8, 0x1FFF00), (16, 2 ^ 30 + 1)]
    let p := windowed up
    unitReady p 1 ∧ dmaOk p = true ∧
    (∀ g ∈ [h, out, big], ∀ ok : Bool, awake (at1 (foundWith g ok [] p)) ∧ commandRuns (foundWith g ok [] p) g 0x02 ∧
      (foundOf (begun (foundWith g ok [] p) g 0x02) g).blankOk = ok) ∧
    h.par 0x10 8 ≤ 2 ^ 30 ∧ inWindow p .read (h.par 0x08 8) (h.par 0x10 8) = true ∧ out.par 0x10 8 ≤ 2 ^ 30 ∧
    inWindow p .read (out.par 0x08 8) (out.par 0x10 8) = false ∧ 2 ^ 30 < big.par 0x10 8 := by decide +kernel

theorem witness_LoadsTakenUp_region :
    let p := windowed up
    let h (u0 len : Nat) := hdr 0x03 [(8, 0x100000), (16, len), (24, u0)]
    unitReady p 1 ∧ dmaOk p = true ∧
    (∀ u ∈ [0, 9, 9 + 2 ^ 24, 8, 10 + 2 ^ 24], ∀ len ∈ [256, 0x100001, 2 ^ 30 + 1],
      let g := h u len
      let q := foundWith g false [0] p
      awake (at1 q) ∧ commandRuns q g 0x03 ∧ g.par 0x18 8 = u ∧ g.par 0x10 8 = len ∧ hdrRegion [] = 0 ∧
      hdrRegion [] ∈ (foundOf (begun q g 0x03) g).regions ∧ pickupTick (begun q g 0x03) g = 9) ∧
    inWindow p .read 0x100000 256 = true ∧ inWindow p .read 0x100000 0x100001 = false ∧
    (let g := h 0 256
     let q := foundWith g true [1] p
     commandRuns q g 0x03 ∧ hdrRegion [] ∉ (foundOf (begun q g 0x03) g).regions) := by decide +kernel

theorem witness_FullBlankChecksAndWrite :
    (let job : LoadJob := ⟨none, false, 0, [], false⟩
     let s := at1 { up with loader := { up.loader with jobs := [job] } }
     let r := stageImage { s.part with loader := { s.part.loader with jobs := [] } } job
     awake s ∧ s.part.loader.jobs = [job] ∧ loaderWriting s.part = false ∧ unitTesting s.part 1 = false ∧
     r.2.1 = .ok ∧ imageFail r.1 { job with image := r.2.2 } = some ⟨1, .errVersion, 0, 0, none⟩) ∧
    (let job : LoadJob := ⟨none, false, 0, [0], false⟩
     let p := { up with sm := { SealState.init with stopped := true } }
     let s := at1 { p with loader := { up.loader with jobs := [job] } }
     s.part.loader.jobs = [job] ∧ loaderWriting s.part = false ∧ unitTesting s.part 1 = false ∧
     (stageImage { s.part with loader := { s.part.loader with jobs := [] } } job).2.1 ≠ .ok) ∧
    (let h := hdr 0x02 []
     let w : Writing := ⟨⟨some h, false, 0, [], false⟩, blank4, { BlankImages.none with dmem := [(5, 7), (5, 8)] }, [0, 9, 18, 27]⟩
     let s := at1 { up with
       loader := { up.loader with writing := some w }, host := { up.host with inflight := [⟨h, true, false, ⟨0, false, false, [], false⟩⟩] } }
     awake s ∧ loaderWriting s.part = true ∧ s.part.loader.writing = some w ∧
     (∃ e ∈ s.part.host.inflight, e.hdr = h ∧ e.begun = true)) ∧
    (unitTesting (setTest up 0 1) 1 = true ∧ up.loader.jobs = []) := by decide +kernel

theorem witness_RegionsLoadHoldAndRelease :
    (let s := at1 { spinning with regions := [{ Region.empty with waits := true }] }
     awake s ∧ s.part.tk.fab ≠ .halted ∧ partHalted s.part = false ∧ s.part.tk.haltDue = none ∧
     (regionAt s.part 0).waits = true ∧ (regionAt s.part 7).waits = false) ∧
    (∀ f ∈ [FabState.running, .loaded],
     let q := { blank4 with firstCol := 0, lastCol := 0 }
     let s := at1 (incoming .loading f)
     awake s ∧ (regionAt s.part 0).coming = some q ∧ (regionAt s.part 0).state = .loading ∧ s.part.tk.fab ≠ .halted ∧
     partHalted s.part = false ∧ 0 < s.part.regions.length ∧ canon s.part ∧ (regionAt s.part 0).cmd = none ∧
     (∀ e ∈ (regionAt s.part 0).imgs.dmem, inBlankCols q (e.1 / 524288) = true) ∧
     (∀ e ∈ (regionAt s.part 0).imgs.imem, inBlankCols q (e.1 / 1048576) = true)) ∧
    (let s := at1 (incoming .held .running)
     awake s ∧ executing s.part = true ∧ (regionAt s.part 0).state = .held ∧ (regionAt s.part 0).release = some 9 ∧
     9 ≤ s.part.tk.tick ∧ s.part.blank = some blank4 ∧ inBlankCols { blank4 with lastCol := 0 } 1 = false) := by
  decide +kernel

/-- The beats of a segment (R214). -/
def beatsOf (kind seq addr mask off : Nat) (payload : List Byte) : List (BitVec 16) :=
  let body := leBytes 2 0xC5F0 ++ leBytes 1 kind ++ leBytes 1 1 ++ leBytes 4 seq ++ leBytes 2 7 ++ leBytes 2 addr ++ leBytes 2 mask ++
    leBytes 6 off ++ leBytes 2 (payload.length / 8) ++ leBytes 6 0 ++ payload
  let all := body ++ leBytes 4 (crc32 body)
  (List.range (all.length / 2)).map (fun i => BitVec.ofNat 16 (leAt all (2 * i) 2))

/-- A part that is selected with its port enabled. -/
def ported (l : LoaderState) : Part := fields { up with loader := { l with selected := true } } [(CFG_PORT_EN, 0, 1)]

theorem witness_ConfigurationSegments_start :
    (let s := at1 (ported .init)
     let good := readSegment (beatsOf 1 0 0 0 0 (leBytes 8 16))
     let other := readSegment (beatsOf 1 0 1 0xFFF 0 (leBytes 8 16))
     awake s ∧ canon s.part ∧ portActs s.part = true ∧ s.part.loader.awaits = false ∧ portBusy s.part = false ∧
     s.part.loader.stream = none ∧ s.part.loader.selected = true ∧ good.good = true ∧ good.kind = 1 ∧
     segMatches s.part good = true ∧ other.good = true ∧ other.kind = 1 ∧ segMatches s.part other = false ∧
     (readSegment []).good = false ∧ (readSegment (beatsOf 4 1 0 0 0 [])).good = true ∧
     (readSegment (beatsOf 4 1 0 0 0 [])).kind = 4) ∧
    (let s := at1 (ported { LoaderState.init with awaits := true })
     awake s ∧ portActs s.part = true ∧ s.part.loader.awaits = true) ∧
    (let s := at1 (ported { LoaderState.init with jobs := [⟨some (hdr 0x02 []), false, 0, [], false⟩] })
     portActs s.part = true ∧ s.part.loader.awaits = false ∧ portBusy s.part = true) := by decide +kernel

theorem witness_ConfigurationSegments_stream :
    let st : CfgStream := ⟨16, [], false⟩
    let s := at1 (fields (ported { LoaderState.init with stream := some st }) [(CFG_SEQ_EXPECT, 0, 5)])
    let data (seq off : Nat) := readSegment (beatsOf 2 seq 0 0 off (leBytes 8 7))
    awake s ∧ canon s.part ∧ portActs s.part = true ∧ s.part.loader.awaits = false ∧ portBusy s.part = false ∧
    s.part.loader.stream = some st ∧ s.part.loader.selected = true ∧ fld s.part CFG_SEQ_EXPECT = 5 ∧
    (∀ q ∈ [4, 5, 6], (data q 8).good = true ∧ (data q 8).kind = 2 ∧ (data q 8).seq = q) ∧
    canon (stageAt s.part (data 5 8).off (data 5 8).payload).1 ∧
    streamGaps (min st.len (2 ^ 30)) 0 st.bytes = [(0, 16)] ∧
    segMatches s.part (data 5 8) = true ∧ (data 5 8).off + (data 5 8).payload.length = st.len ∧
    (data 5 16).good = true ∧ st.len < (data 5 16).off + (data 5 16).payload.length ∧
    (let o := readSegment (beatsOf 2 5 1 0xFFF 0 (leBytes 8 7)); o.good = true ∧ o.kind = 2 ∧ o.seq = 5 ∧ segMatches s.part o = false) ∧
    (∀ k ∈ [3, 4], let e := readSegment (beatsOf k 5 0 0 0 []); e.good = true ∧ e.kind = k ∧ e.seq = 5) := by decide +kernel

theorem witness_AdmitStartAndStop_refused :
    (let h := hdr 0x04 []
     let s := with1 h spinning
     awake s ∧ commandRuns s.part h 0x04 ∧ s.part.tk.fab ∈ [FabState.loaded, .admitted, .stopped, .running] ∧
     s.part.loader.writing = none ∧ (runAdmission (begun s.part h 0x04)).2 = some (0x0A, 2)) ∧
    (canon spinning ∧ spinning.blank = some blank4) ∧
    (let h := hdr 0x05 []
     let s := with1 h { spinning with tk := { spinning.tk with fab := .stopped } }
     awake s ∧ commandRuns s.part h 0x05 ∧ s.part.tk.fab ∈ [FabState.loaded, .admitted, .stopped] ∧ s.part.tk.start = none ∧
     s.part.loader.writing = none ∧ (runAdmission (begun s.part h 0x05)).2 = some (0x0A, 2)) ∧
    (let h := hdr 0x05 []; commandRuns (picked h up) h 0x05 ∧ up.tk.fab ∈ [FabState.off, .running, .halted]) := by
  decide +kernel

theorem witness_AdmitStartAndStop_stop :
    (let h := hdr 0x06 []
     let s := with1 h spinning
     awake s ∧ commandRuns s.part h 0x06 ∧ h.par 0x08 8 = 0 ∧ s.part.tk.fab = .running) ∧
    (let p := { spinning with tk := { spinning.tk with tick := 9, stopAt := some 10 } }
     ∀ u ∈ [8, 9], let h := hdr 0x06 [(8, u)]
       let q := { p with host := { p.host with inflight := [⟨h, false, false, ⟨9, false, false, [], false⟩⟩] } }
       commandRuns q h 0x06 ∧ h.par 0x08 8 = u ∧ q.tk.fab = .running ∧ pickupTick (begun q h 0x06) h = 9) ∧
    (let h := hdr 0x06 []
     let p := { up with tk := { up.tk with start := some (hdr 0x05 [], 5) } }
     commandRuns (picked h p) h 0x06 ∧ p.tk.fab ≠ .running ∧ p.tk.start = some (hdr 0x05 [], 5) ∧
     commandRuns (picked h up) h 0x06 ∧ up.tk.fab ≠ .running ∧ up.tk.start = none) := by decide +kernel

theorem witness_TicksRunsAndHalts :
    (let s := at1 spinning
     awake s ∧ s.part.tim.run = true ∧ 12 * 2 ^ 32 ≤ tickT s.part ∧ s.part.tk.reached = true ∧ executing s.part = true ∧
     smapWf (fun _ => Staged.none) s.part.gr.txStage = true) ∧
    (∀ f ∈ [FabState.stopped, .admitted],
     let s := at1 { up with tk := { up.tk with start := some (hdr 0x05 [], 7), reached := true, tick := 7, fab := f } }
     awake s ∧ s.part.tk.start = some (hdr 0x05 [], 7) ∧ s.part.tk.reached = true ∧ 7 ≤ s.part.tk.tick ∧
     s.part.tk.haltDue = none ∧ s.part.cap.ticks = [] ∧ s.part.his.handed = []) ∧
    (let s := at1 { spinning with tk := { spinning.tk with stopAt := some 6, tick := 7 } }
     awake s ∧ s.part.tk.fab = .running ∧ 6 < s.part.tk.tick ∧ s.part.tk.haltDue = none ∧ s.part.boot.d3Stopping = false) ∧
    ((hdr 0x07 []).op = 0x07 ∧ (hdr 0x07 []).rsv = false ∧ up.tk.catchLog = []) ∧
    (let s := at1 loaded
     awake s ∧ s.part.tk.catchLog = [] ∧ partHalted s.part = false ∧ s.part.tk.haltReq = none ∧ s.part.tk.halt = none ∧
     s.part.tk.fab ≠ .off ∧ fld s.part FAB_POL_PIN = 0 ∧ fld (fields loaded [(FAB_POL_PIN, 0, 1)]) FAB_POL_PIN = 1) ∧
    (∀ part, let s := at1 { spinning with tk := { spinning.tk with haltDue := some ⟨part, .pin⟩ } }
     awake s ∧ haltNow s.part = some ⟨part, .pin⟩ ∧ s.part.boot.d3Stopping = false ∧ canon s.part ∧
     s.part.boot.ps ∈ [PartState.ready, .operating, .standby]) := by decide +kernel

theorem witness_TicksRunsAndHalts_commands :
    let h := hdr 0x07 []
    let e : Inflight := ⟨h, false, false, ⟨0, false, false, [], false⟩⟩
    let meets (p : Part) : Bool := mayBegin h 0x07 (picked h p).host.inflight && !h.rsv &&
      (picked h p).host.inflight.find? (fun e => e.hdr == h && !e.begun) == some e
    let whole (p : Part) : Part := fields p [(FAB_POL_SW, 0, 1)]
    awake (with1 h up) ∧
    (let p := whole up; meets p = true ∧ swPartHalt p = false ∧ p.tk.fab = .off) ∧
    (let p := { whole loaded with tk := { loaded.tk with haltDue := some ⟨false, .sw⟩ } }
     meets p = true ∧ p.tk.fab ≠ .off ∧ p.tk.haltDue ≠ none ∧ p.tk.halt = none) ∧
    (let p := { up with tk := { up.tk with haltReq := some ⟨true, .sw⟩ } }
     meets p = true ∧ swPartHalt p = true ∧ p.tk.haltReq ≠ none ∧ partHalted p = false) ∧
    (meets up = true ∧ swPartHalt up = true ∧ up.tk.haltReq = none ∧ up.tk.haltDue = none) ∧
    (meets halted = true ∧ swPartHalt halted = true ∧ partHalted halted = true) ∧
    (let p := { whole loaded with tk := { loaded.tk with halt := some ⟨false, .sw⟩, fab := .halted } }
     meets p = true ∧ swPartHalt p = false ∧ p.tk.fab ≠ .off ∧ p.tk.halt ≠ none) := by decide +kernel

theorem witness_TicksRunsAndHalts_accepts :
    let d (n : Nat) : Decl := { Decl.none with acceptRateMax := n, winBeforeMax := 4095 }
    let p (n : Nat) (w : Word) (l : List AcceptEntry) : Part :=
      { spinning with blank := some { blank4 with decl := d n }, gr := { spinning.gr with accept := ⟨9, 1, w⟩ }
                      his := { spinning.his with accepts := l } }
    (p 1 0 []).gr.accept.val.getLsbD 63 = false ∧
    (∀ w ∈ [(2 ^ 63 : Nat), 2 ^ 63 + 2 ^ 47, 2 ^ 63 + 2 ^ 62], (BitVec.ofNat 64 w).getLsbD 63 = true) ∧
    natBits (2 ^ 63 + 2 ^ 47) 43 5 ≠ 0 ∧ natBits (2 ^ 63 + 2 ^ 62) 56 7 ≠ 0 ∧
    (let q := p 0 (BitVec.ofNat 64 (2 ^ 63)) []
     natBits q.gr.accept.val.toNat 43 5 = 0 ∧ natBits q.gr.accept.val.toNat 56 7 = 0 ∧
     (declOf q).acceptRateMax ≤ (recentTakes q q.his.takesBlank).length) ∧
    (let q := p 1 (BitVec.ofNat 64 (2 ^ 63)) []
     (recentTakes q q.his.takesBlank).length < (declOf q).acceptRateMax ∧ acceptFree q ≠ 0) ∧
    (let q := p 1 (BitVec.ofNat 64 (2 ^ 63)) (List.replicate 1024 ⟨0, 0, 0, 0, 0, 0, 0, false, false, false⟩)
     (recentTakes q q.his.takesBlank).length < (declOf q).acceptRateMax ∧ acceptFree q = 0) ∧
    (let q := { spinning with gr := { spinning.gr with stat := [(7, ⟨9, 1, 5⟩)] } }
     canon q ∧ smapWf (fun _ => Staged.none) q.gr.stat = true ∧ (∀ e ∈ q.gr.stat, e.1 < 8) ∧
     smapGet (fun _ => Staged.none) q.gr.stat 7 ≠ ⟨0, 0, 0⟩ ∧ smapGet (fun _ => Staged.none) q.gr.stat 0 = ⟨0, 0, 0⟩) ∧
    (let q := { spinning with gr := { spinning.gr with status := { spinning.gr.status with acceptReady := true } } }
     q.tk.halt = none ∧ executing q = true ∧ q.gr.status.acceptReady = true) := by decide +kernel

theorem witness_TicksRunsAndHalts_lanes :
    let f : RxFrame := ⟨[5], true, false, true, 4⟩
    let p := { spinning with lanes := { spinning.lanes with
      rx := [(127, { RxLane.init with st := .active, frame := some f, frames := 1, run := 17 })] } }
    canon p ∧ (∀ n < 128, (rxLane p n).frame.all (fun g => decide (g.words.length ≤ 128)) = true) ∧
    (rxLane p 127).st = .active ∧ (rxLane p 127).frames = 1 ∧ 17 ≤ (rxLane p 127).run ∧ (rxLane p 127).frame = some f ∧
    f.good = true ∧ f.pv = true ∧ f.halt = false ∧ (rxLane (presentLanes p) 0).valid = false := by decide +kernel

theorem witness_TicksRunsAndHalts_patrol :
    canon spinning ∧ patrolled spinning 0 = true ∧ patrolled spinning 3 = true ∧ patrolled spinning 4 = false ∧
    smapWf (fun _ => (0 : Nat)) spinning.sp.dPatrol = true ∧ liveInWindow spinning (regionAt spinning 0) = true ∧
    smapGet (fun _ => 0) spinning.sp.dPatrol 0 = 0 ∧
    (let k : Nat := 127 * 16384
     k / 16384 / 32 = 3 ∧ patrolAt spinning spinning.sp.tPatrol 3 = k % 16384 ∧ k ∉ dueTableKeys spinning ∧
     (⟨7, 1⟩ : EccWord).flips ≠ 0 ∧ eccKind ⟨7, 1⟩ = .corrected 0 ∧ (⟨7, 3⟩ : EccWord).flips ≠ 0 ∧ eccKind ⟨7, 3⟩ = .double) ∧
    (let p := { spinning with sp := { spinning.sp with dQueue := [(8191, [255, 0, 1, 2])], iQueue := [(8191, [511])]
                                                       pend := [(8191, ⟨103, 255, 6⟩)] } }
     canon p ∧ smapWf (fun _ => ([] : List Nat)) p.sp.dQueue = true ∧ smapWf (fun _ => ([] : List Nat)) p.sp.iQueue = true ∧
     (∀ e ∈ p.sp.dQueue, ∀ x ∈ e.2, x < 256) ∧ (∀ e ∈ p.sp.iQueue, ∀ x ∈ e.2, x < 512) ∧ patrolled p (8191 / 2048) = true ∧
     smapGet (fun _ => (⟨0, 0, 0⟩ : PendWrite)) p.sp.pend 8191 = ⟨103, 255, 6⟩) := by decide +kernel

theorem witness_RoutersAndTableWrites :
    (let s := at1 spinning
     awake s ∧ blankStep s.part 103 = true ∧ blankStep s.part 104 = false ∧ 3 < blankCv s.part ∧
     smapGet (fun _ => 0) s.part.gr.routerStep (billetNo 3 31) < 103) ∧
    (let p := { spinning with gr := { spinning.gr with
       slots := [((billetNo 1 0 * 16 + 4) * 512, ⟨.inject 1, 7, false⟩), ((billetNo 1 0 * 16 + 4) * 512 + 1, ⟨.input 12, 9, false⟩)]
       inject := [(billetNo 1 0 * 16 + 4, [(8, Injection.accepted ⟨7, 1⟩)])]
       arrive := [(billetNo 1 0 * 16 + 12, [(8, ⟨9, 3⟩)])] } }
     colHeld p 1 = false ∧ slotAt p (billetNo 1 0) 4 8 = ⟨.inject 1, 7, false⟩ ∧
     smapGet (fun _ => []) p.gr.inject (billetNo 1 0 * 16 + 4) = [(8, Injection.accepted ⟨7, 1⟩)] ∧
     slotAt p (billetNo 1 0) 4 9 = ⟨.input 12, 9, false⟩ ∧
     smapGet (fun _ => []) p.gr.arrive (billetNo 1 0 * 16 + 12) = [(if farChannel 4 = 12 then 8 else 9 - 1, ⟨9, 3⟩)] ∧
     smapGet (fun _ => []) { p with gr := { p.gr with arrive := [] } }.gr.arrive (billetNo 1 0 * 16 + 12) = []) ∧
    slotAt spinning (billetNo 1 0) 4 8 = ⟨.empty, 0, false⟩ ∧
    (Machine.segment (blankC spinning) (blankCv spinning) 0 31 4).isSome = true := by decide +kernel

/-- The 16 bytes of an entry of a TABLE_WRITE. -/
def entryBytes (col row addr w : Nat) : List Byte := leBytes 8 w ++ leBytes 2 addr ++ leBytes 1 col ++ leBytes 1 row ++ leBytes 4 0

theorem witness_RoutersAndTableWrites_tables :
    let list := entryBytes 3 31 16383 5
    let h (u0 : Nat) (n : Nat) := hdr 0x51 [(0x08, u0), (0x10, 0x100000), (0x18, n)]
    let p := windowed { loaded with tk := { loaded.tk with tick := 100 } }
    let r := windowed spinning
    tableEntries 1 list = [(3, 31, 16383, 5)] ∧ entriesClean 1 list = true ∧ tableListBad p (tableEntries 1 list) = false ∧
    tableListBad p (tableEntries 2 (list ++ list)) = true ∧ entriesClean 1 (leBytes 16 (2 ^ 127)) = false ∧
    awake (with1 (h 0 1) p) ∧ canon p ∧ dmaOk p = true ∧ inWindow p .read 0x100000 16 = true ∧
    inWindow p .read 0x100000 32 = true ∧ p.tk.fab ∈ [FabState.loaded, .admitted, .stopped] ∧
    (∀ u ∈ [0, 100 + fld p GRN_TBL_WRITE_LEAD, 99 + fld p GRN_TBL_WRITE_LEAD, 101 + fld p GRN_TBL_WRITE_LEAD + 2 ^ 24],
      commandRuns (picked (h u 1) p) (h u 1) 0x51 ∧ (h u 1).par 0x08 8 = u ∧ (h u 1).par 0x10 8 = 0x100000 ∧ (h u 1).par 0x18 2 = 1) ∧
    (commandRuns (picked (h 0 1) r) (h 0 1) 0x51 ∧ r.tk.fab = .running ∧ tableListBad r (tableEntries 1 list) = false ∧
     colHeld r (billetNo 3 31 / 32) = false) ∧
    (commandRuns (picked (h 0 1) up) (h 0 1) 0x51 ∧ up.tk.fab = .off) ∧
    (let p := { up with tk := { up.tk with fab := .halted } }; commandRuns (picked (h 0 1) p) (h 0 1) 0x51 ∧ p.tk.fab = .halted) := by
  decide +kernel

theorem witness_RoutersAndTableWrites_apply :
    (let c : TableWriteCmd := ⟨hdr 0x51 [], [(127, 16383, 5)], 0⟩
     let s := at1 { spinning with gr := { spinning.gr with held := [c] } }
     awake s ∧ executing s.part = true ∧ s.part.gr.held = [c] ∧ c.tick ≤ s.part.tk.tick ∧
     (∀ e ∈ c.entries, colHeld s.part (e.1 / 32) = false) ∧ canon s.part ∧
     c.entries.Pairwise (fun e f => e.1 ≠ f.1) ∧ (∀ e ∈ c.entries, e.2.1 < 16384)) ∧
    (let c : TableWriteCmd := ⟨hdr 0x51 [], [(0, 0, 5)], 9⟩
     let s := at1 { incoming .held .running with gr := { spinning.gr with held := [c] } }
     awake s ∧ executing s.part = true ∧ c.tick ≤ s.part.tk.tick ∧ (∃ e ∈ c.entries, colHeld s.part (e.1 / 32) = true)) := by
  decide +kernel

/-! ### Witnesses: lanes -/

/-- A loaded part in tick 7 whose transmit and receive group 15 (and receive group 0) run at 64 Gb/s. -/
def lined : Part :=
  fields { loaded with tk := { loaded.tk with reached := true, tick := 7 } }
    [(LNK_RX_EN, 15, 1), (LNK_TX_EN, 15, 1), (LNK_RX_RATE, 15, 3), (LNK_TX_RATE, 15, 3),
     (LNK_RX_LANE_EN, 15, 255), (LNK_TX_LANE_EN, 15, 255)]

/-- That part with receive lane 127 and transmit lane 127 as given. -/
def laned (r : RxLane) (l : TxLane) : State := at1 (setTx (setRx lined 127 r) 127 l)

/-- A receive lane in a state. -/
def rxIn (st : LaneSt) : RxLane := { RxLane.init with st := st }

/-- A transmit lane in a state. -/
def txIn (st : LaneSt) (pat : TrainPat) : TxLane := { TxLane.init with st := st, pat := pat }

/-- A capability message of a peer with the group's rate and the part's tick period. -/
def peerCap : Nat := 3 * 2 ^ 20 + fld lined FAB_T_NS * 2 ^ 64 + fld lined FAB_T_FRAC / 64 * 2 ^ 86

theorem witness_LaneStateMachines_transmit :
    (let s := laned .init (txIn .detect .tp1); awake s ∧ canon s.part ∧ (txLane s.part 127).st = .detect) ∧
    (let s := laned .init (txIn .train .tp1); (txLane s.part 127).st = .train ∧ (txLane s.part 127).pat = .tp1) ∧
    (let s := laned .init (txIn .train .tp2); (txLane s.part 127).st = .train ∧ (txLane s.part 127).pat = .tp2) ∧
    (let s := laned .init (txIn .train .tp2Done)
     (txLane s.part 127).st = .train ∧ (txLane s.part 127).pat = .tp2Done ∧ s.part.tk.reached = true ∧
     txFramable s.part (127 / 8) = true) := by decide +kernel

theorem witness_LaneStateMachines_bringUp :
    (let s := laned (rxIn .detect) .init
     awake s ∧ canon s.part ∧ (rxLane s.part 127).st = .detect ∧ inStandby s.part = false ∧
     fldI s.part LNK_RX_RATE (127 / 8) = 3 ∧ fldI s.part LNK_RX_RATE (127 / 8) ≠ 0) ∧
    (rxLane (laned (rxIn .train) .init).part 127).st = .train ∧
    (rxLane (laned (rxIn .lock) .init).part 127).st = .lock ∧
    (rxLane (laned (rxIn .exchange) .init).part 127).st = .exchange ∧
    (let s := laned { rxIn .exchange with attempts := 255 } .init
     let q := fields s.part [(LNK_RETRY_MAX, 0, 255)]
     (rxLane q 127).st ∈ [LaneSt.detect, .train, .lock, .exchange] ∧ fld q LNK_RETRY_MAX ≠ 0 ∧
     fld q LNK_RETRY_MAX ≤ (rxLane q 127).attempts) := by decide +kernel

theorem witness_LaneStateMachines_active :
    (let s := laned { rxIn .active with lost := 65535 } .init
     awake s ∧ canon s.part ∧ (rxLane s.part 127).st = .active ∧
     fld s.part LNK_LOSS_FRAMES ≤ (rxLane s.part 127).lost) ∧
    (let s := laned { rxIn .active with syncFails := 3 } .init
     canon s.part ∧ (rxLane s.part 127).st = .active ∧ rxFramable s.part (127 / 8) = true ∧
     3 ≤ (rxLane s.part 127).syncFails ∧ (decodeFrame (rxF s.part 127) []).sync ≠ 0x4E79) ∧
    (let s := laned { rxIn .exchange with capWait := some peerCap } .init
     let m := peerCap
     (rxLane s.part 127).capWait = some m ∧ (rxLane s.part 127).st = .exchange ∧
     natBits m 20 2 = fldI s.part LNK_RX_RATE (127 / 8) ∧ natBits m 64 22 = fld s.part FAB_T_NS ∧
     natBits m 86 26 = fld s.part FAB_T_FRAC / 64) ∧
    (let s := laned { rxIn .exchange with capWait := some 0 } .init
     natBits 0 20 2 ≠ fldI s.part LNK_RX_RATE (127 / 8) ∧ (rxLane s.part 127).capWait = some 0) ∧
    (let m := 3 * 2 ^ 20
     let s := laned { rxIn .exchange with capWait := some m } .init
     natBits m 20 2 = fldI s.part LNK_RX_RATE (127 / 8) ∧ natBits m 64 22 ≠ fld s.part FAB_T_NS) ∧
    (let m := 2 ^ 24
     let q := fields (laned { rxIn .active with tmWait := some m } { txIn .active .tp1 with txs := [(0, 5)] }).part
       [(TIM_SRC, 0, 1), (TIM_SRC_LANE, 0, 127), (LNK_RX_TM_EN, 15, 1)]
     (rxLane q 127).tmWait = some m ∧ fldI q LNK_RX_TM_EN (127 / 8) = 1 ∧ natBits m 24 1 = 1 ∧ fld q TIM_SRC = 1 ∧
     fld q TIM_SRC_LANE = 127 ∧ (txLane q 127).txs = [(natBits m 16 8, 5)]) ∧
    (fld lined TIM_SRC ≠ 1 ∨ fld lined TIM_SRC_LANE ≠ 127) := by decide +kernel

theorem witness_LaneStateMachines_figures :
    let m := 2 ^ 24
    let q := fields (laned { rxIn .active with tmWait := some m } { txIn .active .tp1 with txs := [(0, 5)] }).part
      [(LNK_RX_TM_EN, 15, 1)]
    let u := (laned { rxIn .active with tmWait := some m } .init).part
    fldI q LNK_RX_TM_EN (127 / 8) = 1 ∧ (rxLane q 127).tmWait = some m ∧ natBits m 24 1 = 1 ∧
    (txLane q 127).txs = [(natBits m 16 8, 5)] ∧ (fld q TIM_SRC ≠ 1 ∨ fld q TIM_SRC_LANE ≠ 127) ∧
    (rxLane u 127).tmWait = some m ∧ (∀ x ∈ (txLane u 127).txs, x.1 ≠ natBits m 16 8) := by decide +kernel

theorem witness_LinkControlCommands :
    (∀ a ∈ [0, 1, 2, 3, 4], ∀ dir ∈ [0, 1, 2], let h := hdr 0x10 [(8, dir), (9, 15), (10, 255), (11, a)]
     let s := with1 h lined
     awake s ∧ canon s.part ∧ commandRuns s.part h 0x10 ∧ unitReady s.part 8 ∧ h.par 0x08 1 = dir ∧ h.par 0x09 1 = 15 ∧
     h.par 0x0A 1 = 255 ∧ h.par 0x0B 1 = a) ∧
    (fldI lined LNK_RX_EN 15 = 1 ∧ fldI lined LNK_TX_EN 15 = 1 ∧
     (∀ j < 8, rxEnabled lined (8 * 15 + j) = true ∧ txEnabled lined (8 * 15 + j) = true)) ∧
    (let h := hdr 0x10 [(9, 16)]; commandRuns (picked h lined) h 0x10 ∧ h.par 0x09 1 = 16) := by decide +kernel

theorem witness_FramesSentAndReceived_send :
    (let s := laned .init (txIn .active .tp1)
     awake s ∧ canon s.part ∧ s.part.tk.tick = 7 ∧ (txLane s.part 127).st = .active ∧ s.part.tk.reached = true ∧
     (txLane s.part 127).sentTick ≠ some 7 ∧ txFramable s.part (127 / 8) = true ∧ msgAt s.part 127 7 = none ∧
     haltCovers s.part.tk.partHaltFrom 7 = false ∧ haltCovers s.part.tk.fabHaltFrom 7 = false ∧
     txDeclared s.part 127 = 0 ∧ rdoLane s.part 127 = false) ∧
    (let s := laned .init (txIn .active .tp1)
     let d : Decl := { Decl.none with txWords := [(127, 2)] }
     let q := { s.part with blank := some { admissible with decl := d }
                            tk := { s.part.tk with fabHaltFrom := some 7, partHaltFrom := none, pvEast := true } }
     0 < txDeclared q 127 ∧ haltCovers q.tk.fabHaltFrom 7 = true ∧ haltCovers q.tk.fabHaltFrom 6 = false ∧
     rdoLane q 127 = false ∧ (if (127 : Nat) < 64 then q.tk.pvWest else q.tk.pvEast) = true ∧ msgAt q 127 7 = none) ∧
    haltCovers (some 7) 7 = true ∧
    (let q := fields (laned .init (txIn .active .tp1)).part [(LNK_RDO_ASSIGN, 3, 0x80000000)]
     rdoLane q 127 = true ∧ msgAt q 127 7 = none ∧ haltCovers q.tk.partHaltFrom 7 = false ∧ txDeclared q 127 = 0 ∧
     smapWf (fun _ => (⟨[], 0⟩ : LaneBuf)) q.rdo.lanes = true) ∧
    (let q := { (laned .init (txIn .active .tp1)).part with tk := { lined.tk with tick := 512 } }
     q.tk.tick % 1024 = 512 ∧ haltCovers q.tk.partHaltFrom 512 = false ∧ rdoLane q 127 = false ∧ txDeclared q 127 = 0 ∧
     q.tk.reached = true ∧ txFramable q 15 = true ∧ (txLane q 127).sentTick ≠ some 512) := by decide +kernel

theorem witness_FramesSentAndReceived_take :
    (let s := laned { rxIn .active with seq := some 255 } .init
     awake s ∧ canon s.part ∧ (rxLane s.part 127).st = .active ∧ rxFramable s.part (127 / 8) = true ∧
     (rxLane s.part 127).seq = some 255 ∧ 0 = (255 + 1) % 256 ∧ frameP (rxF s.part 127) = 2) ∧
    (let s := laned { rxIn .active with seq := some 5 } .init
     let b := encodeFrame (rxF s.part 127) 6 1 [2, 3]
     let d := decodeFrame (rxF s.part 127) (b.set 100 (!b.getD 100 false))
     d.seq = (5 + 1) % 256 ∧ d.ctrl.testBit 7 = false ∧ d.sync = 0x4E79 ∧ d.stuffOk = true ∧ d.crcOk = false) := by
  decide +kernel

theorem witness_FrameDecodeEncode : 56 + frameQ 250 ≤ 250 ∧ ([2, 3] : List Word).length = frameP 250 ∧
    56 + frameQ 1000000 ≤ 1000000 ∧ ([2, 3] : List Word).length = frameP (rxF lined 127) := by decide +kernel


/-! ### Witnesses: history and readout -/

/-- A part whose history holds the given pages, and whose readout cores have started. -/
def paged (l : List HPage) : Part :=
  fields { spinning with his := { spinning.his with pages := l } }
    [(SYS_RDO_STARTED, 0, 1), (SEAL_BASE_MIB, 0, 2048), (SEAL_SIZE_MIB, 0, 16), (SEAL_INIT, 0, 31),
     (HIS_HW_FIRST, 0, 32768), (HIS_HW_COUNT, 0, 16), (SEAL_KID_LIVE, 0, 1)]

/-- A page of one history word, one tick. -/
def page (st : HwState) (pins : List Nat) : HPage := ⟨3, 5, 1, 8192, 0, 0, st, false, pins, false, true, [(5, [7])]⟩

/-- A small page that is done. -/
def small (st : HwState) (pins : List Nat) : HPage := { page st pins with perPage := 1, done := true }

/-- An accept of tick 5, a window of one tick, and one of the widest window. -/
def acc5 (complete : Bool) : AcceptEntry := ⟨9, 5, 0, 0, 7, 0xAB, 1, false, complete, false⟩
def accWide : AcceptEntry := ⟨10, 4095, 4095, 4095, 0, 0, 2, true, false, false⟩

theorem witness_HistoryPagesAndAccepts_pages :
    (let s := at1 { paged [page .filling []] with his := { (paged [page .filling []]).his with handed := [(6, [8])] } }
     awake s ∧ s.part.tk.fab = .running ∧ s.part.his.handed = (6, [8]) :: [] ∧
     s.part.his.pages.getLast? = some (page .filling []) ∧
     (∀ x ∈ s.part.his.pages, x.id = (page .filling []).id → x = page .filling []) ∧ (page .filling []).done = false ∧
     (page .filling []).first + (page .filling []).ticks.length = 6 ∧ (page .filling []).words = 1 ∧
     (page .filling []).ticks.length + 1 < (page .filling []).perPage) ∧
    (∀ pins ∈ [[], [9]], let p := paged [small .spill pins]
      p.his.pages.find? (fun g => g.id == 3 && g.st == .spill) = some (small .spill pins) ∧ partHalted p = false ∧
      (sealWrite p .history (hwAddress p (small .spill pins).hw) (pageBytes (small .spill pins))).2 = .ok) ∧
    (let p := fields (paged [small .spill []]) [(SEAL_INIT, 0, 0)]
     (sealWrite p .history (hwAddress p (small .spill []).hw) (pageBytes (small .spill []))).2 = .errWindow) := by
  decide +kernel

theorem witness_HistoryPagesAndAccepts_release :
    (let p := paged [small .release []]
     p.his.pages.find? (fun g => g.id == 3 && g.st == .release) = some (small .release []) ∧
     (sealWrite p .history (hwAddress p (small .release []).hw) (linkBytes p.his.freed)).2 = .ok ∧
     (∀ x ∈ (sealWrite p .history (hwAddress p (small .release []).hw) (linkBytes p.his.freed)).1.his.pages,
       x.waitsHw = false)) ∧
    (let p := { paged [small .release []] with sm := { (paged []).sm with stopped := true } }
     (sealWrite p .history (hwAddress p (small .release []).hw) (linkBytes p.his.freed)).2 = .errHalted) ∧
    (let p := { paged [small .retained []] with tk := { (paged []).tk with tick := 250006 } }
     awake (at1 p) ∧ partHalted p = false ∧ lastTick (small .retained []) + 1 + fld p HIS_RET ≤ p.tk.tick) := by
  decide +kernel

theorem witness_HistoryPagesAndAccepts_fill :
    (let g := { page .filling [] with perPage := 2 }
     let p := { paged [small .spill [], g] with his := { (paged [small .retained [], { g with id := 4 }]).his with handed := [(6, [8])] } }
     partHalted p = false ∧ p.his.pages.getLast? = some { g with id := 4 } ∧ (p.his.pages.map (·.id)).Nodup ∧
     (∀ x ∈ p.his.pages, x.id = 4 → x = { g with id := 4 }) ∧ g.done = false ∧ g.first + g.ticks.length = 6 ∧ g.words = 1 ∧
     g.perPage ≤ g.ticks.length + 1 ∧ g.st = .filling ∧ (∀ x ∈ p.his.pages.dropLast, x.st ≠ .filling)) ∧
    (∀ st ∈ [HwState.filling, .spill], let p := paged [small st []]
     partHalted p = false ∧ p.his.pages.filter (fun x => x.frame == 0 && x.inSap) = [small st []] ∧
     (∀ x ∈ p.his.pages, x.id = (small st []).id → x = small st []) ∧ (small st []).st = st ∧ canon p) := by decide +kernel

theorem witness_HistoryPagesAndAccepts_open :
    let p (l : List HPage) := { paged l with his := { (paged l).his with handed := [(6, [8])], nextPage := 4, frame := 0 } }
    let f (q : Part) : Nat := if sapFrames q ≤ q.his.frame + 1 then 0 else q.his.frame + 1
    (awake (at1 (p [])) ∧ (p []).tk.fab = .running ∧ partHalted (p []) = false ∧ 1 < ticksPerPage 1 ∧
     0 < freePages (p []) ∧ (p []).his.freed = []) ∧
    (∀ st ∈ [HwState.retained, .pinned], let q := fields (p [small st []]) [(HIS_HW_COUNT, 0, 1)]
     (∀ x ∈ q.his.pages, x.done = true ∧ x.id < q.his.nextPage ∧ (x.frame = f q → x.inSap = false)) ∧
     freePages q = 0 ∧ canon q ∧
     oldestRetained q.his.pages = if st = .retained then some (small .retained []) else none) := by decide +kernel

/-- A header of ACCEPT. -/
def acceptHdr (tick before after : Nat) : Hdr := hdr 0x18 [(8, tick), (0x10, before), (0x12, after), (0x14, 1), (0x15, 0xAB)]

theorem witness_HistoryPagesAndAccepts_accepts :
    (let s := at1 (fields spinning [(HIS_ACCEPT_IN_EN, 0, 1), (HIS_EXT_MAX, 0, 1)])
     awake s ∧ s.part.tk.fab = .running ∧ inD3 s.part = false ∧ fld s.part HIS_ACCEPT_IN_EN = 1 ∧
     externalRefusal s.part = none) ∧
    (let s := at1 (fields spinning [(HIS_ACCEPT_IN_EN, 0, 1), (HIS_EXT_MAX, 0, 0)])
     externalRefusal s.part = some 3 ∧ canon s.part) ∧
    (awake (at1 up) ∧ up.tk.fab ≠ .running ∧ inD3 up = false) ∧
    (let h := acceptHdr 65535 4095 4095
     let s := with1 h { fields spinning [(HIS_EXT_MAX, 0, 1024)] with rdo := { spinning.rdo with graph := some ⟨[], 1, 64⟩ } }
     awake s ∧ commandRuns s.part h 0x18 ∧ unitReady s.part 9 ∧ s.part.tk.halt = none ∧ h.par 0x10 2 = 4095 ∧
     h.par 0x12 2 = 4095 ∧ h.par 8 8 ≤ s.part.tk.tick + 65535 ∧ s.part.tk.fab = .running ∧ s.part.rdo.graph ≠ none ∧
     externalRefusal s.part = none ∧ externalRefusal (fields s.part [(HIS_EXT_MAX, 0, 0)]) = some 3) ∧
    (∀ h ∈ [acceptHdr 0 4096 0, acceptHdr 0 0 4096, acceptHdr 65536 0 0], let s := with1 h spinning
     commandRuns s.part h 0x18 ∧ unitReady s.part 9 ∧ s.part.tk.halt = none ∧
     (4095 < h.par 0x10 2 ∨ 4095 < h.par 0x12 2 ∨ s.part.tk.tick + 65535 < h.par 8 8)) ∧
    (let h := acceptHdr 0 0 0
     let s := with1 h { spinning with tk := { spinning.tk with halt := some ⟨false, .sw⟩ } }
     awake s ∧ commandRuns s.part h 0x18 ∧ unitReady s.part 9 ∧ s.part.tk.halt ≠ none) := by decide +kernel

/-- A graph of three nodes: GATHER, PACK and RELEASE, in a chain. -/
def graph3 : Graph := ⟨[⟨1, 3, true, 0, [1], 0⟩, ⟨3, 2, false, 1, [2], 1⟩, ⟨7, 1, false, 1, [], 0⟩], 1, 128⟩

/-- The words of that graph as an image. -/
def graphImage : List Byte :=
  leBytes 4 0x52474452 ++ leBytes 2 1 ++ leBytes 2 3 ++ leBytes 2 2 ++ leBytes 2 0 ++ leBytes 4 1 ++ leBytes 4 128 ++
  leBytes 4 0 ++ leBytes 8 0 ++
  ([1, 0xB, 0, 1, 0, 0, 0, 0] ++ leBytes 8 0) ++ ([3, 2, 1, 1, 1, 0, 0, 0] ++ leBytes 8 1) ++
  ([7, 1, 1, 0, 2, 0, 0, 0] ++ leBytes 8 0) ++ [1, 0, 2, 0]

/-- An instance of it in slot 0, with 8 bytes in buffer 0. -/
def inst0 : Instance := ⟨0, acc5 true, [], [(1, 1), (2, 1)], false, false, [(0, [(0, 8)])], 0⟩

/-- A part that holds the instance, with core 31 in a task of node `n`. -/
def busy (nodes : List GraphNode) (n : Nat) (ph : TaskPhase) : Part :=
  let p := paged [small .retained [9]]
  { p with his := { p.his with accepts := [acc5 true] }
           rdo := { p.rdo with graph := some { graph3 with nodes := nodes }, insts := [inst0]
                               cores := [(31, .busy ⟨0, n, 3, 0⟩ 0 ph)] } }

theorem witness_ReadoutInstancesAndTasks_start :
    (let p := { paged [] with his := { (paged []).his with accepts := [acc5 false, accWide] }
                              tk := { (paged []).tk with tick := 7 } }
     awake (at1 p) ∧ partHalted p = false ∧ (p.his.accepts.map (·.id)).Nodup ∧ (windowDue p (acc5 false)).isSome = true ∧
     windowDue p accWide = none) ∧
    (let p := { paged [] with his := { (paged []).his with accepts := [acc5 true] }
                              rdo := { (paged []).rdo with graph := some graph3, order := [9] } }
     p.rdo.order = 9 :: [] ∧ p.rdo.graph = some graph3 ∧ freeSlot p = some 0 ∧
     (p.rdo.insts.length + 1) * graph3.nodes.length ≤ 65536 ∧
     p.his.accepts.find? (fun a => a.id == 9) = some (acc5 true)) ∧
    (let p := { paged [] with rdo := { (paged []).rdo with
       graph := some graph3, insts := [inst0], queue := [⟨0, 0, 3, 0⟩, ⟨0, 1, 7, 0⟩] } }
     awake (at1 p) ∧ partHalted p = false ∧ idleCore p = some 0 ∧ pickTask p = some ⟨0, 1, 7, 0⟩ ∧ p.rdo.parked = [] ∧
     canon p ∧ smapWf (fun _ => false) p.rdo.stallMode = true) := by
  decide +kernel

theorem witness_ReadoutInstancesAndTasks_end :
    (let p := busy graph3.nodes 0 (.acted true)
     awake (at1 p) ∧ partHalted p = false ∧ coreStalled p 31 = false ∧ stickyError p (8 + 31) = false ∧
     coreState p 31 = .busy ⟨0, 0, 3, 0⟩ 0 (.acted true) ∧
     (graphNode p 0).typ < 8 ∧ instanceAt p 0 = some inst0 ∧ smapWf (fun _ => CoreState.idle) p.rdo.cores = true ∧
     (graphNode p 0).typ ≠ 7 ∧ (graphNode p 0).succ = [1] ∧ smapGet (fun _ => 0) inst0.counters 1 = 1 ∧
     p.rdo.queue.length < 4096) ∧
    (let p := busy graph3.nodes 2 (.acted true)
     coreState p 31 = .busy ⟨0, 2, 3, 0⟩ 0 (.acted true) ∧ (graphNode p 2).typ = 7) ∧
    (let p := busy [⟨1, 0, false, 0, [], 0⟩] 0 .running
     coreState p 31 = .busy ⟨0, 0, 3, 0⟩ 0 .running ∧ (graphNode p 0).typ ≠ 7 ∧ (graphNode p 0).succ = [] ∧ canon p) ∧
    (let p := busy [⟨5, 0, false, 0, [1], 31⟩] 0 .waiting
     coreState p 31 = .busy ⟨0, 0, 3, 0⟩ 0 .waiting ∧ (graphNode p 0).typ = 5 ∧
     partHalted p = false) := by decide +kernel

theorem witness_ReadoutInstancesAndTasks_load :
    (let h := hdr 0x19 [(8, 0x100000), (16, graphImage.length)]
     let s := with1 h (windowed up)
     let b := fitBytes (h.par 0x10 4) graphImage
     awake s ∧ commandRuns s.part h 0x19 ∧ unitReady s.part 10 ∧ s.part.tk.fab ∈ [FabState.off, .loaded, .stopped] ∧
     s.part.his.accepts = [] ∧ inWindow s.part .read (h.par 0x08 8) (h.par 0x10 4) = true ∧ dmaOk s.part = true ∧
     graphShapeOk b = true ∧ (List.range (leAt b 6 2)).map (parseNode b (leAt b 6 2)) = graph3.nodes ∧
     (List.range (leAt b 8 2)).map (graphEdge b (leAt b 6 2)) = [1, 2] ∧ graphSound graph3.nodes [1, 2] = true ∧
     (∀ x ∈ graph3.nodes, x.typ < 8) ∧ leAt b 0x14 4 ≤ fld s.part HST_RT) ∧
    (let h := hdr 0x1A [(8, 7), (0xA, 0xFFFF), (0xC, 0xFFFF), (0xE, 1)]
     let s := with1 h up; awake s ∧ commandRuns s.part h 0x1A ∧ unitReady s.part 10 ∧ canon s.part ∧
       (h.par 0x08 1).testBit 1 = true ∧ h.par 0x0C 2 ≠ 0) ∧
    (let h := hdr 0x1A [(8, 5), (0xA, 0xFFFF), (0xE, 1)]
     let s := with1 h up; commandRuns s.part h 0x1A ∧ (h.par 0x08 1).testBit 1 = false) ∧
    (let h := hdr 0x1A [(8, 2)]
     let s := with1 h up; commandRuns s.part h 0x1A ∧ (h.par 0x08 1).testBit 1 = true ∧ h.par 0x0C 2 = 0) := by
  decide +kernel

theorem witness_ReadoutNodes_gather :
    (let p := { busy [⟨1, 0, false, 0, [], 1 * 2 ^ 60⟩] 0 .running with
                blank := some { blank4 with decl := { Decl.none with histMask := [(0, 1)] } } }
     let prm := (graphNode p 0).param
     awake (at1 p) ∧ partHalted p = false ∧ coreStalled p 31 = false ∧ coreState p 31 = .busy ⟨0, 0, 3, 0⟩ 0 .running ∧
     instanceAt p 0 = some inst0 ∧ (graphNode p 0).typ = 1 ∧ natBits prm 0 11 = 0 ∧ natBits prm 11 11 + 1 = 1 ∧
     natBits prm 60 4 = 1 ∧ inst0.acc.before = 0 ∧ inst0.acc.after = 0 ∧ 0 + 1 ≤ histH p ∧
     pageOf p inst0.acc.tick = some (small .retained [9]) ∧ (small .retained [9]).inSap = true ∧
     (small .retained [9]).ticks.find? (fun e => (e.1 : Int) == inst0.acc.tick) = some (5, [7])) := by decide +kernel

theorem witness_ReadoutNodes_buffers :
    (let p := busy [⟨2, 0, false, 0, [], 0x20⟩] 0 .running
     (graphNode p 0).typ = 2 ∧ natBits (graphNode p 0).param 4 4 = 2 ∧
     (readBufs p 0 [natBits (graphNode p 0).param 0 4]).2 = some (List.replicate 8 0)) ∧
    (let p := busy [⟨3, 0, false, 0, [], 1⟩] 0 .running
     (graphNode p 0).typ = 3 ∧ (List.range 16).filter (fun c => (natBits (graphNode p 0).param 0 16).testBit c) = [0] ∧
     (readBufs p 0 [0]).2 = some (List.replicate 8 0)) ∧
    (let p := busy [⟨4, 0, false, 0, [], 0⟩] 0 .running
     (graphNode p 0).typ = 4 ∧ (readBufs p 0 [15]).2 = some []) ∧
    (let p := busy [⟨2, 0, false, 0, [], 0x20⟩] 0 .running
     (readBufs { p with sm := { p.sm with stopped := true } } 0 [0]).2 = none) ∧
    (graphNode (busy [⟨7, 0, false, 0, [], 0⟩] 0 .running) 0).typ = 7 := by decide +kernel

theorem witness_ReadoutNodes_append :
    (let p := busy [⟨3, 0, false, 0, [], 1⟩] 0 .running
     instanceAt p 0 = some inst0 ∧ p.rdo.graph = some { graph3 with nodes := [⟨3, 0, false, 0, [], 1⟩] } ∧
     workUsed inst0 = 8 ∧ ([1, 2, 3] : List Byte) ≠ [] ∧ workUsed inst0 + 3 ≤ 128 ∧
     (sealWrite p .cores (workArea 0 + 8) [1, 2, 3]).2 = .ok ∧ 128 < workUsed inst0 + (List.replicate 121 (0 : Byte)).length) := by
  decide +kernel

/-- Does a put answer that the record is written, waits, or is too long? -/
def putKind : RingPut → Nat
  | .written _ => 0
  | .waits => 1
  | .tooLong _ => 2

/-- That part with readout ring 31 of 2 to the `n` bytes. -/
def ring31 (n : Nat) (p : Part) : Part :=
  fields (windowed p) [(HIF_RDO_EN, 31, 1), (HIF_RDO_LOG2, 31, n), (HIF_RDO_ADDR_LO, 31, 0x100)]

theorem witness_ReadoutNodes_sends :
    (let p := busy [⟨5, 0, false, 0, [], 31⟩] 0 .running
     (graphNode p 0).typ = 5 ∧ (31 : Fin 32).val = natBits (graphNode p 0).param 0 5 ∧
     (readBufs p 0 [15]).2 = some [] ∧ putKind (rdoPut (ring31 16 p) 31 1 (acceptRecord inst0 [] 0)) = 0 ∧
     putKind (rdoPut (ring31 5 p) 31 1 (acceptRecord inst0 [] 0)) = 2 ∧
     putKind (rdoPut (fields (ring31 16 p) [(HIF_RDO_EN, 31, 0)]) 31 1 (acceptRecord inst0 [] 0)) = 1) ∧
    (let p := fields (busy [⟨6, 0, false, 0, [], 127⟩] 0 .running)
       [(LNK_RDO_ASSIGN, 3, 0x80000000), (LNK_TX_RATE, 15, 3)]
     (graphNode p 0).typ = 6 ∧ 127 = natBits (graphNode p 0).param 0 7 ∧ rdoLane p 127 = true ∧
     txFramable p (127 / 8) = true ∧ 2 ≤ frameP (txF p 127) ∧ (readBufs p 0 [15]).2 = some [] ∧
     (laneBuf p 127).words.length + (recordWords (acceptRecord inst0 [] (seqOf p (32 + 127)))).length ≤ 32768 ∧
     smapWf (fun _ => (⟨[], 0⟩ : LaneBuf)) p.rdo.lanes = true ∧ smapWf (fun _ => (0 : Nat)) p.rdo.seqs = true) := by
  decide +kernel

/-! ### Witnesses: sealed memory -/

/-- A part with sealed region 2 of 16 MiB from 2,048 MiB, for every initiator; identity 0 current, the identities of
`live` not retired. -/
def sealed (live : Nat) : Part :=
  fields up [(SEAL_BASE_MIB, 0, 2048), (SEAL_SIZE_MIB, 0, 16), (SEAL_INIT, 0, 31), (SEAL_KID_LIVE, 0, live)]

/-- Nothing is disturbed in a part whose sealed memory is as a reset leaves it and whose identity 0 is current. -/
theorem clean_of_init (p : Part) (h : p.sm = SealState.init) (hk : kidRetired p 0 = false) (hc : curKid p = 0) :
    sealClean p := by
  have hl : ∀ l, sealLine p l = SealLine.zero := fun l => by simp [sealLine, h, SealState.init, smapGet]
  have hz : ∀ l, lineKid p l = 0 := fun l => by simp [lineKid, hl, SealLine.zero, chunkKid, h, SealState.init, smapGet]
  have hb : ∀ s l i, blockKid p s l i = 0 := fun s l i => by simp [blockKid, h, SealState.init, smapGet]
  refine ⟨fun l => by rw [hl]; rfl, by rw [h]; rfl, by rw [h]; rfl, by rw [h]; decide, fun l => ?_, fun s l i => ?_, ?_⟩
  · rw [hz]; exact ⟨by decide, hk⟩
  · rw [hb]; exact hk
  · rw [hc]; exact hk

theorem witness_SealedMemoryAndRekeys_clean :
    sealClean (sealed 1) ∧ sealClean { sealed 1 with sm := { SealState.init with walk := some (2, some (hdr 0x38 [])) } } := by
  refine ⟨clean_of_init _ rfl (by decide +kernel) (by decide +kernel), ?_⟩
  have h := clean_of_init (sealed 1) rfl (by decide +kernel) (by decide +kernel)
  exact h

theorem witness_SealedMemoryAndRekeys_accesses :
    (let s := at1 (sealed 1)
     awake s ∧ canon s.part ∧ s.part.sm.stopped = false ∧ partHalted s.part = false ∧ hbmReady s.part = true ∧
     rgnFor s.part .cores 0x80FFFFFF 1 = some 2 ∧ rgnFor s.part .cores 0x80FFFFFF 2 = none ∧
     rgnFor s.part .headstock 0x80000000 ([1, 2, 3] : List Byte).length = some 2 ∧
     smapWf (fun _ => SealLine.zero) s.part.sm.lines = true ∧ fld s.part SEAL_FAIL_CAUSE = 0) ∧
    { (sealed 1).sm with stopped := true }.stopped = true ∧
    (let p := { sealed 1 with boot := { up.boot with stack1 := .failed } }
     p.sm.stopped = false ∧ partHalted p = false ∧ hbmReady p = false) := by decide +kernel

/-- One bit of the line at 2,048 MiB is inverted in its stack. -/
def upset : Part := applyDisturb (sealed 1) ⟨0, .data, BitVec.ofNat 32 (2 ^ 31 / 128), 1⟩

theorem witness_SealedMemoryAndRekeys_failure :
    (sealLine upset (2 ^ 31 / 64)).flips ≠ 0 ∧ lineKid upset (2 ^ 31 / 64) < 4 ∧
    kidRetired upset (lineKid upset (2 ^ 31 / 64)) = false ∧
    lineMac upset 0 (2 ^ 31 / 64) (storedLine upset (2 ^ 31 / 64)) ≠
      lineMac upset 0 (2 ^ 31 / 64) (sealedData upset (2 ^ 31 / 64)) ∧ canon upset := by decide +kernel

theorem witness_SealedMemoryAndRekeys_rekey :
    (∀ k ∈ [0, 1, 2, 3, 15], let h := hdr 0x38 [(8, k)]
     let s := with1 h (sealed 1)
     awake s ∧ commandRuns s.part h 0x38 ∧ unitReady s.part 13 ∧ s.part.sm.stopped = false ∧ hbmReady s.part = true ∧
     h.par 0x08 1 = k ∧ (2 ≤ k ∧ rgnSize s.part k ≠ 0 ↔ k = 2) ∧ nextKid s.part = some 1 ∧ s.part.sm.walk = none ∧
     canon s.part ∧ smapWf (fun _ => (0 : Nat)) s.part.sm.use = true) ∧
    nextKid (sealed 15) = none ∧
    (let s := at1 { sealed 1 with sm := { SealState.init with walk := some (2, some (hdr 0x38 [])) } }
     awake s ∧ sealState s.part = 2 ∧ smapWf (fun _ => SealLine.zero) s.part.sm.lines = true ∧
     smapWf (fun _ => (0 : Nat)) s.part.sm.chunkKid = true ∧ canon s.part) := by decide +kernel

theorem witness_SealedMemoryAndRekeys_automatic :
    (let s := at1 { sealed 1 with sm := { up.sm with use := [(2, 2 ^ 48)] } }
     awake s ∧ sealState s.part = 2 ∧ rekeyDue s.part 2 = true ∧ 2 ∉ s.part.sm.waiting ∧ s.part.sm.walk = none ∧
     (∀ j < 2, rekeyDue s.part j = false ∧ j ∉ s.part.sm.waiting) ∧ nextKid s.part = some 1 ∧ canon s.part) ∧
    (let s := at1 { sealed 1 with sm := { up.sm with use := [(2, 2 ^ 48)], walk := some (3, none) } }
     rekeyDue s.part 2 = true ∧ s.part.sm.walk ≠ none ∧ s.part.sm.walk.map (·.1) ≠ some 2) ∧
    (let s := at1 { sealed 1 with sm := { up.sm with use := [(2, 2 ^ 48)], waiting := [1] } }
     rekeyDue s.part 2 = true ∧ ∃ j < 2, j ∈ s.part.sm.waiting) ∧
    (let s := at1 { sealed 1 with sm := { up.sm with waiting := [2] } }
     awake s ∧ sealState s.part = 2 ∧ s.part.sm.waiting = 2 :: [] ∧ s.part.sm.walk = none ∧ nextKid s.part = some 1 ∧
     canon s.part) := by decide +kernel

/-- Does a sweep end without a failed check? -/
def sweeps (r : Sealed Unit) : Bool :=
  match r with
  | (_, .ok ()) => true
  | _ => false

theorem witness_SealedMemoryAndRekeys_retire :
    (let s := at1 (sealed 9)
     awake s ∧ sealState s.part = 2 ∧ (3 : Fin 4).val ≠ curKid s.part ∧ kidRetired s.part 3 = false ∧ canon s.part ∧
     fld s.part SEAL_SWEEP_BUSY = 0 ∧ idLines s.part 3 = 0 ∧ blocksCarry s.part 3 = false ∧
     smapWf (fun _ => (none : Option SealKey)) s.part.sm.keys = true) ∧
    (smapWf (fun _ => SealLine.zero) (sealed 9).sm.lines = true ∧ lineInRgn (sealed 9) 2 (2 ^ 31 / 64) = true) ∧
    (let p := fields (sealed 9) [(SEAL_SWEEP_BUSY, 0, 1)]
     fld p SEAL_SWEEP_BUSY = 1 ∧ sweeps (sweepRegions (List.range 16) p) = true) ∧
    (let p := fields (sealed 3) [(SEAL_KID_CUR, 0, 1)]
     (0 : Fin 4).val ≠ curKid p ∧ kidRetired p 0 = false ∧ idLines p 0 ≠ 0 ∧ canon p ∧ fld p SEAL_SWEEP_BUSY = 0) := by
  decide +kernel

/-! ### Witnesses: capture -/

/-- A capture unit's configuration: probe word 0, 16 bits, rising through 100, with itself as source, one tick after. -/
def arm : CapArm := ⟨15, 0, 0, 0, false, 1, 1, false, false, 100, 5, 0, 1, 1, List.replicate 16 0, 1, 0, 31, 0, 0⟩

/-- A header of CAPTURE_ARM that spells it, with other bits set besides. -/
def armHdr (more : List (Nat × Nat)) : Hdr :=
  hdr 0x20 ([(8, 100), (0x10, 5), (0x28, 15), (0x2B, 0x0A), (0x2C, 2 ^ 10 + 2 ^ 20), (0x30, 1), (0x34, 31)] ++ more)

/-- A part whose blank declares one probe word, with the capture area reserved, running. -/
def probing : Part :=
  fields { spinning with blank := some { blank4 with decl := { Decl.none with probeMask := [(0, 1)] } } }
    [(HIS_CAP_RESERVE, 0, 1)]

/-- A tick that waits for its decision, with probe word 0 as given. -/
def probed (v : Word) : ProbeTick := ⟨6, [v], 0, false, false⟩

/-- Capture unit 15 in a state, primed for a rise. -/
def cap15 (st : CapSt) : CapUnit :=
  ⟨st, arm, 0, true, false, [], none, [], 0, 0, 0, 0, 0, 0, 0, false, []⟩

/-- A segment with its trigger tick recorded. -/
def seg5 : Segment := ⟨5, 0, true, false, 0, 100, 0, [(5, [100])], false, false, false, 0, 0, 0⟩

/-- That part with capture unit 15 as given, and one tick to decide. -/
def capturing (c : CapUnit) (v : Word) : Part :=
  { probing with cap := { probing.cap with units := [(15, some c)], ticks := [probed v] } }

theorem witness_CaptureUnits_arm :
    capArmOf (armHdr []) = arm ∧
    (let h := armHdr []
     let s := with1 h probing
     awake s ∧ commandRuns s.part h 0x20 ∧ unitReady s.part 11 ∧ unitReady s.part 9 ∧ s.part.tk.halt = none ∧
     s.part.tk.fab ≠ .off ∧ fld s.part HIS_CAP_RESERVE = 1 ∧ capOn s.part 15 = none ∧ capBad s.part arm = false ∧
     areaBad s.part arm = false ∧ arm.tbDrive.getLsbD 3 = false) := by decide +kernel

theorem witness_CaptureUnits_arm_refused :
    (∀ m ∈ [[(0x29, 1)], [(0x30, 0x1FFFF * 2 ^ 13)], [(0x35, 8)]], let h := armHdr m
     let s := with1 h probing
     commandRuns s.part h 0x20 ∧ capOn s.part (capArmOf h).unit.val = none ∧
     (capBad s.part (capArmOf h) = true ∨ areaBad s.part (capArmOf h) = true ∨
       ((capArmOf h).tbDrive.getLsbD 3 = true ∧
        (fld s.part CAP_TB_DRV_EN).testBit ((capArmOf h).tbDrive.toNat % 8) = false))) ∧
    (let h := armHdr []
     let s := with1 h (capturing (cap15 .waiting) 0); commandRuns s.part h 0x20 ∧ capOn s.part 15 ≠ none) ∧
    (let h := armHdr []
     let s := with1 h up; commandRuns s.part h 0x20 ∧ s.part.tk.fab = .off ∧ fld s.part HIS_CAP_RESERVE = 0) := by
  decide +kernel

theorem witness_CaptureUnits_decide :
    (let s := at1 (capturing (cap15 .waiting) 100)
     awake s ∧ partHalted s.part = false ∧ s.part.tk.fab = .running ∧ s.part.cap.ticks = probed 100 :: [] ∧
     capUnit s.part 15 = some (cap15 .waiting) ∧ (cap15 .waiting).skip = 0 ∧ (cap15 .waiting).disarm = false ∧
     ownFires (cap15 .waiting) (probed 100).words = true ∧ arm.src.getLsbD 0 = true ∧ 0 < arm.post.toNat) ∧
    (ownFires (cap15 .waiting) (probed 99).words = false ∧ arm.tbListen.toNat &&& (probed 99).lines = 0) ∧
    (let c := { cap15 .recording with cur := some seg5 }
     capUnit (capturing c 3) 15 = some c ∧ seg5.preValid + 1 + c.cfg.post.toNat ≤ seg5.ticks.length + 1) ∧
    (let c := { cap15 .recording with cur := some seg5, cfg := { arm with post := 2, slots := 2 } }
     seg5.ticks.length + 1 < seg5.preValid + 1 + c.cfg.post.toNat ∧ c.segs.length + 1 < c.cfg.slots.toNat) ∧
    (let c := { cap15 .recording with cur := some seg5, cfg := { arm with slots := 2 } }
     c.segs.length + 1 < c.cfg.slots.toNat) := by decide +kernel

theorem witness_CaptureUnits_deliver :
    (let s := at1 (capturing (cap15 .dead) 0)
     awake s ∧ capUnit s.part 15 = some (cap15 .dead) ∧ partHalted s.part = false ∧ (cap15 .dead).disarm = false ∧
     (cap15 .dead).segs.length < (cap15 .dead).cfg.slots.toNat) ∧
    (let c := { cap15 .full with segs := [seg5] }
     let p := { capturing c 0 with cap := { (capturing c 0).cap with delivery := [15] } }
     firstSegment p = some (15, c, seg5) ∧ c.disarm = false ∧
     putKind (rdoPut (ring31 16 p) c.cfg.ring 2 (captureRecord 15 c seg5)) = 0 ∧
     putKind (rdoPut (fields (ring31 16 p) [(HIF_RDO_EN, 31, 0)]) c.cfg.ring 2 (captureRecord 15 c seg5)) = 1) ∧
    (let h := hdr 0x21 [(8, 15)]
     let s := with1 h (capturing (cap15 .waiting) 0)
     awake s ∧ commandRuns s.part h 0x21 ∧ unitReady s.part 11 ∧ h.par 0x08 1 % 16 = 15 ∧
     capUnit s.part 15 = some (cap15 .waiting) ∧ (cap15 .waiting).cur = none ∧ (cap15 .waiting).segs = [] ∧
     (cap15 .waiting).cmds = [] ∧ capOn s.part 14 = none) ∧
    (let s := at1 (capturing (cap15 .waiting) 0)
     awake s ∧ s.part.cap.ticks = probed 0 :: [] ∧ (probed 0).driven = false ∧ (probed 0).sampled = false ∧
     partHalted s.part = false ∧ canon s.part) := by decide +kernel

/-! ### Witnesses: trace -/

/-- A part whose trace is in a state. -/
def tracing (st : TrcSt) : Part := { up with trc := { up.trc with st := st } }

/-- A header of TRACE_CTRL with an action. -/
def traceHdr (a : Nat) (more : List (Nat × Nat)) : Hdr := hdr 0x28 ((8, a) :: more)

theorem witness_TraceStreamAndControl_control :
    (∀ a ∈ [0, 1, 2, 3, 4, 5, 6, 255], ∀ st ∈ [TrcSt.idle, .running, .triggered, .frozen], let h := traceHdr a []
     let s := with1 h (tracing st)
     awake s ∧ commandRuns s.part h 0x28 ∧ unitReady s.part 12 ∧ h.traceAction = a ∧ s.part.trc.drains = [] ∧
     s.part.trc.st = st ∧ fld s.part TRC_SINK = 0) ∧ canon (tracing .idle) ∧
    fld (fields (tracing .frozen) [(TRC_SINK, 0, 1)]) TRC_SINK = 1 := by decide +kernel

theorem witness_TraceStreamAndControl_trigger :
    let h := traceHdr 2 []
    let found (b : Bool) : Part :=
      { tracing .running with host := { up.host with inflight := [⟨h, false, false, ⟨0, false, false, [], b⟩⟩] } }
    (∀ b : Bool, awake (at1 (found b)) ∧ commandRuns (found b) h 0x28 ∧ (foundOf (begun (found b) h 0x28) h).triggered = b) ∧
    h.op = 0x28 ∧ h.traceAction = 2 ∧ h.rsv = false ∧ (tracing .running).trc.st = .running ∧
    smapWf (fun _ => (0 : Nat)) (tracing .running).svn.net.counts = true := by decide +kernel

theorem witness_TraceStreamAndControl_sources :
    (let h := traceHdr 3 [(0x10, 2 ^ 127 + 2 ^ 32)]
     let m := BitVec.ofNat 128 (h.par 0x10 16)
     commandRuns (picked h (tracing .frozen)) h 0x28 ∧ m.getLsbD 32 = true ∧ fld (tracing .frozen) TRC_AUTH = 0 ∧
     fld (fields (tracing .frozen) [(TRC_AUTH, 0, 1)]) TRC_AUTH = 1) ∧
    (let h := traceHdr 3 [(0x10, 2 ^ 127)]
     let m := BitVec.ofNat 128 (h.par 0x10 16)
     let p := picked h (tracing .frozen)
     commandRuns p h 0x28 ∧ canon p ∧ m.getLsbD 32 = false ∧ m.getLsbD 127 = true ∧
     (fldI p TRC_SRC_EN (127 / 32)).testBit (127 % 32) = false ∧
     smapWf (fun _ => TrcSource.init) p.trc.sources = true) := by decide +kernel

/-- A point with x and t zero and y equal to z stands for the neutral point. -/
def neutral (p : EdPoint) : Prop := p.x = 0 ∧ p.t = 0 ∧ p.y = p.z

theorem edSub_zero (x : Nat) : edSub x 0 = x % edP := by simp [edSub]

theorem edSub_self (x : Nat) (h : x < edP) : edSub x x = 0 := by
  have := Nat.mod_eq_of_lt h
  unfold edSub
  rw [this, Nat.add_sub_cancel_left, Nat.mod_self]

theorem neutral_add (p q : EdPoint) (hp : neutral p) (hq : neutral q) : neutral (p.add q) := by
  obtain ⟨x1, y1, z1, t1⟩ := p
  obtain ⟨x2, y2, z2, t2⟩ := q
  simp only [neutral] at hp hq
  obtain ⟨rfl, rfl, rfl⟩ := hp
  obtain ⟨rfl, rfl, rfl⟩ := hq
  have hP : 0 < edP := by decide
  have e : edSub (y1 * y2 % edP) (y1 * y2 % edP) = 0 := edSub_self _ (Nat.mod_lt _ hP)
  have f : edSub (2 * y1 * y2 % edP) 0 = 2 * y1 * y2 % edP := by rw [edSub_zero, Nat.mod_mod]
  refine ⟨?_, ?_, ?_⟩ <;>
    simp only [EdPoint.add, edSub_zero, Nat.add_zero, Nat.mul_zero, Nat.zero_mul, Nat.zero_mod, ← Nat.mul_mod, e, f]
  rw [Nat.mul_mod, Nat.mod_mod, ← Nat.add_mod, ← Nat.two_mul, ← Nat.mul_assoc, ← Nat.mul_mod]

theorem neutral_times (n k : Nat) (p : EdPoint) (hp : neutral p) : neutral (EdPoint.times n k p) := by
  induction n generalizing k p with
  | zero => exact ⟨rfl, rfl, rfl⟩
  | succ n ih =>
    have h := ih (k / 2) _ (neutral_add p p hp hp)
    by_cases hk : k % 2 = 1
    · simpa [EdPoint.times, hk] using neutral_add _ p h hp
    · simpa [EdPoint.times, hk] using h

theorem times_zero (n : Nat) (p : EdPoint) : EdPoint.times n 0 p = .zero := by
  induction n generalizing p with
  | zero => rfl
  | succ n ih => simpa [EdPoint.times] using ih _

theorem neutral_same (p q : EdPoint) (hp : neutral p) (hq : neutral q) : p.same q = true := by
  obtain ⟨hx, -, hy⟩ := hp
  obtain ⟨hx', -, hy'⟩ := hq
  simp [EdPoint.same, hx, hx', hy, hy', Nat.mul_comm]

/-- The key that encodes the neutral point, as the OTP may hold its SHA-256. -/
def key1 : List Byte := fitBytes 32 [1]

/-- That key and a signature of the neutral point and 0, which meet the equation of RFC 8032 for every message. -/
def buf1 : List Byte := key1 ++ fitBytes 64 [1]

theorem key1_checks (msg : List Byte) : ed25519Ok key1 msg (buf1.drop 32) = true := by
  have h1 : edPointOf key1 = some .zero := by decide +kernel
  have h2 : edPointOf ((buf1.drop 32).take 32) = some .zero := by decide +kernel
  have h3 : leNat (((buf1.drop 32).drop 32).take 32) = 0 := by decide +kernel
  have h4 : (buf1.drop 32).length = 64 := by decide +kernel
  have h5 : key1.length = 32 := by decide +kernel
  have hz : neutral .zero := ⟨rfl, rfl, rfl⟩
  have h := neutral_same _ _ hz (neutral_add _ _ (neutral_times 4 8 _ hz)
    (neutral_times 256 (8 * (leNat (sha512 ((buf1.drop 32).take 32 ++ key1.take 32 ++ msg)) % edL)) _ hz))
  simp only [ed25519Ok, h1, h2, h3, h4, h5, Nat.mul_zero, times_zero]
  rw [h]
  decide

/-- A part in whose OTP the SHA-256 of that key is recorded, as key 3. -/
def keyed : Part :=
  let m := otpProgram factoryOtp (otpArea 3).1 (otpRecord 3 0 (sha256 key1))
  { windowed (tracing .idle) with boot := { up.boot with otp := m, otpRead := m } }

theorem keyed_payload : otpPayload keyed.boot.otpRead 3 = some (sha256 key1) := by decide +kernel

theorem witness_TraceStreamAndControl_auth :
    (let h := traceHdr 5 [(0x10, 0x100000)]
     let p := picked h keyed
     awake (at1 p) ∧ commandRuns p h 0x28 ∧ unitReady p 12 ∧ h.traceAction = 5 ∧
     inWindow p .read (h.par 0x10 8) 96 = true ∧ dmaOk p = true ∧ canon p) ∧
    otpPayload up.boot.otpRead 3 = none := by decide +kernel

theorem witness_TraceStreamAndControl_auth_key :
    authorises keyed (fitBytes 96 buf1) = true ∧ authorises (windowed (tracing .idle)) (fitBytes 96 buf1) = false := by
  have hb : fitBytes 96 buf1 = buf1 := by decide +kernel
  have hk : buf1.take 32 = key1 := by decide +kernel
  have hn : otpPayload (windowed (tracing .idle)).boot.otpRead 3 = none := by decide +kernel
  rw [hb]
  refine ⟨?_, ?_⟩
  · simp [authorises, hk, keyed_payload, key1_checks]
  · simp [authorises, hn]

theorem witness_TraceStreamAndControl_stream :
    (fldI (tracing .running) TRC_SRC_EN 1).testBit (8 + 7) = false ∧
    (let p := fields { tracing .running with trc := { (tracing .running).trc with
                         sources := [(47, { TrcSource.init with needSync := false })] } } [(TRC_SRC_EN, 1, 0x8000)]
     (fldI p TRC_SRC_EN 1).testBit (8 + 7) = true ∧ p.trc.st = .running ∧ (trcSource p 47).dropN = 0 ∧
     (trcSource p 47).stalled = [] ∧
     (trcSource p 47).needSync = false ∧ (trcSource p 47).sinceSync < 4096 ∧ inputBytes (trcSource p 47) ≤ 4000) ∧
    (let p := fields { tracing .running with trc := { (tracing .running).trc with
                         sources := [(127, { TrcSource.init with queue := [[1, 2, 3, 4]] })], gather := [9] } } [(TRC_SINK, 0, 1)]
     fld p TRC_SINK = 1 ∧ nextSource p = some 127 ∧ (trcSource p 127).queue = [1, 2, 3, 4] :: [] ∧
     isTrigger [1, 2, 3, 4] = false ∧ (trcSource p 127).dropN = 0 ∧ (trcSource p 127).stalled = [] ∧
     p.trc.gather.length + 4 < 4096 ∧ smapWf (fun _ => TrcSource.init) p.trc.sources = true ∧ p.trc.gather ≠ [] ∧
     (let q := fields (ring31 16 p) [(TRC_RING, 0, 31)]
      putKind (rdoPut q (trcRing q) 3 (chunkRecord false (wptr q - q.trc.gather.length) (q.trc.gather.take 4096))) = 0) ∧
     (let q := fields (ring31 16 p) [(TRC_RING, 0, 31), (HIF_RDO_EN, 31, 0)]
      putKind (rdoPut q (trcRing q) 3 (chunkRecord false (wptr q - q.trc.gather.length) (q.trc.gather.take 4096))) = 1)) ∧
    (let p := { tracing .frozen with trc := { (tracing .frozen).trc with drains := [(traceHdr 4 [], 0)] } }
     awake (at1 p) ∧ p.trc.drains = [(traceHdr 4 [], 0)] ∧ wptr p ≤ 0) ∧
    (tracing .triggered).trc.st = .triggered := by decide +kernel

/-! ### Witnesses: time -/

/-- A time unit's part with the servo fed by source `src` in mode `mode`. -/
def timed (mode src : Nat) : Part := fields up [(TIM_MODE, 0, mode), (TIM_SRC, 0, src), (TIM_PPSI_EN, 0, 1)]

theorem witness_DeviceTimeCommands_set :
    (∀ ns ∈ [999999999, 1000000000], let h := hdr 0x30 [(8, 2 ^ 48 - 1), (0x10, ns), (0x14, 2 ^ 32 - 1)]
     let s := with1 h up
     awake s ∧ mayRun s.part h 0x30 ∧ h.par 0x08 6 = 2 ^ 48 - 1 ∧ h.par 0x10 4 = ns ∧ running s.part = false ∧
     startPending s.part = false ∧ h.rsv = false ∧ canon s.part ∧ 12 * 2 ^ 32 ≤ tickT s.part ∧ epochE s.part ≤ 0) ∧
    (let h := hdr 0x30 [(0xE, 1)]
     mayRun (picked h up) h 0x30 ∧ h.rsv = true) ∧
    (let h := hdr 0x30 []
     mayRun (picked h spinning) h 0x30 ∧ running spinning = true) := by decide +kernel

theorem witness_DeviceTimeCommands_adjust :
    (∀ m ∈ [0, 1, 2], ∀ slew ∈ [0, 1], let h := hdr 0x31 [(8, 2 ^ 64 - 1), (0x10, 5), (0x14, slew)]
     let s := with1 h (timed m 0)
     awake s ∧ mayRun s.part h 0x31 ∧ fld s.part TIM_MODE = m ∧ running s.part = false ∧ startPending s.part = false ∧
     h.rsv = false ∧ s.part.tim.slewing = false ∧ signedOf 64 (h.par 0x08 8) = -1 ∧ h.desc.getLsbD 160 = (slew == 1)) ∧
    (let h := hdr 0x31 [(0x14, 2)]; mayRun (picked h up) h 0x31 ∧ h.rsv = true) ∧
    (let s := at1 { up with tim := { up.tim with slewing := true } }
     awake s ∧ s.part.tim.slewing = true ∧ s.part.tim.run = true ∧ s.part.tim.slewLeft = 0) ∧
    (let s := at1 (fields { up with tim := { up.tim with slewing := true, slewLeft := 2 ^ 32 } } [(TIM_BASE_F, 0, 816)])
     s.part.tim.slewing = true ∧ s.part.tim.run = true ∧ s.part.tim.slewLeft ≠ 0 ∧ slewStep s.part ≠ 0) ∧
    up.tim.slewing = false := by decide +kernel

theorem witness_DeviceTimeCommands_increment :
    (∀ u0 ∈ [0, 1, 2 ^ 24, 2 ^ 24 + 1], ∀ whole ∈ [4, 5], let h := hdr 0x32 [(8, u0), (0x14, whole)]
     let s := with1 h (timed 2 0)
     let inc : Nat := h.par 0x14 1 % 16 * 2 ^ 32 + h.par 0x10 4
     awake s ∧ mayRun s.part h 0x32 ∧ fld s.part TIM_MODE = 2 ∧ h.rsv = false ∧
     ((h.par 0x08 8 = 0 ∨ s.part.tk.tick + 1 ≤ h.par 0x08 8 ∧ h.par 0x08 8 ≤ s.part.tk.tick + 2 ^ 24) ↔ u0 ≤ 2 ^ 24) ∧
     (((((incBase s.part : Int) - (inc : Int)) * (10 ^ 9 * 2 ^ 48 : Int)).natAbs : Int) ≤ rateMax s.part ↔ whole = 4)) ∧
    (let h := hdr 0x32 [(0x14, 0x14)]; mayRun (picked h (timed 2 0)) h 0x32 ∧ h.rsv = true ∧ fld (timed 1 0) TIM_MODE ≠ 2) ∧
    firstWait [⟨hdr 0x32 [], 9, 1⟩, ⟨hdr 0x32 [], 8, 2⟩] = some ⟨hdr 0x32 [], 8, 2⟩ ∧ up.tim.incWaits = [] ∧
    (∀ u0 ∈ [0, 9], let s := at1 { timed 2 0 with tim := { (timed 2 0).tim with incWaits := [⟨hdr 0x32 [], u0, 3⟩] } }
     awake s ∧ firstWait s.part.tim.incWaits = some ⟨hdr 0x32 [], u0, 3⟩) := by decide +kernel

theorem witness_MeasurementsPinsAndAlarm_edge :
    (awake (at1 (timed 1 2)) ∧ fld (timed 1 2) TIM_PPSI_EN = 1 ∧ fld (timed 1 2) TIM_SRC = 2 ∧
     fld (timed 1 2) TIM_MODE = 1 ∧ canon (timed 1 2) ∧ fld up TIM_PPSI_EN = 0 ∧ fld (timed 1 0) TIM_SRC ≠ 2) ∧
    (let p := { fields (timed 1 2) [(TIM_PPSI_WIN_US, 0, 1), (TIM_STEP_EN, 0, 1), (TIM_STEP_NS, 0, 1000)] with now := 1000000 * 2 ^ 32 }
     let window := fld p TIM_PPSI_WIN_US * 1000 * 2 ^ 32
     let theta : Int := (p.now + incNow p * 0 / 512 : Nat) - psField p TIM_PPSI_ING_PS 0
     window ≠ 0 ∧ window < theta.natAbs ∧ p.tim.srv ≠ .holdover ∧ fld p TIM_STEP_NS * 2 ^ 32 < theta.natAbs ∧
     fld p TIM_STEP_EN = 1 ∧ running p = false ∧ startPending p = false ∧
     fld (fields p [(TIM_PPSI_WIN_US, 0, 0)]) TIM_PPSI_WIN_US * 1000 * 2 ^ 32 = 0) := by decide +kernel

theorem witness_MeasurementsPinsAndAlarm_pins :
    ({ up.tim with srv := .locked }.srv = .locked ∧ up.tim.srv ≠ .acquire ∧ up.tim.srv ≠ .locked) ∧
    (∀ now ∈ [10 ^ 9 - 3, 10 ^ 9], ∀ seen ∈ [(none : Option Int), some (10 ^ 9 * 2 ^ 32)],
     let p := { fields up [(TIM_PPSO_EN, 0, 1)] with now := now * 2 ^ 32, tim := { up.tim with ppsRise := seen } }
     let whole : Nat := (p.now + (10 ^ 9 * 2 ^ 32 - 1)) / (10 ^ 9 * 2 ^ 32) * (10 ^ 9 * 2 ^ 32)
     let rise : Nat := if p.now = whole ∧ p.tim.ppsRise = some (whole : Int) then whole + 10 ^ 9 * 2 ^ 32 else whole
     awake (at1 p) ∧ fld p TIM_PPSO_EN = 1 ∧ p.tim.run = true ∧ p.tim.slewing = false ∧ 0 < incNow p ∧
     (rise ≤ p.now ↔ now = 10 ^ 9 ∧ seen = none) ∧
     (now < 10 ^ 9 → rise ≤ p.now + (0 + 1) * incNow p ∧ p.now + 0 * incNow p < rise)) ∧ fld up TIM_PPSO_EN = 0 ∧
    (fld (fields up [(TIM_ALARM_EN, 0, 1)]) TIM_ALARM_EN = 1 ∧ canon (fields up [(TIM_ALARM_EN, 0, 1)]) ∧
     fld up TIM_ALARM_EN = 0) := by decide +kernel

/-! ### Witnesses: the management ports, the ordinary clock and the monitor -/

/-- A multicast frame of a PTP message over Ethernet: its type, flags and sequenceId, from the clock 1, port 1, with a
body behind its header. -/
def ptp (typ flags seq : Nat) (body : List Byte) : List Byte :=
  ptpFrame false 0 0 (beBytes 1 typ ++ [2] ++ beBytes 2 (34 + body.length) ++ [0, 0] ++ beBytes 2 flags ++ beBytes 8 0 ++
    beBytes 4 0 ++ beBytes 8 1 ++ beBytes 2 1 ++ beBytes 2 seq ++ [0, 0] ++ body)

/-- The body of an Announce with stepsRemoved `n`. -/
def announced (n : Nat) : List Byte :=
  beBytes 10 0 ++ beBytes 2 37 ++ [0, 128, 6, 0x21, 0, 0, 128] ++ beBytes 8 1 ++ beBytes 2 n ++ [0]

/-- That master. -/
def master1 : Announce := ⟨128, 6, 0x21, 0, 128, 1, 254, 1, 1, 37, true⟩

/-- A part whose ordinary clock works on port 1, with that master. -/
def clocked : Part :=
  fields { up with tim := { up.tim with ptp := { up.tim.ptp with
             master := some master1, heard := [master1], sync := some (7, 5, 0), req := some (3, 4), last21 := some 9 } } }
    [(PTP_OC_EN, 0, 1), (PTP_OC_PORT, 0, 1), (PTP_MAC_A, 0, 1), (PTP_LINK_UP, 0, 3), (PTP_TC_EN, 0, 1)]

theorem witness_ManagementPortsAndOrdinaryClock_ports :
    awake (at1 clocked) ∧ canon clocked ∧ fld clocked PTP_TC_EN = 1 ∧ mgmtUp clocked 0 = true ∧ mgmtUp clocked 1 = true ∧
    mgmtUp up 1 ≠ true ∧ fld up PTP_TC_EN = 0 ∧ mgmtKind (ptp 0 0 1 (beBytes 10 0)) = .event ∧
    mgmtKind (ptp 0 0x200 1 (beBytes 10 0)) = .twoStep ∧ mgmtKind (ptp 2 0 1 (beBytes 20 0)) = .pass ∧
    mgmtKind (fitBytes 64 []) = .other := by decide +kernel

theorem witness_ManagementPortsAndOrdinaryClock_masters :
    (ocMessage clocked 11 (ptp 11 4 1 (announced 254))).map announceOf = some master1 ∧ master1.steps < 255 ∧
    (ocMessage clocked 11 (ptp 11 4 1 (announced 255))).map announceOf = some { master1 with steps := 255 } ∧
    ocMessage up 11 (ptp 11 4 1 (announced 254)) = none ∧ clocked.tim.ptp.master = some master1 ∧
    up.tim.ptp.master = none := by decide +kernel

/-- What a message of the master brings: its sequenceId and twoStepFlag. -/
def fromMaster (p : Part) (typ : Nat) (frame : List Byte) : Option (Nat × Bool) :=
  (masterMessage p typ frame).map (fun m => (m.seq, m.twoStep))

theorem witness_ManagementPortsAndOrdinaryClock_messages :
    fromMaster clocked 0 (ptp 0 0 1 (beBytes 10 0)) = some (1, false) ∧
    fromMaster clocked 0 (ptp 0 0x200 1 (beBytes 10 0)) = some (1, true) ∧
    masterMessage up 0 (ptp 0 0 1 (beBytes 10 0)) = none ∧
    clocked.tim.ptp.sync = some (7, 5, 0) ∧ fromMaster clocked 8 (ptp 8 0 7 (beBytes 10 0)) = some (7, false) ∧
    fromMaster clocked 8 (ptp 8 0 8 (beBytes 10 0)) = some (8, false) ∧ fld clocked TIM_SRC = 0 ∧
    (ocOn clocked = true ∧ mgmtUp clocked (ocPort clocked) = true ∧ clocked.tim.ptp.master ≠ none ∧ ocOn up = false) ∧
    (∀ port ∈ [1, 2], let f := ptp 9 0 3 (beBytes 10 0 ++ beBytes 8 (clockIdentity clocked) ++ beBytes 2 port)
     clocked.tim.ptp.req = some (3, 4) ∧ fromMaster clocked 9 f = some (3, false) ∧
     (masterMessage clocked 9 f).map (fun m => (beAt m.bytes 44 8, beAt m.bytes 52 2)) =
       some (clockIdentity clocked, port)) := by decide +kernel

/-- A header of MON_CONVERT for a channel. -/
def convertHdr (ch : Nat) (urgent : Bool) : Hdr := hdr 0x40 [(8, ch), (1, if urgent then 2 else 0)]

/-- The state in which it begins, with test 7 (the monitor's calibration) at `st`. -/
def converting (h : Hdr) (st : Nat) : State := with1 h (setTest up 7 st)

theorem witness_MonitorAndThermal_convert :
    (∀ ch ∈ [0, 55, 56, 255], ∀ u ∈ [false, true], let h := convertHdr ch u
     let s := converting h 2
     awake s ∧ commandRuns s.part h 0x40 ∧ h.par 0x08 1 = ch ∧ h.urgent = u ∧ unitAbsent s.part 20 = false ∧
     testOf s.part 7 ≠ 1 ∧ s.part.mon.cur = none ∧ s.part.mon.urgent = [] ∧ s.part.mon.again = none ∧
     s.part.mon.waiting = []) := by decide +kernel

theorem witness_MonitorAndThermal_busy :
    (let h := convertHdr 5 false
     let s := converting h 3; commandRuns s.part h 0x40 ∧ unitAbsent s.part 20 = true) ∧
    (∀ u ∈ [false, true], let h := convertHdr 5 u
     let s := converting h 1
     commandRuns s.part h 0x40 ∧ unitAbsent s.part 20 = false ∧ testOf s.part 7 = 1 ∧ h.urgent = u ∧
     s.part.mon.cur = none ∧ smapWf (fun _ => (0 : Nat)) s.part.boot.tests = true) ∧
    (∀ u ∈ [false, true], let h := convertHdr 5 u
     let d : Conv := ⟨3, none, false, false⟩
     let s := with1 h { up with mon := { up.mon with cur := some d } }
     commandRuns s.part h 0x40 ∧ unitAbsent s.part 20 = false ∧ testOf s.part 7 ≠ 1 ∧ s.part.mon.cur = some d ∧
     d.urgent = false ∧ s.part.mon.urgent = []) := by decide +kernel

theorem witness_MonitorAndThermal_scan :
    (let s := at1 (fields up [(MON_SCAN_EN, 0, 1), (MON_SCAN_MASK_H, 0, 0x800000)])
     awake s ∧ canon s.part ∧ fld s.part MON_SCAN_EN = 1 ∧ scanBusy s.part = false ∧ s.part.boot.ps ≠ .powerup ∧
     unitAbsent s.part 20 = false ∧ testOf s.part 7 ≠ 1 ∧ s.part.mon.cur = none ∧ s.part.mon.urgent = [] ∧
     s.part.mon.again = none ∧ s.part.mon.waiting = [] ∧ s.part.mon.calNext = false ∧
     ((List.range 56).filter (scanned s.part)).getLast? = some 55) ∧
    fld (fields up [(MON_SCAN_EN, 0, 0)]) MON_SCAN_EN = 0 ∧
    (let c : Conv := ⟨55, some (convertHdr 55 false), false, false⟩
     let p := fields { up with mon := { up.mon with cur := some c } } [(MON_LO, 55, 5), (MON_LIM_EN, 55, 1)]
     p.mon.cur = some c ∧ c.check = false ∧ c.ch < 56 ∧ canon p ∧ (4 : BitVec 12).toNat < fldI p MON_LO c.ch ∧ fldI p MON_LIM_EN c.ch = 1) := by
  decide +kernel

theorem witness_MonitorAndThermal_checks :
    (let w (u d : Option Nat) : Part :=
       fields { up with mon := { up.mon with checks := [(31, some ⟨u, d, 0⟩)], cur := some ⟨31, none, false, true⟩ } }
         [(MON_SCAN_EN, 0, 1), (MON_PULL_MODE_H, 0, 0xC0000000)]
     (∀ u ∈ [none, some (4095 : Nat)], awake (at1 (w u none)) ∧ openWire (w u none) 31 = some ⟨u, none, 0⟩ ∧
       (w u none).mon.cur = some ⟨31, none, false, true⟩ ∧ smapWf (fun _ => (none : Option OpenWire)) (w u none).mon.checks = true) ∧
     (let p := w (some 4095) (some 0)
      openWire p 31 = some ⟨some 4095, some 0, 0⟩ ∧ canon p ∧ pullMode p 31 = 3 ∧ fld p MON_OW_SCANS ≤ p.mon.scans + fld p MON_OW_SCANS) ∧
     (∀ n ∈ [1, 2], let p := fields (w none none) [(MON_OW_SCANS, 0, n)]
       (p.mon.scans + 1 < fld p MON_OW_SCANS ↔ n = 2) ∧ (fld p MON_OW_SCANS ≤ p.mon.scans + 1 ↔ n = 1)) ∧
     pullMode up 31 ≠ 3 ∧ openWire up 31 = none) ∧
    (let p := fields up [(MON_CAL_MS, 0, 10)]
     fld p MON_CAL_MS ≠ 0 ∧ testOf p 7 ≠ 1 ∧ testOf p 7 ≠ 0 ∧ p.mon.cur = none ∧ p.mon.urgent = [] ∧ p.mon.again = none ∧
     p.mon.waiting = [] ∧ unitAbsent p 20 = false ∧ fld (fields p [(MON_CAL_MS, 0, 0)]) MON_CAL_MS = 0 ∧
     testOf (setTest p 7 1) 7 = 1) ∧
    up.tk.catchLog = [] := by decide +kernel

/-! ### Witnesses: the invariants -/

theorem witness_OtpBitsStayProgrammed :
    (smapGet (fun _ => (0 : Byte)) State.reset.part.boot.otp 0x38).getLsbD 7 = true ∧ ∃ t, step State.reset = .next t :=
  ⟨by decide +kernel, _, rfl⟩

theorem witness_EveryStepKeepsTheCanonicalForm :
    (∃ t, step (at1 up) = .next t) ∧ canon up ∧ canon clocked ∧ canon (sealed 15) :=
  ⟨⟨_, rfl⟩, by decide +kernel⟩

/-! ### Spindle words written out from the tables of R72, R75, R83 and R84 -/

/-- The first worked example of chapter 03, whole; and its third, the TN1 shift widened. -/
theorem test_spindle_words_worked : decodeSp 0x048440004AE48005#64 =
      some (.bool3 0x21 (.mem 0x10) (.bus 5) (.mem 0x12) true 0xE4) ∧
    decodeSp 0x40241C0000430000#64 = some (.shf 9 (.mem 7) false 0 true 3 0) ∧ decodeSp 0 = some .nop := by decide +kernel

/-- The second worked example: LDI, ADD with OVF 01 and ADD3, CMP with COND 010. -/
theorem test_spindle_words_sum :
    decodeSp (BitVec.ofNat 64 (0x14 * 2 ^ 58 + 5 * 2 ^ 50 + 0x400 * 2 ^ 10)) = some (.ldi 5 0x400 0 false) ∧
    decodeSp (BitVec.ofNat 64 (0x08 * 2 ^ 58 + 6 * 2 ^ 50 + 1 * 2 ^ 42 + 2 * 2 ^ 34 + 3 * 2 ^ 26 + 1 * 2 ^ 21 + 2 ^ 20)) =
      some (.add 6 (.mem 1) (.mem 2) (some (.mem 3)) false 0 1) ∧
    decodeSp (BitVec.ofNat 64 (0x0A * 2 ^ 58 + 7 * 2 ^ 50 + 5 * 2 ^ 42 + 6 * 2 ^ 34 + 2 * 2 ^ 20)) =
      some (.cmp 7 (.mem 5) (.mem 6) false 0 2) := by decide +kernel

/-- One word of every other form and of the port, table and grain families. -/
theorem test_spindle_words_forms :
    decodeSp (BitVec.ofNat 64 (0x18 * 2 ^ 58 + 0x3A * 2 ^ 50 + 9 * 2 ^ 42 + 4 * 2 ^ 21)) = some (.send 0x3A (.mem 9) 4) ∧
    decodeSp (BitVec.ofNat 64 (0x19 * 2 ^ 58 + 3 * 2 ^ 50 + 2 ^ 25 + 12 * 2 ^ 8 + 0x3A)) = some (.recv 3 12 0x3A true) ∧
    decodeSp (BitVec.ofNat 64 (0x1C * 2 ^ 58 + 8 * 2 ^ 42 + 1 * 2 ^ 23 + 0x3FFF * 2 ^ 8)) = some (.tblr (some 8) 0x3FFF) ∧
    decodeSp (BitVec.ofNat 64 (0x20 * 2 ^ 58 + 4 * 2 ^ 50 + 2 ^ 24 + 127 * 2 ^ 16)) = some (.pin 4 1 127 false) ∧
    decodeSp (BitVec.ofNat 64 (0x21 * 2 ^ 58 + 4 * 2 ^ 42 + 2 ^ 24 + 5 * 2 ^ 16)) = some (.pout (.mem 4) 1 5) ∧
    decodeSp (BitVec.ofNat 64 (0x02 * 2 ^ 58 + 4 * 2 ^ 50 + 1 * 2 ^ 14 + 2 * 2 ^ 12)) = some (.move 4 .tr false) ∧
    decodeSp (BitVec.ofNat 64 (0x24 * 2 ^ 58 + 1 * 2 ^ 42 + 7 * 2 ^ 16)) = some (.hist (.mem 1) 7) ∧
    decodeSp (BitVec.ofNat 64 (0x12 * 2 ^ 58 + 2 * 2 ^ 50 + 3 * 2 ^ 42 + 4 * 2 ^ 34 + 1 * 2 ^ 23 + 2 ^ 22)) =
      some (.popc 2 (.mem 3) (some (.mem 4)) false 1) := by decide +kernel

/-- Refused: a reserved bit of NOP, an unused opcode, XT = 11 in MOVE, OVF 11, a shift by the lane width (R73, R76, R91). -/
theorem test_spindle_words_refused :
    decodeSp 1 = none ∧ decodeSp (BitVec.ofNat 64 (0x3F * 2 ^ 58)) = none ∧
    decodeSp (BitVec.ofNat 64 (0x02 * 2 ^ 58 + 3 * 2 ^ 14)) = none ∧
    decodeSp (BitVec.ofNat 64 (0x08 * 2 ^ 58 + 3 * 2 ^ 21)) = none ∧
    decodeSp (BitVec.ofNat 64 (0x10 * 2 ^ 58 + 16 * 2 ^ 16)) = none := by decide +kernel

/-! ### Commands on small states -/

/-- The state whose last site fetches an instruction, with words of its data memory set. -/
def spinsOn (i : SpInstr) (ws : List (Nat × Nat)) : State :=
  at1 (ws.foldl (fun p e => setDword p (last.sp * 256 + e.1) (cleanWord (BitVec.ofNat 64 e.2))) (spins i).part)

/-- The word that the last site is about to write to data memory after its row `op`. -/
def writes (op : SpOp) (s : State) : Option PendWrite :=
  match exec (rowAt op last) s with
  | .next t => some (pendAt t.part last)
  | _ => none

/-- The sums and masks of the second worked example of chapter 03. -/
theorem test_add_and_cmp_lanes :
    writes .add (spinsOn (.add 6 (.mem 1) (.mem 2) (some (.mem 3)) false 0 1)
      [(1, 0x01000200F0000001), (2, 0x0100030020000002), (3, 3)]) = some ⟨103, 6, 0x02000500FFFF0006⟩ ∧
    writes .cmp (spinsOn (.cmp 7 (.mem 5) (.mem 6) false 0 2) [(5, 0x0400040004000400), (6, 0x02000500FFFF0006)]) =
      some ⟨103, 7, 0x0000FFFFFFFF0000⟩ := by decide +kernel

/-- r[j] := tt[4 a[j] + 2 b[j] + c[j]]: with TT 0xE4, c ? a : b (R86). -/
theorem test_bool3_selects :
    writes .bool3 (spinsOn (.bool3 0 (.mem 1) (.mem 2) (.mem 3) false 0xE4) [(1, 0xFF00FF00), (2, 0xABCDABCD), (3, 0xFFFF)]) =
      some ⟨103, 0, 0xABCDFF00⟩ := by decide +kernel

/-- An arithmetic right shift copies the lane's own top bit; a rotation moves bits within the lane (R91). -/
theorem test_shift_and_rotate :
    writes .shf (spinsOn (.shf 0 (.mem 1) false 0 true 4 1) [(1, 0x8000000000007FFF)]) = some ⟨103, 0, 0xF8000000000007FF⟩ ∧
    writes .rot (spinsOn (.rot 0 (.mem 1) false 1 false 4) [(1, 0x8000000100000002)]) = some ⟨103, 0, 0x0000001800000020⟩ := by
  decide +kernel

/-- Slot entries and segments of the worked examples of chapter 05. -/
theorem test_slots_and_segments :
    slotOf 0x943A = ⟨.inject 20, 0x3A, false⟩ ∧ slotOf 0xCC3A = ⟨.input 12, 0x3A, false⟩ ∧
    slotOf 0xC03A = ⟨.input 0, 0x3A, false⟩ ∧ Machine.segment 8 32 7 10 4 = some (8, 10, 4) ∧
    Machine.segment 8 32 4 10 6 = some (8, 10, 5) := by decide +kernel

/-- The placement of the worked example under R158: columns 4, 18 and 34 bad, skipped 34, 18, 16, 4. -/
theorem test_placement :
    placeFrom (fun g => [4, 18, 34].contains g) 36 (List.replicate 4 1) [] = some [4, 16, 18, 34] := by decide +kernel

/-- F, Q, C and P of the worked example under R236, and the line bits of SYNC that it gives. -/
theorem test_frame_layout :
    frameQ 2000 = 80 ∧ frameC 2000 = 1920 ∧ frameP 2000 = 29 ∧
    (headerBits 0 0).take 16 = [true, false, false, true, true, true, true, false, false, true, true, true, false, false,
      true, false] := by decide +kernel

/-- The check values that the CRC-32 of IEEE 802.3 and FIPS 180-4 publish, for "123456789" and "abc". -/
theorem test_crc32_and_hashes :
    crc32 ([0x31, 0x32, 0x33, 0x34, 0x35, 0x36, 0x37, 0x38, 0x39] : List Byte) = 0xCBF43926 ∧
    (sha256 ([0x61, 0x62, 0x63] : List Byte)).take 8 = [0xba, 0x78, 0x16, 0xbf, 0x8f, 0x01, 0xcf, 0xea] ∧
    (sha512 ([0x61, 0x62, 0x63] : List Byte)).take 8 = [0xdd, 0xaf, 0x35, 0xa1, 0x93, 0x61, 0x7a, 0xba] := by decide +kernel

/-- The AES-256 example of FIPS 197. -/
theorem test_aes256 :
    aes256 0x000102030405060708090a0b0c0d0e0f101112131415161718191a1b1c1d1e1f#256 0x00112233445566778899aabbccddeeff =
      0x8ea2b7ca516745bfeafc49904b496089 := by decide +kernel

/-- The signature of the empty message that RFC 8032 publishes first; with another message it fails. -/
theorem test_ed25519 :
    (let key := beBytes 32 0xd75a980182b10ab7d54bfed3c964073a0ee172f3daa62325af021a68f707511a
     let sig := beBytes 64 0xe5564300c360ac729086e2cc806e828a84877f1eb8e5d974d873e065224901555fb8821590a33bacc61e39701cf9b46bd25bf5f0595bbe24655141438e7a100b
     ed25519Ok key [] sig = true ∧ ed25519Ok key [0] sig = false) := by decide +kernel

/-! ### Ill-formed commands are refused -/

theorem test_ill_formed :
    (Instr.registerWrite 0x102 0).wf = false ∧ (Instr.pcieLinkChange 0 4).wf = false ∧ (Instr.pcieLinkChange 5 3).wf = false ∧
    (Instr.nop 32 0 0 8).wf = false ∧ (Instr.nop 0 32 0 8).wf = false ∧ (Instr.nop 0 0 64 8).wf = false ∧
    (Instr.nop 0 0 0 7).wf = false ∧ (Instr.grainSlot 0 0 0).wf = false ∧
    (Instr.startSegment (List.replicate 12 0)).wf = false ∧ (Instr.dataSegment (List.replicate 17 0)).wf = false ∧
    (Instr.loadBlank (hdr 0x02 [(0x10, 2)]) [0]).wf = false ∧ (Instr.captureArm (hdr 0x21 [])).wf = false ∧
    (Instr.auth (hdr 0x28 [(8, 4)]) (fitBytes 96 [])).wf = false ∧ (Instr.auth (hdr 0x28 [(8, 5)]) []).wf = false ∧
    (Instr.ptpSync [] 0).wf = false ∧ (Instr.tableWrite (hdr 0x51 [(0x18, 1)]) []).wf = false ∧
    (Instr.otpWriteRecord (hdr 0x48 [(0xA, 1)]) [] none).wf = false ∧ (Instr.linkClear (hdr 0x10 [(0xB, 2)])).wf = false ∧
    (Instr.serviceRequest [] false [] 0).wf = false := by decide +kernel

theorem test_well_formed :
    (Instr.registerWrite 0x100 0).wf = true ∧ (Instr.pcieLinkChange 5 16).wf = true ∧ (Instr.nop 31 31 63 8).wf = true ∧
    (Instr.grainSlot 31 31 1).wf = true ∧ (Instr.captureArm (armHdr [])).wf = true ∧
    (Instr.startSegment (List.replicate 16 0)).wf = true ∧ (Instr.loadBlank (hdr 0x02 [(0x10, 1)]) [0]).wf = true ∧
    (Instr.auth (hdr 0x28 [(8, 5)]) (fitBytes 96 [])).wf = true ∧ (Instr.linkClear (hdr 0x10 [(0xB, 3)])).wf = true ∧
    (Instr.ptpSync (ptp 0 0 1 (beBytes 10 0)) 0).wf = true := by
  decide +kernel

end Sys2Proof.Tests
end

/-!
PROOFS. Register reads and writes (chapter 00): what a read with and without a latched word answers, what a write and an
I²C transaction come to, and what no table lists (R9 to R12, R431).
-/
namespace Sys2Proof.Machine

/-! ### Sparse maps and byte strings -/

/-- Storing what a key already reads as changes no canonical map. -/
theorem smapSet_get_from {α : Type} [DecidableEq α] {d : Nat → α} {m : SMap α} {lo : Nat} (k : Nat)
    (h : smapWfFrom d lo m = true) : smapSet d m k (smapGet d m k) = m := by
  induction m generalizing lo with
  | nil => simp [smapSet, smapGet]
  | cons e m ih =>
    obtain ⟨a, v⟩ := e
    simp only [smapWfFrom, Bool.and_eq_true, decide_eq_true_eq] at h
    obtain ⟨⟨-, hv⟩, hm⟩ := h
    rcases Nat.lt_trichotomy k a with hk | rfl | hk
    · have hget : smapGet d m k = d k := smapGet_below hm (by omega)
      simp [smapSet, smapGet, hk, hk.ne', hget]
    · simp [smapSet, smapGet, hv]
    · simp [smapSet, smapGet, hk.ne, hk.ne', Nat.not_lt.2 hk.le, ih hm]

/-- Storing what a key already reads as changes no canonical map. -/
theorem smapSet_get {α : Type} [DecidableEq α] {d : Nat → α} {m : SMap α} (k : Nat) (h : smapWf d m = true) :
    smapSet d m k (smapGet d m k) = m := smapSet_get_from k h

@[simp] theorem length_leBytes (n v : Nat) : (leBytes n v).length = n := by
  induction n generalizing v with
  | zero => rfl
  | succ n ih => simp [leBytes, ih]

/-- `n` little-endian bytes hold a number modulo 256^n. -/
theorem leNat_leBytes (n v : Nat) : leNat (leBytes n v) = v % 256 ^ n := by
  induction n generalizing v with
  | zero => simp [leBytes, leNat, Nat.mod_one]
  | succ n ih => simp [leBytes, leNat, ih, Nat.pow_succ', Nat.mod_mul]

/-- A 32-bit number reads back from its bytes at the head of a string. -/
theorem leAt_leBytes_append {v : Nat} (h : v < 2 ^ 32) (l : List Byte) : leAt (leBytes 4 v ++ l) 0 4 = v := by
  rw [leAt, List.drop_zero, List.take_left' (length_leBytes 4 v), leNat_leBytes, Nat.mod_eq_of_lt (by omega)]

/-- A 32-bit number reads back from its bytes behind four others. -/
theorem leAt_append_leBytes {v : Nat} (h : v < 2 ^ 32) {l : List Byte} (hl : l.length = 4) :
    leAt (l ++ leBytes 4 v) 4 4 = v := by
  rw [leAt, List.drop_left' hl, List.take_of_length_le (by simp), leNat_leBytes, Nat.mod_eq_of_lt (by omega)]

/-! ### The rows of register accesses, while the part is not held in reset -/

section
variable {s : State} (ha : awake s)
include ha

/-- A command runs on the part outside reset. -/
theorem run_of_awake (f : Part → Part) : run f s = .next (withPart s (f s.part)) := by
  simp [run, outOfReset, ha, withPart]

theorem exec_lowWordRead (off : BitVec 26) (balls : BitVec 64) :
    exec (.lowWordRead off balls) s = .next (withPart s (readInto balls off.toNat s.part)) := run_of_awake ha _

theorem exec_readClear (off : BitVec 26) (balls : BitVec 64) :
    exec (.readClear off balls) s = .next (withPart s (readInto balls off.toNat s.part)) := run_of_awake ha _

theorem exec_registerWrite (off : BitVec 26) (v : Reg32) :
    exec (.registerWrite off v) s = .next (withPart s (busWrite s.part off.toNat v)) := run_of_awake ha _

theorem exec_ringSetupWrite (off : BitVec 26) (v : Reg32) :
    exec (.ringSetupWrite off v) s = .next (withPart s (ringSetupWrite off v s.part)) := run_of_awake ha _

theorem exec_i2cAccess (addr : BitVec 7) (l : List Byte) (reads : Bool) (balls : BitVec 64) :
    exec (.i2cAccess addr l reads balls) s = .next (withPart s (i2cAccess addr l reads balls s.part)) := run_of_awake ha _

end

/-! ### Reads -/

/-- A read leaves the value read in the part that the access leaves. -/
theorem readInto_eq {p q : Part} {balls : BitVec 64} {off v : Nat} (h : busRead p balls off = (q, v)) :
    readInto balls off p = { q with readData := v } := by rw [readInto, h]

/-- Below the debug windows every read but that of TIM_NOW_FRAC goes by the latches and the register view. -/
theorem busRead_eq_readReg (p : Part) (balls : BitVec 64) {off : Nat} (hoff : off < 0x2000000)
    (hnow : off ≠ TIM_NOW_F.off) : busRead p balls off = readReg p balls off := by
  rw [busRead, if_neg (by omega), if_neg hnow]

/-- A latched word answers the read, and is then gone (R12). -/
theorem readReg_of_latched {p : Part} {off v : Nat} (balls : BitVec 64) (h : latched p off = some v) :
    readReg p balls off = (unlatch p off, v) := by rw [readReg, h]

/-- A read of a low word latches the high word (R12). -/
theorem readReg_pairLow {p : Part} {off : Nat} (balls : BitVec 64) (h : latched p off = none) (hlow : isPairLow off = true) :
    readReg p balls off = (clearRc (latchWord p (off + 4) (regView p balls (off + 4))) off, regView p balls off) := by
  simp [readReg, h, hlow]

/-- A read of any other register latches nothing. -/
theorem readReg_single {p : Part} {off : Nat} (balls : BitVec 64) (h : latched p off = none) (hlow : isPairLow off = false) :
    readReg p balls off = (clearRc p off, regView p balls off) := by
  simp [readReg, h, hlow]

@[simp] theorem clearRc_hiLatch (p : Part) (off : Nat) : (clearRc p off).hiLatch = p.hiLatch := setRegAt_hiLatch _ _ _

/-- A word just latched waits. -/
theorem latched_latchWord (p : Part) (off v : Nat) : latched (latchWord p off v) off = some v :=
  smapGet_set_ne_default (by simp)

/-- Whether a word waits depends on the latches alone. -/
theorem latched_congr {p q : Part} (h : p.hiLatch = q.hiLatch) (off : Nat) : latched p off = latched q off := by
  rw [latched, h, latched]

/-- A word dropped from canonical latches waits no longer. -/
theorem latched_unlatch {p : Part} (off : Nat) (h : smapWf (fun _ => (none : Option Nat)) p.hiLatch = true) :
    latched (unlatch p off) off = none := smapGet_set_self _ _ h

/-! ### The low word latches the high word (R12) -/

/-- A read of a low word leaves the value read, and the high word of the same moment in the latches. -/
theorem readInto_pairLow {p : Part} {off : Nat} (balls : BitVec 64) (hoff : off < 0x2000000) (hnow : off ≠ TIM_NOW_F.off)
    (hnone : latched p off = none) (hlow : isPairLow off = true) :
    readInto balls off p = { clearRc (latchWord p (off + 4) (regView p balls (off + 4))) off with
      readData := regView p balls off } :=
  readInto_eq ((busRead_eq_readReg p balls hoff hnow).trans (readReg_pairLow balls hnone hlow))

/-- A read of a latched word takes it out of the latches. -/
theorem readInto_of_latched {p : Part} {off v : Nat} (balls : BitVec 64) (hoff : off < 0x2000000)
    (hnow : off ≠ TIM_NOW_F.off) (h : latched p off = some v) :
    readInto balls off p = { unlatch p off with readData := v } :=
  readInto_eq ((busRead_eq_readReg p balls hoff hnow).trans (readReg_of_latched balls h))

/-- Settles O12: the read of the low word leaves the high word in the latches, where the read of `off + 4` finds it and
drops it. -/
theorem highWordLatch : Obligations.HighWordLatch := by
  intro s off hi balls ha hoff hlow hnow hnow4 hhi hnone
  have hread := readInto_pairLow balls (by omega) hnow hnone hlow
  refine ⟨_, exec_lowWordRead ha off balls, by rw [hread]; rfl, fun u balls2 hu hkept => ?_⟩
  have hlatch : u.part.hiLatch = (latchWord s.part (off.toNat + 4) (regView s.part balls (off.toNat + 4))).hiLatch := by
    simpa [hread] using hkept
  have hwaits : latched u.part hi.toNat = some (regView s.part balls (off.toNat + 4)) := by
    rw [latched_congr hlatch, hhi, latched_latchWord]
  have hread2 := readInto_of_latched balls2 (by omega) (by omega) hwaits
  refine ⟨_, exec_lowWordRead hu hi balls2, by rw [hread2]; rfl, fun hwf => ?_⟩
  have hwf2 : smapWf (fun _ => (none : Option Nat)) u.part.hiLatch = true := hlatch ▸ smapWf_set _ _ hwf
  rw [hread2]
  exact latched_unlatch hi.toNat hwf2

/-! ### Offsets that no register table lists (R11) -/

/-- Does an array of registers end within `b` bytes of its first? -/
def dimsWithin : List (Nat × Nat) → Nat → Bool
  | [], b => decide (0 < b)
  | (s, n) :: _, b => decide (0 < s) && decide (s * n ≤ b)

/-- A register of an array lies within the bytes of the array. -/
theorem lt_of_dimsHit {l : List (Nat × Nat)} {b d : Nat} (hb : dimsWithin l b = true) (hd : dimsHit l d = true) :
    d < b := by
  cases l with
  | nil => simp_all [dimsWithin, dimsHit]
  | cons e l =>
    obtain ⟨s, n⟩ := e
    simp only [dimsWithin, dimsHit, Bool.and_eq_true, decide_eq_true_eq] at hb hd
    exact (Nat.div_lt_iff_lt_mul hb.1).1 hd.1 |>.trans_le (Nat.mul_comm s n ▸ hb.2)

/-- Each low word of the list of pairs starts the array of some row of its block, and the array ends in that block. -/
theorem pairLows_are_rows : ∀ e ∈ pairLows,
    (∃ f ∈ rowsOfBlock (e.1 / 0x100000), f.off = e.1 ∧ f.dims = e.2) ∧
    dimsWithin e.2 (0x100000 - e.1 % 0x100000) = true := by decide +kernel

/-- Some register table lists every low word of a pair. -/
theorem rowsAt_ne_nil_of_isPairLow {off : Nat} (h : isPairLow off = true) : rowsAt off ≠ [] := by
  obtain ⟨e, he, hhit⟩ := List.any_eq_true.1 h
  simp only [Bool.and_eq_true, decide_eq_true_eq] at hhit
  obtain ⟨hle, hdims⟩ := hhit
  obtain ⟨⟨f, hf, hfoff, hfdims⟩, hwithin⟩ := pairLows_are_rows e he
  have hblock : off / 0x100000 = e.1 / 0x100000 := by
    have := lt_of_dimsHit hwithin hdims
    omega
  refine List.ne_nil_of_mem (List.mem_filter.2 ⟨hblock ▸ hf, ?_⟩)
  simp [FieldRow.hits, hfoff, hfdims, hle, hdims]

section
variable {off : Nat} (hoff : rowsAt off = [])
include hoff

/-- An unlisted offset is not that of a row. -/
theorem ne_off_of_unlisted {f : FieldRow} (hf : rowsAt f.off ≠ []) : off ≠ f.off := fun e => hf (e ▸ hoff)

theorem isPairLow_of_unlisted : isPairLow off = false :=
  Bool.eq_false_iff.2 fun h => rowsAt_ne_nil_of_isPairLow h hoff

theorem regView_of_unlisted (p : Part) (balls : BitVec 64) : regView p balls off = 0 := by
  have hL : off ≠ GIO_LEVEL_L.off := ne_off_of_unlisted hoff (by decide)
  have hH : off ≠ GIO_LEVEL_H.off := ne_off_of_unlisted hoff (by decide)
  simp [regView, hL, hH, hoff]

/-- With no field to clear, the register is stored back as it is. -/
theorem clearRc_of_unlisted {p : Part} (hp : smapWf regReset p.regs = true) : clearRc p off = p := by
  have hsame : setRegAt p off (regAt p off) = p := by rw [setRegAt, regAt, smapSet_get off hp]
  simpa [clearRc, hoff] using hsame

/-- An unlisted offset below the debug windows reads as 0, and the read changes nothing. -/
theorem busRead_of_unlisted {p : Part} (balls : BitVec 64) (hlt : off < 0x2000000) (hp : smapWf regReset p.regs = true)
    (hnone : latched p off = none) : busRead p balls off = (p, 0) := by
  rw [busRead_eq_readReg p balls hlt (ne_off_of_unlisted hoff (by decide)),
    readReg_single balls hnone (isPairLow_of_unlisted hoff), clearRc_of_unlisted hoff hp, regView_of_unlisted hoff]

theorem busWrite_of_unlisted (p : Part) (v : Reg32) : busWrite p off v = p := by simp [busWrite, hoff]

end

theorem ringSetupWrite_of_unlisted {off : BitVec 26} (hoff : rowsAt off.toNat = []) (v : Reg32) (p : Part) :
    ringSetupWrite off v p = p := by simp [ringSetupWrite, hoff]

/-! ### I²C transactions (R431) -/

/-- The 4 bytes of an offset and a repeated start, at the part's address and outside POWERUP: a read, and its PEC byte. -/
theorem i2cAccess_read {p : Part} {addr : BitVec 7} {off : Nat} (balls : BitVec 64) (haddr : addr.toNat = i2cAddress p)
    (hps : p.boot.ps ≠ .powerup) (hlt : off < 0x2000000) :
    i2cAccess addr (leBytes 4 off) true balls p = { readInto balls off p with
      readPec := (smbusPec (i2cByte addr false :: leBytes 4 off ++
        i2cByte addr true :: leBytes 4 (readInto balls off p).readData)).toNat } := by
  have hat : leAt (leBytes 4 off) 0 4 = off := by simpa using leAt_leBytes_append (by omega : off < 2 ^ 32) []
  simp [i2cAccess, hat, haddr, hps, hlt]

/-- The 4 bytes of an offset and 4 of a value: a write of it, but nothing at another address or in POWERUP. -/
theorem i2cAccess_write (addr : BitVec 7) {off : Nat} (v : Reg32) (balls : BitVec 64) (p : Part) (hlt : off < 0x2000000) :
    i2cAccess addr (leBytes 4 off ++ leBytes 4 v.toNat) false balls p =
      if addr.toNat ≠ i2cAddress p ∨ p.boot.ps = .powerup then p else busWrite p off v := by
  have hoff : leAt (leBytes 4 off ++ leBytes 4 v.toNat) 0 4 = off := leAt_leBytes_append (by omega) _
  have hval : leAt (leBytes 4 off ++ leBytes 4 v.toNat) 4 4 = v.toNat := leAt_append_leBytes v.isLt (length_leBytes _ _)
  simp [i2cAccess, hoff, hval, Nat.not_le.2 hlt]

/-! ### Unlisted offsets read as 0 and take no write (R11) -/

/-- Settles O13: no pair, no latch and no field of a row is at the offset, so a read stores its register back as it is, and
no write reaches one. -/
theorem unlistedOffsets : Obligations.UnlistedOffsets := by
  intro s off v balls ha hcanon hlt hoff hnone
  obtain ⟨hregs, -⟩ := hcanon
  have hread : readInto balls off.toNat s.part = { s.part with readData := 0 } :=
    readInto_eq (busRead_of_unlisted hoff balls hlt hregs hnone)
  refine ⟨?_, ?_, fun addr haddr hps => ?_, ?_, ?_, fun addr => ?_⟩
  · rw [exec_lowWordRead ha, hread]
  · rw [exec_readClear ha, hread]
  · rw [exec_i2cAccess ha, i2cAccess_read balls haddr hps hlt, hread]
  · rw [exec_registerWrite ha, busWrite_of_unlisted hoff, withPart_self]
  · rw [exec_ringSetupWrite ha, ringSetupWrite_of_unlisted hoff, withPart_self]
  · rw [exec_i2cAccess ha, i2cAccess_write addr v balls s.part hlt, busWrite_of_unlisted hoff, ite_self, withPart_self]

end Sys2Proof.Machine

/-!
PROOFS. Spindles and billets (chapter 02): the row of each spindle opcode, what passing a step, fetching and reading the
operands change, and the suppression of an instruction by an uncorrectable word (R29, R33, R34, R58 to R60).
-/
namespace Sys2Proof.Machine

/-! ### The rows of the spindle opcodes -/

/-- The effect of an opcode's row on the part. -/
def spRow (op : SpOp) (a : Site) (p : Part) : Part :=
  match op with
  | .nop => spNop a p | .bool3 => spBool3 a p | .move => spMove a p | .sel => spSel a p | .add => spAdd a p
  | .sub => spSub a p | .cmp => spCmp a p | .min => spMin a p | .max => spMax a p | .cmpx => spCmpx a p
  | .shf => spShf a p | .rot => spRot a p | .popc => spPopc a p | .prio => spPrio a p | .ldi => spLdi a p
  | .send => spSend a p | .recv => spRecv a p | .bpub => spBpub a p | .tblr => spTblr a p | .tblw => spTblw a p
  | .pin => spPin a p | .pout => spPout a p | .hist => spHist a p | .probe => spProbe a p | .accept => spAccept a p
  | .uevt => spUevt a p | .stat => spStat a p

theorem exec_rowAt {s : State} (ha : awake s) (op : SpOp) (a : Site) :
    exec (rowAt op a) s = .next (withPart s (spRow op a s.part)) := by
  cases op <;> exact run_of_awake ha _

/-- An uncorrectable entry suppresses whatever the row would do with it. -/
theorem issue_of_double {p : Part} {a : Site} (hi : issues p a = true) (hd : eccKind (seenEntry p a) = .double)
    (op : SpOp) (act : Part → SpInstr → Part) :
    issue p a op act = spindleCatch (suppress (passStep p a) a) .imem a 0 0 := by
  simp [issue, hi, hd]

/-- The row of the fetched instruction's opcode acts on the part that has fetched it. -/
theorem issue_of_executes {s : State} {a : Site} {i : SpInstr} (h : executes s a i) (act : Part → SpInstr → Part) :
    issue s.part a (spOpOf i) act = act (fetched s.part a) i := by
  obtain ⟨-, hi, hd, hdec⟩ := h
  simp [issue, hi, hd, hdec]

/-- An uncorrectable operand word suppresses whatever the instruction would do with its operands. -/
theorem withOperands_of_unreadable {p : Part} {a : Site} {os : List Opnd} (h : (readStages p a os).2 ≠ false)
    (act : Part → List Word → Part) :
    withOperands p a os act = spindleCatch (suppress (readStages p a os).1 a) .dmem a 0 0 := by
  simp [withOperands, h]

/-- Every row acts on the entry that it issues. -/
theorem spRow_eq_issue (op : SpOp) (a : Site) (p : Part) : ∃ act, spRow op a p = issue p a op act := by
  cases op with
  | _ => rw [spRow]; exact ⟨_, rfl⟩

/-- An instruction with operands acts on their values. -/
theorem spRow_eq_withOperands {s : State} {a : Site} {i : SpInstr} (h : executes s a i) (hos : opndsOf i ≠ []) :
    ∃ act, spRow (spOpOf i) a s.part = withOperands (fetched s.part a) a (opndsOf i) act := by
  cases i with
  | nop | ldi | pin => exact absurd rfl hos
  | _ => rw [spOpOf, spRow]; exact ⟨_, issue_of_executes h _⟩

theorem spRow_of_double {p : Part} {a : Site} (hi : issues p a = true) (hd : eccKind (seenEntry p a) = .double)
    (op : SpOp) : spRow op a p = spindleCatch (suppress (passStep p a) a) .imem a 0 0 := by
  obtain ⟨act, hrow⟩ := spRow_eq_issue op a p
  rw [hrow, issue_of_double hi hd]

theorem spRow_of_unreadable {s : State} {a : Site} {i : SpInstr} (h : executes s a i)
    (hr : ¬ readable s a (opndsOf i)) :
    spRow (spOpOf i) a s.part =
      spindleCatch (suppress (readStages (fetched s.part a) a (opndsOf i)).1 a) .dmem a 0 0 := by
  have hos : opndsOf i ≠ [] := fun hnil => hr (by rw [readable, hnil]; rfl)
  obtain ⟨act, hrow⟩ := spRow_eq_withOperands h hos
  rw [hrow, withOperands_of_unreadable hr]

/-! ### What passing a step, fetching and reading operands change -/

theorem commitPend_frame (p : Part) (sp : Nat) :
    commitPend p sp = { p with sp := { p.sp with
      dmem := (commitPend p sp).sp.dmem, pend := (commitPend p sp).sp.pend, dQueue := (commitPend p sp).sp.dQueue } } := by
  unfold commitPend; dsimp only; split <;> rfl

theorem settlePend_frame (p : Part) (sp step : Nat) :
    settlePend p sp step = { p with sp := { p.sp with
      dmem := (settlePend p sp step).sp.dmem, pend := (settlePend p sp step).sp.pend,
      dQueue := (settlePend p sp step).sp.dQueue } } := by
  unfold settlePend
  split
  · exact commitPend_frame p sp
  · rfl

theorem passStep_frame (p : Part) (a : Site) :
    passStep p a = { p with sp := { p.sp with
      dmem := (passStep p a).sp.dmem, pend := (passStep p a).sp.pend, dQueue := (passStep p a).sp.dQueue,
      lastStep := (passStep p a).sp.lastStep } } := by
  rw [passStep, settlePend_frame]

theorem queueEntry_frame (p : Part) (a : Site) :
    queueEntry p a = { p with sp := { p.sp with
      imem := (queueEntry p a).sp.imem, iQueue := (queueEntry p a).sp.iQueue, iUsed := (queueEntry p a).sp.iUsed,
      iFixed := (queueEntry p a).sp.iFixed } } := by
  unfold queueEntry; dsimp only
  split
  · rfl
  · split <;> rfl

theorem noteFetch_frame (p : Part) (a : Site) (kind : EccKind) :
    noteFetch p a kind = { p with sp := { p.sp with
      imem := (noteFetch p a kind).sp.imem, iQueue := (noteFetch p a kind).sp.iQueue,
      iUsed := (noteFetch p a kind).sp.iUsed, iFixed := (noteFetch p a kind).sp.iFixed,
      ceI := (noteFetch p a kind).sp.ceI } } := by
  cases kind with
  | corrected b => rw [noteFetch, queueEntry_frame]; rfl
  | clean | double => rfl

/-- The fetch adds to the passing of the step only what a corrected entry leaves. -/
theorem fetched_frame_passStep (p : Part) (a : Site) :
    fetched p a = { passStep p a with sp := { (passStep p a).sp with
      imem := (fetched p a).sp.imem, iQueue := (fetched p a).sp.iQueue, iUsed := (fetched p a).sp.iUsed,
      iFixed := (fetched p a).sp.iFixed, ceI := (fetched p a).sp.ceI } } :=
  noteFetch_frame (passStep p a) a _

theorem queueData_frame (p : Part) (a : Site) (x : Nat) :
    queueData p a x = { p with sp := { p.sp with
      dmem := (queueData p a x).sp.dmem, dQueue := (queueData p a x).sp.dQueue, dUsed := (queueData p a x).sp.dUsed,
      dFixed := (queueData p a x).sp.dFixed } } := by
  unfold queueData; dsimp only
  split
  · rfl
  · split <;> rfl

theorem readStage_frame (p : Part) (a : Site) (o : Opnd) :
    (readStage p a o).1 = { p with sp := { p.sp with
      dmem := (readStage p a o).1.sp.dmem, dQueue := (readStage p a o).1.sp.dQueue,
      dUsed := (readStage p a o).1.sp.dUsed, dFixed := (readStage p a o).1.sp.dFixed,
      ceD := (readStage p a o).1.sp.ceD } } := by
  cases o with
  | mem x =>
    unfold readStage; dsimp only
    split
    · rfl
    · dsimp only; rw [queueData_frame]; rfl
    · rfl
  | bus | grain | tr => rfl

theorem readStages_frame (p : Part) (a : Site) (os : List Opnd) :
    (readStages p a os).1 = { p with sp := { p.sp with
      dmem := (readStages p a os).1.sp.dmem, dQueue := (readStages p a os).1.sp.dQueue,
      dUsed := (readStages p a os).1.sp.dUsed, dFixed := (readStages p a os).1.sp.dFixed,
      ceD := (readStages p a os).1.sp.ceD } } := by
  induction os generalizing p with
  | nil => rfl
  | cons o os ih =>
    have hcons : (readStages p a (o :: os)).1 = (readStages (readStage p a o).1 a os).1 := rfl
    rw [hcons, ih, readStage_frame]

/-! ### Suppression (R60) -/

@[simp] theorem spindleCatch_sp (p : Part) (c : CatchClass) (a : Site) (flags detail : Nat) :
    (spindleCatch p c a flags detail).sp = p.sp := raiseCatch_sp ..

@[simp] theorem spindleCatch_gr (p : Part) (c : CatchClass) (a : Site) (flags detail : Nat) :
    (spindleCatch p c a flags detail).gr = p.gr := raiseCatch_gr ..

@[simp] theorem suppress_gr (p : Part) (a : Site) : (suppress p a).gr = p.gr := rfl

theorem suppressedAt_suppress (p : Part) (a : Site) : suppressedAt (suppress p a) a.sp a.step = true :=
  smapGet_set_ne_default (by simp)

/-- Nothing has left the instruction of a site in `q`: no result beyond what passing the step leaves on its way, no bus
word, no table access, no load of TR, and no SEND or staging write in the grain (R60). -/
structure NothingLeft (p : Part) (a : Site) (q : Part) : Prop where
  pend : q.sp.pend = (passStep p a).sp.pend
  bus : q.sp.bus = p.sp.bus
  table : q.sp.table = p.sp.table
  tr : q.sp.tr = p.sp.tr
  tableStep : q.sp.tableStep = p.sp.tableStep
  gr : q.gr = p.gr

theorem nothingLeft_passStep (p : Part) (a : Site) : NothingLeft p a (passStep p a) := by
  constructor
  case pend => rfl
  all_goals rw [passStep_frame]

theorem nothingLeft_fetched (p : Part) (a : Site) : NothingLeft p a (fetched p a) := by
  rw [fetched_frame_passStep]
  exact { nothingLeft_passStep p a with }

theorem NothingLeft.readStages {p q : Part} {a : Site} (h : NothingLeft p a q) (os : List Opnd) :
    NothingLeft p a (readStages q a os).1 := by
  rw [readStages_frame]
  exact { h with }

/-- A suppression adds its mark and its catch alone. -/
theorem NothingLeft.spindleCatch_suppress {p q : Part} {a : Site} (h : NothingLeft p a q) (c : CatchClass)
    (flags detail : Nat) : NothingLeft p a (spindleCatch (suppress q a) c a flags detail) := by
  constructor <;> simp [suppress, h.pend, h.bus, h.table, h.tr, h.tableStep, h.gr]

/-- The row of an opcode at a site that suppresses it: the mark and a catch on the part `q` at which the error was found,
where nothing had left the instruction. -/
theorem spRow_of_suppressed {s : State} {a : Site} {op : SpOp} {i : SpInstr} {os : List Opnd} {q : Part}
    (hi : issues s.part a = true)
    (h : (eccKind (seenEntry s.part a) = .double ∧ q = passStep s.part a) ∨
      (executes s a i ∧ spOpOf i = op ∧ os = opndsOf i ∧ ¬ readable s a os ∧
        q = (readStages (fetched s.part a) a os).1)) :
    NothingLeft s.part a q ∧ ∃ c, spRow op a s.part = spindleCatch (suppress q a) c a 0 0 := by
  obtain ⟨hd, rfl⟩ | ⟨hx, rfl, rfl, hr, rfl⟩ := h
  · exact ⟨nothingLeft_passStep _ _, .imem, spRow_of_double hi hd op⟩
  · exact ⟨(nothingLeft_fetched _ _).readStages _, .dmem, spRow_of_unreadable hx hr⟩

/-- An injection that a suppressed spindle did not make supplies no word, and its absence is no fault. -/
theorem slotSource_of_suppressed {p : Part} {bil ch step idx : Nat} {e : SlotEntry} (howner : e.owner = .inject idx)
    (hnone : ∀ j ∈ smapGet (fun _ => []) p.gr.inject (bil * 16 + ch), j.1 ≠ step)
    (hsup : suppressedAt p (bil * 64 + idx) (step - 1) = true) : slotSource p bil ch step e = (none, false) := by
  have hjs : (smapGet (fun _ => []) p.gr.inject (bil * 16 + ch)).filter (fun j => j.1 == step) = [] := by
    simpa using hnone
  simp [slotSource, howner, hjs, hsup]

/-- An owned slot of good parity whose source supplies no word without fault carries a zero word under its tag. -/
theorem routerSlot_of_absent {p : Part} {col row ch step : Nat} (hheld : colHeld p col = false)
    (hparity : (slotAt p (billetNo col row) ch step).badParity = false)
    (howner : (slotAt p (billetNo col row) ch step).owner ≠ .empty)
    (hsrc : slotSource p (billetNo col row) ch step (slotAt p (billetNo col row) ch step) = (none, false)) :
    routerSlot col row step p ch = routerSend p col row ch step ⟨(slotAt p (billetNo col row) ch step).tag, 0⟩ := by
  simp [routerSlot, hheld, hparity, howner, hsrc]

/-- Settles O31: the row of a suppressed instruction comes to a mark and a catch, and the router finds the mark. -/
theorem suppressedInstructions : Obligations.SuppressedInstructions := by
  refine ⟨fun s a op i os q ha hi h => ?_, fun p col row ch step idx hheld he hnone _ hsup => ?_⟩
  · obtain ⟨hq, c, hrow⟩ := spRow_of_suppressed hi h
    obtain ⟨hpend, hbus, htable, htr, htableStep, hgr⟩ := hq.spindleCatch_suppress c 0 0
    refine ⟨withPart s (spindleCatch (suppress q a) c a 0 0), by rw [exec_rowAt ha, hrow], ?_,
      hpend, hbus, htable, htr, htableStep, hgr, ?_⟩
    · simp [suppress]
    · simpa [suppressedAt] using suppressedAt_suppress q a
  · have howner : (slotAt p (billetNo col row) ch step).owner = .inject idx := by rw [he]
    have hparity : (slotAt p (billetNo col row) ch step).badParity = false := by rw [he]
    exact routerSlot_of_absent hheld hparity (by simp [howner]) (slotSource_of_suppressed howner hnone hsup)

end Sys2Proof.Machine

/-!
PROOFS. The instruction set (chapter 03): the lanes of a result, what an instruction with a result leaves, what the
decoder refuses, BOOL3, MOVE, SEL, LDI (R86), and NOP (R30, R85).
-/
namespace Sys2Proof.Machine

/-! ### The lanes of a result (R80) -/

theorem lanesSum_lt (w : Nat) (f : Nat → Nat) (n : Nat) : lanesSum w f n < 2 ^ (n * w) := by
  induction n with
  | zero => simp [lanesSum]
  | succ n ih =>
    have hf : f n % 2 ^ w < 2 ^ w := Nat.mod_lt _ (by positivity)
    calc lanesSum w f (n + 1) < 2 ^ (n * w) + f n % 2 ^ w * 2 ^ (n * w) := Nat.add_lt_add_right ih _
      _ = (f n % 2 ^ w + 1) * 2 ^ (n * w) := by ring
      _ ≤ 2 ^ w * 2 ^ (n * w) := Nat.mul_le_mul_right _ hf
      _ = 2 ^ ((n + 1) * w) := by ring

/-- Lane `k` of a sum of lanes is the lane put there: those below it leave no carry, and those above it are multiples of
the next lane's place. -/
theorem lanesSum_lane (w : Nat) (f : Nat → Nat) {k n : Nat} (hk : k < n) :
    lanesSum w f n / 2 ^ (k * w) % 2 ^ w = f k % 2 ^ w := by
  induction n with
  | zero => omega
  | succ n ih =>
    rw [lanesSum]
    obtain rfl | hlt := Nat.eq_or_lt_of_le (Nat.le_of_lt_succ hk)
    · rw [Nat.add_mul_div_right _ _ (by positivity), Nat.div_eq_of_lt (lanesSum_lt w f k), Nat.zero_add, Nat.mod_mod]
    · obtain ⟨m, rfl⟩ := Nat.exists_eq_add_of_lt hlt
      have hplace : f (k + m + 1) % 2 ^ w * 2 ^ ((k + m + 1) * w) =
          2 ^ (k * w) * (2 ^ w * (f (k + m + 1) % 2 ^ w * 2 ^ (m * w))) := by ring
      rw [hplace, Nat.add_mul_div_left _ _ (by positivity), Nat.add_mul_mod_self_left, ih hlt]

/-- Lane `k` of a word built of lanes holds the low bits of what was put there. -/
theorem lane_ofLanes {w k : Nat} (f : Nat → Nat) (hk : k < 64 / w) : lane w (ofLanes w f) k = f k % 2 ^ w := by
  have hlt : lanesSum w f (64 / w) < 2 ^ 64 :=
    (lanesSum_lt w f _).trans_le (Nat.pow_le_pow_right (by decide) (Nat.div_mul_le_self 64 w))
  rw [lane, ofLanes, BitVec.toNat_ofNat, Nat.mod_eq_of_lt hlt, lanesSum_lane w f hk]

/-- A value that fits its lane reads back whole. -/
theorem lane_ofLanes_of_lt {w k : Nat} {f : Nat → Nat} (hk : k < 64 / w) (hf : f k < 2 ^ w) :
    lane w (ofLanes w f) k = f k := by
  rw [lane_ofLanes f hk, Nat.mod_eq_of_lt hf]

theorem lane_lt (w : Nat) (x : Word) (k : Nat) : lane w x k < 2 ^ w := Nat.mod_lt _ (by positivity)

/-- Lanes of width 1 are the bits. -/
theorem lane_one (x : Word) (j : Nat) : lane 1 x j = (x.getLsbD j).toNat := by
  rw [lane, BitVec.getLsbD, Nat.mul_one, Nat.pow_one, Nat.toNat_testBit]

/-! ### The results of BOOL3, SEL and LDI (R86) -/

theorem getLsbD_resBool3 (tt : Nat) (x y z : Word) {j : Nat} (hj : j < 64) :
    (resBool3 tt x y z).getLsbD j =
      tt.testBit (4 * (x.getLsbD j).toNat + 2 * (y.getLsbD j).toNat + (z.getLsbD j).toNat) := by
  have hbit : lane 1 (resBool3 tt x y z) j =
      (tt.testBit (4 * lane 1 x j + 2 * lane 1 y j + lane 1 z j)).toNat := by
    rw [resBool3, lane_ofLanes_of_lt (by simpa using hj)]
    · rw [Bool.toNat, Bool.cond_eq_ite]
    · split <;> decide
  simp only [lane_one] at hbit
  rw [Bool.eq_iff_iff, ← Bool.toNat_eq_one, hbit, Bool.toNat_eq_one]

theorem lane_resSel (lm : Nat) (x y z : Word) {k : Nat} (hk : k < 64 / laneWidth lm) :
    lane (laneWidth lm) (resSel lm x y z) k =
      if lane (laneWidth lm) z k ≠ 0 then lane (laneWidth lm) x k else lane (laneWidth lm) y k := by
  rw [resSel, lane_ofLanes_of_lt hk]
  split <;> exact lane_lt _ _ _

section
variable {imm : Nat} (himm : imm < 2 ^ 16)
include himm

theorem lane_resLdi_replicate {k : Nat} (hk : k < 4) : lane 16 (resLdi imm 0) k = imm :=
  lane_ofLanes_of_lt (f := fun _ => imm) hk himm

theorem toNat_resLdi_zeroExtend : (resLdi imm 1).toNat = imm := by
  simp only [resLdi, BitVec.toNat_ofNat]; omega

theorem resLdi_signExtend : resLdi imm 2 = (BitVec.ofNat 16 imm).signExtend 64 := by
  apply BitVec.eq_of_toNat_eq
  simp only [resLdi, BitVec.toNat_signExtend, BitVec.msb_eq_decide, BitVec.toNat_setWidth, BitVec.toNat_ofNat,
    decide_eq_true_eq]
  split <;> split <;> omega

theorem lane_resInsert (x : Word) (sel : Nat) {k : Nat} (hk : k < 4) :
    lane 16 (resInsert x sel imm) k = if k = sel then imm else lane 16 x k := by
  rw [resInsert, lane_ofLanes_of_lt hk]
  split
  · exact himm
  · exact lane_lt _ _ _

end

/-! ### What an instruction with a result leaves (R28, R33 to R35, R39, R81) -/

theorem opndValue_sp (p : Part) (a : Site) (o : Opnd) : (opndValue p a o).1.sp = p.sp := by
  cases o with
  | mem | bus | tr => rfl
  | grain ch tag =>
    rw [opndValue, grainValue]
    split
    · split
      · rfl
      · exact spindleCatch_sp ..
    · exact spindleCatch_sp ..

theorem opndValues_sp (p : Part) (a : Site) (os : List Opnd) : (opndValues p a os).1.sp = p.sp := by
  induction os generalizing p with
  | nil => rfl
  | cons o os ih => exact (ih _).trans (opndValue_sp p a o)

/-- Neither the fetch nor the operands of an instruction touch the bus. -/
theorem opnds_bus (s : State) (a : Site) (os : List Opnd) : (opnds s a os).1.sp.bus = s.part.sp.bus := by
  rw [opnds, opndValues_sp]
  exact ((nothingLeft_fetched _ _).readStages os).bus

theorem withOperands_of_readable {s : State} {a : Site} {os : List Opnd} (h : readable s a os)
    (act : Part → List Word → Part) :
    withOperands (fetched s.part a) a os act = act (opnds s a os).1 (opnds s a os).2 := by
  simp [withOperands, h, opnds]

theorem pendAt_writeData (p : Part) {a : Site} (ha : a.step ≠ 0) (x : Nat) (r : Word) :
    pendAt (writeData p a x r) a = ⟨a.step, x, r⟩ :=
  smapGet_set_ne_default (by simp [ha])

theorem writeData_bus (p : Part) (a : Site) (x : Nat) (r : Word) : (writeData p a x r).sp.bus = p.sp.bus := by
  rw [writeData, commitPend_frame]

theorem busAt_publish (p : Part) {a : Site} (ha : a.step ≠ 0) (r : Word) :
    busAt (publish p a r) a = ⟨(busAt p a).latest, r, a.step⟩ :=
  smapGet_set_ne_default (by simp [ha])

/-- A result is finished on a part whose bus is still that of the state. -/
theorem resultIs_finish {s : State} {a : Site} {q : Part} (ha : a.step ≠ 0) (hbus : q.sp.bus = s.part.sp.bus)
    (dst : Nat) (pub : Bool) (r : Word) : resultIs s (withPart s (finish q a dst pub r)) a dst pub r := by
  have hkept : busAt (writeData q a dst r) a = busAt s.part a := by rw [busAt, writeData_bus, hbus, busAt]
  cases pub with
  | false => exact ⟨pendAt_writeData q ha dst r, hkept⟩
  | true => exact ⟨pendAt_writeData q ha dst r, by
      rw [withPart_part, finish, if_pos rfl, busAt_publish _ ha, hkept, if_pos rfl]⟩

/-- An instruction executes at a step after one that the spindle has passed, so not at step 0. -/
theorem step_ne_zero_of_executes {s : State} {a : Site} {i : SpInstr} (h : executes s a i) : a.step ≠ 0 := by
  obtain ⟨-, hi, -, -⟩ := h
  simp only [issues, Bool.and_eq_true, decide_eq_true_eq] at hi
  obtain ⟨-, hlast⟩ := hi
  omega

/-- The row of an instruction that finishes a result `r` on a part with the bus of the state. -/
theorem exec_rowAt_of_finish {s : State} {a : Site} {i : SpInstr} {q : Part} {dst : Nat} {pub : Bool} {r : Word}
    (h : executes s a i) (hbus : q.sp.bus = s.part.sp.bus)
    (hrow : spRow (spOpOf i) a s.part = finish q a dst pub r) :
    ∃ t : State, exec (rowAt (spOpOf i) a) s = .next t ∧ resultIs s t a dst pub r :=
  ⟨_, by rw [exec_rowAt h.1, hrow], resultIs_finish (step_ne_zero_of_executes h) hbus dst pub r⟩

/-- The row of an instruction that finishes a function `res` of its operands, all of them readable. -/
theorem exec_rowAt_of_result {s : State} {a : Site} {i : SpInstr} {os : List Opnd} {dst : Nat} {pub : Bool}
    {res : List Word → Word} (h : executes s a i) (hr : readable s a os)
    (hrow : spRow (spOpOf i) a s.part =
      withOperands (fetched s.part a) a os fun p vs => finish p a dst pub (res vs)) :
    ∃ t : State, exec (rowAt (spOpOf i) a) s = .next t ∧ resultIs s t a dst pub (res (opnds s a os).2) :=
  exec_rowAt_of_finish h (opnds_bus s a os) (hrow.trans (withOperands_of_readable hr _))

/-- An unreadable operand suppresses the row of an instruction, and leaves no result of it. -/
theorem exec_rowAt_of_unreadable {s : State} {a : Site} {i : SpInstr} (h : executes s a i)
    (hr : ¬ readable s a (opndsOf i)) :
    ∃ t : State, exec (rowAt (spOpOf i) a) s = .next t ∧ pendAt t.part a = pendAt (fetched s.part a) a ∧
      busAt t.part a = busAt s.part a ∧ suppressedAt t.part a.sp a.step = true := by
  have hleft := ((nothingLeft_fetched s.part a).readStages (opndsOf i)).spindleCatch_suppress .dmem 0 0
  refine ⟨_, by rw [exec_rowAt h.1, spRow_of_unreadable h hr], ?_, by rw [busAt, withPart_part, hleft.bus, busAt], ?_⟩
  · rw [pendAt, withPart_part, hleft.pend, pendAt, (nothingLeft_fetched s.part a).pend]
  · simpa [suppressedAt] using suppressedAt_suppress (readStages (fetched s.part a) a (opndsOf i)).1 a

/-! ### The decoder (R73, R74) -/

/-- The decoder takes a word for the instruction that its fields spell, when the instruction encodes to it. -/
theorem decodeSp_eq_some_iff {w : Word} {i : SpInstr} :
    decodeSp w = some i ↔ parseFields (splitFields w.toNat) = some i ∧ spWf i = true ∧ encodeNat i = w.toNat := by
  rw [decodeSp]
  split
  · next j hj =>
    rw [hj, Option.some_inj]
    constructor
    · intro h
      split at h
      · next hok =>
        obtain rfl := Option.some.inj h
        simpa using hok
      · cases h
    · rintro ⟨rfl, hwf, henc⟩
      simp [hwf, henc]
  · next hnone => simp [hnone]

/-- The fields of a word read back where each fits its place (R72). -/
theorem splitFields_joinFields {op dest sa sb sc spec : Nat} (hop : op < 2 ^ 6) (hdest : dest < 2 ^ 8) (hsa : sa < 2 ^ 8)
    (hsb : sb < 2 ^ 8) (hsc : sc < 2 ^ 8) (hspec : spec < 2 ^ 26) :
    splitFields (joinFields ⟨op, dest, sa, sb, sc, spec⟩) = ⟨op, dest, sa, sb, sc, spec⟩ := by
  simp only [splitFields, joinFields, SpFields.mk.injEq]
  omega

/-- The fields of an LDI word spell its MODE 11 or one of the others (R86). -/
theorem parseFields_ldi {x : SpFields} (h : x.op = 0x14) :
    parseFields x = if x.spec / 2 ^ 8 % 4 = 3
      then some (.ldiInsert x.dest x.sa x.sb (x.spec / 2 ^ 10 % 2 ^ 16) (x.spec / 2 ^ 7 % 2 == 1))
      else some (.ldi x.dest (x.spec / 2 ^ 10 % 2 ^ 16) (x.spec / 2 ^ 8 % 4) (x.spec / 2 ^ 7 % 2 == 1)) := by
  simp [parseFields, h]

/-- In MODE 00, 01 and 10, SA, SB and SC are 0. -/
theorem fields_of_decodeSp_ldi {w : Word} {dst imm mode : Nat} {pub : Bool}
    (h : decodeSp w = some (.ldi dst imm mode pub)) :
    (splitFields w.toNat).sa = 0 ∧ (splitFields w.toNat).sb = 0 ∧ (splitFields w.toNat).sc = 0 := by
  obtain ⟨-, hwf, henc⟩ := decodeSp_eq_some_iff.1 h
  simp only [spWf, Bool.and_eq_true, decide_eq_true_eq] at hwf
  have hpub := pub.toNat_le
  rw [← henc, encodeNat, splitFields_joinFields (by decide) (by omega) (by omega) (by omega) (by omega) (by omega)]
  exact ⟨rfl, rfl, rfl⟩

/-- In MODE 11, SB names one of four lanes, and SC is 0. -/
theorem fields_of_decodeSp_ldiInsert {w : Word} {dst x sel imm : Nat} {pub : Bool}
    (h : decodeSp w = some (.ldiInsert dst x sel imm pub)) :
    (splitFields w.toNat).sb < 4 ∧ (splitFields w.toNat).sc = 0 := by
  obtain ⟨-, hwf, henc⟩ := decodeSp_eq_some_iff.1 h
  simp only [spWf, Bool.and_eq_true, decide_eq_true_eq] at hwf
  have hpub := pub.toNat_le
  rw [← henc, encodeNat, splitFields_joinFields (by decide) (by omega) (by omega) (by omega) (by omega) (by omega)]
  exact ⟨show sel < 4 by omega, rfl⟩

/-- What an LDI word that decodes holds in its fields (R86). -/
theorem ldi_fields_of_decodeSp {w : Word} {i : SpInstr} (hop : (splitFields w.toNat).op = 0x14)
    (h : decodeSp w = some i) :
    if (splitFields w.toNat).spec / 2 ^ 8 % 4 = 3
    then (splitFields w.toNat).sb < 4 ∧ (splitFields w.toNat).sc = 0
    else (splitFields w.toNat).sa = 0 ∧ (splitFields w.toNat).sb = 0 ∧ (splitFields w.toNat).sc = 0 := by
  obtain ⟨hparse, -, -⟩ := decodeSp_eq_some_iff.1 h
  rw [parseFields_ldi hop] at hparse
  split_ifs at hparse ⊢ with hmode
  · obtain rfl := Option.some.inj hparse
    exact fields_of_decodeSp_ldiInsert h
  · obtain rfl := Option.some.inj hparse
    exact fields_of_decodeSp_ldi h

theorem spWf_of_executes {s : State} {a : Site} {i : SpInstr} (h : executes s a i) : spWf i = true := by
  obtain ⟨-, -, -, hdec⟩ := h
  obtain ⟨-, hwf, -⟩ := decodeSp_eq_some_iff.1 hdec
  exact hwf

/-! ### BOOL3, MOVE, SEL and LDI (R86) -/

section
variable {s : State} {a : Site} {dst : Nat} {pub : Bool}

theorem spRow_bool3 {x y z : Opnd} {tt : Nat} (h : executes s a (.bool3 dst x y z pub tt)) :
    spRow .bool3 a s.part = withOperands (fetched s.part a) a [x, y, z] fun p vs =>
      finish p a dst pub (resBool3 tt (val vs 0) (val vs 1) (val vs 2)) := by
  rw [spRow]; exact issue_of_executes h _

theorem spRow_move {x : Opnd} (h : executes s a (.move dst x pub)) :
    spRow .move a s.part = withOperands (fetched s.part a) a [x] fun p vs => finish p a dst pub (val vs 0) := by
  rw [spRow]; exact issue_of_executes h _

theorem spRow_sel {x y z : Opnd} {lm : Nat} (h : executes s a (.sel dst x y z pub lm)) :
    spRow .sel a s.part = withOperands (fetched s.part a) a [x, y, z] fun p vs =>
      finish p a dst pub (resSel lm (val vs 0) (val vs 1) (val vs 2)) := by
  rw [spRow]; exact issue_of_executes h _

theorem spRow_ldi {imm mode : Nat} (h : executes s a (.ldi dst imm mode pub)) :
    spRow .ldi a s.part = finish (fetched s.part a) a dst pub (resLdi imm mode) := by
  rw [spRow]; exact issue_of_executes h _

theorem spRow_ldiInsert {x sel imm : Nat} (h : executes s a (.ldiInsert dst x sel imm pub)) :
    spRow .ldi a s.part = withOperands (fetched s.part a) a [.mem x] fun p vs =>
      finish p a dst pub (resInsert (val vs 0) sel imm) := by
  rw [spRow]; exact issue_of_executes h _

theorem imm_lt_of_executes_ldi {imm mode : Nat} (h : executes s a (.ldi dst imm mode pub)) : imm < 2 ^ 16 := by
  have hwf := spWf_of_executes h
  simp only [spWf, Bool.and_eq_true, decide_eq_true_eq] at hwf
  omega

theorem imm_lt_of_executes_ldiInsert {x sel imm : Nat} (h : executes s a (.ldiInsert dst x sel imm pub)) :
    imm < 2 ^ 16 := by
  have hwf := spWf_of_executes h
  simp only [spWf, Bool.and_eq_true, decide_eq_true_eq] at hwf
  omega

end

/-- Settles O27: the rows finish `resBool3`, the operand itself, `resSel`, `resLdi` and `resInsert`, and an LDI word that
decodes has its reserved fields zero. -/
theorem bitwiseMoveSelectAndImmediate : Obligations.BitwiseMoveSelectAndImmediate := by
  refine ⟨fun s a dst x y z pub tt h => ⟨fun hr => ?_, fun hr => exec_rowAt_of_unreadable h hr⟩,
    fun s a dst x pub h hr => ?_, fun s a dst x y z pub lm w h hr hw => ?_, fun s a dst imm mode pub h => ?_,
    fun s a dst x sel imm pub h hr => ?_, fun w hop hbad => ?_⟩
  · obtain ⟨t, ht, hres⟩ := exec_rowAt_of_result (res := fun vs => resBool3 tt (val vs 0) (val vs 1) (val vs 2)) h hr
      (spRow_bool3 h)
    exact ⟨t, _, ht, hres, fun j hj => getLsbD_resBool3 tt _ _ _ hj⟩
  · exact exec_rowAt_of_result (res := fun vs => val vs 0) h hr (spRow_move h)
  · subst hw
    obtain ⟨t, ht, hres⟩ := exec_rowAt_of_result (res := fun vs => resSel lm (val vs 0) (val vs 1) (val vs 2)) h hr
      (spRow_sel h)
    exact ⟨t, _, ht, hres, fun k hk => lane_resSel lm _ _ _ hk⟩
  · have himm := imm_lt_of_executes_ldi h
    obtain ⟨t, ht, hres⟩ := exec_rowAt_of_finish h (nothingLeft_fetched s.part a).bus (spRow_ldi h)
    refine ⟨t, _, ht, hres, ?_, ?_, ?_⟩
    · rintro rfl k hk; exact lane_resLdi_replicate himm hk
    · rintro rfl; exact toNat_resLdi_zeroExtend himm
    · rintro rfl; exact resLdi_signExtend himm
  · obtain ⟨t, ht, hres⟩ := exec_rowAt_of_result (res := fun vs => resInsert (val vs 0) sel imm) h hr
      (spRow_ldiInsert h)
    exact ⟨t, _, ht, hres, fun k hk => lane_resInsert (imm_lt_of_executes_ldiInsert h) _ sel hk⟩
  · refine Option.eq_none_iff_forall_ne_some.2 fun i hi => ?_
    have hfields := ldi_fields_of_decodeSp hop hi
    split at hfields <;> omega

/-! ### What passing a step and fetching leave in the memories (R33, R34, R59) -/

theorem dword_setDword_self {p : Part} (k : Nat) (c : EccWord) (h : smapWf (fun _ => EccWord.zero) p.sp.dmem = true) :
    dword (setDword p k c) k = c := smapGet_set_self k c h

theorem dword_setDword_ne (p : Part) {k j : Nat} (c : EccWord) (h : j ≠ k) : dword (setDword p k c) j = dword p j :=
  smapGet_set_ne c h

theorem iword_setIword_self {p : Part} (k : Nat) (c : EccWord) (h : smapWf (fun _ => EccWord.zero) p.sp.imem = true) :
    iword (setIword p k c) k = c := smapGet_set_self k c h

theorem iword_setIword_ne (p : Part) {k j : Nat} (c : EccWord) (h : j ≠ k) : iword (setIword p k c) j = iword p j :=
  smapGet_set_ne c h

/-- A result that reaches data memory is stored, with valid check bits, where it was on its way to. -/
theorem commitPend_dmem (p : Part) (a : Site) :
    (commitPend p a.sp).sp.dmem = p.sp.dmem ∨ (commitPend p a.sp).sp.dmem =
      (setDword p (a.sp * 256 + (pendAt p a).addr) (cleanWord (pendAt p a).val)).sp.dmem := by
  rw [commitPend]; dsimp only
  split
  · exact .inl rfl
  · exact .inr rfl

/-- Passing a step leaves data memory as it is, or stores the result of an instruction at least two steps back (R34). -/
theorem passStep_dmem (p : Part) (a : Site) :
    (passStep p a).sp.dmem = p.sp.dmem ∨ ((pendAt p a).step + 2 ≤ a.step ∧ (passStep p a).sp.dmem =
      (setDword p (a.sp * 256 + (pendAt p a).addr) (cleanWord (pendAt p a).val)).sp.dmem) := by
  rw [passStep, settlePend]
  split
  · next hstep => exact (commitPend_dmem _ a).imp_right fun h => ⟨hstep, h⟩
  · exact .inl rfl

theorem fetched_dmem (p : Part) (a : Site) : (fetched p a).sp.dmem = (passStep p a).sp.dmem := by
  rw [fetched_frame_passStep]

/-- A data-memory word once a site has fetched its entry. -/
theorem dword_fetched (p : Part) (a : Site) (k : Nat) :
    dword (fetched p a) k = dword p k ∨ ((pendAt p a).step + 2 ≤ a.step ∧ k = a.sp * 256 + (pendAt p a).addr ∧
      (smapWf (fun _ => EccWord.zero) p.sp.dmem = true → dword (fetched p a) k = cleanWord (pendAt p a).val)) := by
  rw [dword, fetched_dmem]
  obtain hmem | ⟨hstep, hmem⟩ := passStep_dmem p a
  · exact .inl (by rw [hmem, dword])
  · rw [hmem]
    by_cases hk : k = a.sp * 256 + (pendAt p a).addr
    · subst hk
      exact .inr ⟨hstep, rfl, dword_setDword_self _ _⟩
    · exact .inl (dword_setDword_ne p _ hk)

/-- An entry corrected on use is stored corrected at once, or its place is queued. -/
theorem queueEntry_imem (p : Part) (a : Site) :
    (queueEntry p a).sp.imem = p.sp.imem ∨
      (queueEntry p a).sp.imem = (setIword p (entryKey a) (fixWord (iword p (entryKey a)))).sp.imem := by
  rw [queueEntry]; dsimp only
  split
  · exact .inl rfl
  · split
    · exact .inr rfl
    · exact .inl rfl

theorem noteFetch_imem (p : Part) (a : Site) (kind : EccKind) :
    (noteFetch p a kind).sp.imem = p.sp.imem ∨
      (noteFetch p a kind).sp.imem = (setIword p (entryKey a) (fixWord (iword p (entryKey a)))).sp.imem := by
  cases kind with
  | clean | double => exact .inl rfl
  | corrected b => exact queueEntry_imem (countCeI p a.bil) a

theorem passStep_imem (p : Part) (a : Site) : (passStep p a).sp.imem = p.sp.imem := by rw [passStep_frame]

/-- A fetch leaves instruction memory as it is, or corrects the entry fetched (R59). -/
theorem fetched_imem (p : Part) (a : Site) :
    (fetched p a).sp.imem = p.sp.imem ∨
      (fetched p a).sp.imem = (setIword p (entryKey a) (fixWord (iword p (entryKey a)))).sp.imem := by
  simpa only [fetched, setIword, iword, passStep_imem] using noteFetch_imem (passStep p a) a (eccKind (seenEntry p a))

theorem iword_fetched_ne (p : Part) (a : Site) {k : Nat} (hk : k ≠ entryKey a) : iword (fetched p a) k = iword p k := by
  obtain hmem | hmem := fetched_imem p a
  · rw [iword, hmem, iword]
  · rw [iword, hmem]
    exact iword_setIword_ne p _ hk

theorem iword_fetched_self {p : Part} (a : Site) (h : smapWf (fun _ => EccWord.zero) p.sp.imem = true) :
    iword (fetched p a) (entryKey a) = iword p (entryKey a) ∨
      iword (fetched p a) (entryKey a) = fixWord (iword p (entryKey a)) := by
  obtain hmem | hmem := fetched_imem p a
  · exact .inl (by rw [iword, hmem, iword])
  · exact .inr (by rw [iword, hmem]; exact iword_setIword_self _ _ h)

/-- Passing the step and fetching the entry change nothing but the memories, their write-backs and their counts. -/
theorem fetched_frame (p : Part) (a : Site) :
    fetched p a = { p with sp := { p.sp with
      dmem := (fetched p a).sp.dmem, pend := (fetched p a).sp.pend, dQueue := (fetched p a).sp.dQueue,
      iQueue := (fetched p a).sp.iQueue, imem := (fetched p a).sp.imem, iUsed := (fetched p a).sp.iUsed,
      iFixed := (fetched p a).sp.iFixed, ceI := (fetched p a).sp.ceI, lastStep := (fetched p a).sp.lastStep } } := by
  rw [fetched_frame_passStep, passStep_frame]

/-! ### NOP (R30, R85) -/

/-- Only the opcode 0 spells NOP, and NOP encodes to zero. -/
theorem decodeSp_eq_nop_iff (w : Word) : decodeSp w = some .nop ↔ w = 0 := by
  constructor
  · intro h
    obtain ⟨-, -, henc⟩ := decodeSp_eq_some_iff.1 h
    exact BitVec.eq_of_toNat_eq henc.symm
  · rintro rfl; decide

/-- An all-zero entry holds the word zero without errors. -/
theorem executes_nop_of_zero {s : State} {a : Site} (ha : awake s) (hi : issues s.part a = true)
    (hw : iword s.part (entryKey a) = EccWord.zero) (hseen : seenEntry s.part a = EccWord.zero) : executes s a .nop := by
  refine ⟨ha, hi, ?_, ?_⟩
  · rw [hseen]; decide
  · rw [hw, decodeSp_eq_nop_iff]; rfl

/-- The row of a NOP adds nothing to the fetch. -/
theorem spRow_nop {s : State} {a : Site} (h : executes s a .nop) : spRow .nop a s.part = fetched s.part a := by
  rw [spRow]; exact issue_of_executes h _

/-- Settles O30: the row of a NOP leaves the fetched part, which the facts above describe; the decoder takes only zero
for a NOP. -/
theorem nopHasNoEffect : Obligations.NopHasNoEffect := by
  refine ⟨fun s a h => ⟨?_, fetched_frame s.part a, fun k => ?_, fun k hk => iword_fetched_ne s.part a hk,
    fun hc => ?_⟩, decodeSp_eq_nop_iff, fun s a ha hi hw hseen => executes_nop_of_zero ha hi hw hseen⟩
  · rw [exec_rowAt h.1, spRow_nop h]
  · exact (dword_fetched s.part a k).imp_right fun ⟨hstep, hk, hval⟩ =>
      ⟨hstep, hk, fun ⟨_, _, _, _, _, hdmem, _, _⟩ => hval hdmem⟩
  · obtain ⟨-, -, -, -, -, -, himem, -⟩ := hc
    exact iword_fetched_self a himem

end Sys2Proof.Machine

/-!
PROOFS. The host interface (chapter 13): what a write into host memory and a signal of a ring leave, the layout of a
completion entry, and the event queue (R383, R385, R387).
-/
namespace Sys2Proof.Machine

/-! ### Host memory after a write -/

/-- A little-endian field reads back from between other bytes. -/
theorem leAt_append_leBytes_append (pre : List Byte) (n v : Nat) (post : List Byte) :
    leAt (pre ++ leBytes n v ++ post) pre.length n = v % 256 ^ n := by
  rw [leAt, List.append_assoc, List.drop_left, List.take_left' (length_leBytes n v), leNat_leBytes]

/-- Values stored at rising keys from `a + j` on: key `k` reads as the value stored there, or as before. -/
theorem smapGet_setMany_zipIdx {α : Type} [DecidableEq α] {d : Nat → α} (l : List α) {m : SMap α} (a j k : Nat)
    (h : smapWf d m = true) :
    smapGet d (smapSetMany d m ((l.zipIdx j).map (fun (v, i) => (a + i, v)))) k =
      if k < a + j then smapGet d m k else l.getD (k - (a + j)) (smapGet d m k) := by
  induction l generalizing m j with
  | nil => simp [smapSetMany]
  | cons v l ih =>
    rw [List.zipIdx_cons, List.map_cons, smapSetMany, ih (j + 1) (smapWf_set _ _ h), smapGet_set _ _ _ h]
    rcases Nat.lt_trichotomy k (a + j) with hk | rfl | hk
    · simp [hk, hk.ne, show k < a + (j + 1) by omega]
    · simp [← Nat.add_assoc]
    · have hsub : k - (a + j) = k - (a + (j + 1)) + 1 := by omega
      simp [hk.ne', hsub, Nat.not_lt.2 hk.le, Nat.not_lt.2 (show a + (j + 1) ≤ k by omega)]

section
variable {p : Part} (hmem : smapWf (fun _ => (0 : Byte)) p.host.mem = true)
include hmem

/-- A byte of host memory after a write. -/
theorem mem_hostWrite (addr : Nat) (bytes : List Byte) (k : Nat) :
    smapGet (fun _ => 0) (hostWrite p addr bytes).host.mem k =
      if k < addr then smapGet (fun _ => 0) p.host.mem k
      else bytes.getD (k - addr) (smapGet (fun _ => 0) p.host.mem k) :=
  smapGet_setMany_zipIdx bytes addr 0 k hmem

theorem mem_hostWrite_inside (addr : Nat) {bytes : List Byte} {i : Nat} (hi : i < bytes.length) :
    smapGet (fun _ => 0) (hostWrite p addr bytes).host.mem (addr + i) = bytes.getD i 0 := by
  rw [mem_hostWrite hmem, if_neg (by omega), Nat.add_sub_cancel_left, List.getD_eq_getElem _ _ hi,
    List.getD_eq_getElem _ _ hi]

theorem mem_hostWrite_outside {addr k : Nat} {bytes : List Byte} (hk : k < addr ∨ addr + bytes.length ≤ k) :
    smapGet (fun _ => 0) (hostWrite p addr bytes).host.mem k = smapGet (fun _ => 0) p.host.mem k := by
  rw [mem_hostWrite hmem]
  rcases hk with hk | hk
  · rw [if_pos hk]
  · rw [if_neg (by omega), List.getD_eq_default _ _ (by omega)]

/-- A little-endian field of the bytes written reads from host memory as from the bytes. -/
theorem leNat_mem_hostWrite (addr : Nat) {off n : Nat} {bytes : List Byte} (hn : off + n ≤ bytes.length) :
    leNat ((List.range n).map (fun i => smapGet (fun _ => 0) (hostWrite p addr bytes).host.mem (addr + off + i))) =
      leAt bytes off n := by
  refine congrArg leNat (List.ext_getElem (by simp; omega) fun i hi _ => ?_)
  have hin : i < n := by simpa using hi
  rw [List.getElem_map, List.getElem_range, Nat.add_assoc, mem_hostWrite_inside hmem addr (by omega),
    List.getD_eq_getElem _ _ (by omega), List.getElem_take, List.getElem_drop]

end

/-! ### What a message and a signal leave of the host interface (R391, R392) -/

/-- A message changes the marks of the vectors alone. -/
theorem sendVector_host (p : Part) (v : Nat) : (sendVector p v).host = { p.host with
    vecPending := (sendVector p v).host.vecPending, vecDue := (sendVector p v).host.vecDue,
    vecSent := (sendVector p v).host.vecSent } := by
  unfold sendVector
  split
  · rfl
  · split <;> rfl

/-- A signal of a ring changes the entries to signal and the marks of the vectors alone. -/
theorem signalRing_host (p : Part) (r : RingId) : (signalRing p r).host = { p.host with
    unsignalled := (signalRing p r).host.unsignalled, vecPending := (signalRing p r).host.vecPending,
    vecDue := (signalRing p r).host.vecDue, vecSent := (signalRing p r).host.vecSent } := by
  unfold signalRing
  split
  · rfl
  · dsimp only
    split
    · rw [setUnsignalled, sendVector_host]; rfl
    · rfl

@[simp] theorem signalRing_mem (p : Part) (r : RingId) : (signalRing p r).host.mem = p.host.mem := by
  rw [signalRing_host]
@[simp] theorem signalRing_events (p : Part) (r : RingId) : (signalRing p r).host.events = p.host.events := by
  rw [signalRing_host]
@[simp] theorem partCount_signalRing (p : Part) (r q : RingId) : partCount (signalRing p r) q = partCount p q := by
  rw [partCount, signalRing_host, partCount]
@[simp] theorem reservedSlots_signalRing (p : Part) (r : RingId) (c : Nat) :
    reservedSlots (signalRing p r) c = reservedSlots p c := by
  rw [reservedSlots, signalRing_host, reservedSlots]

/-- A count just set that is not 0 reads back from any map. -/
theorem partCount_setPartCount_succ (p : Part) (r : RingId) (n : Nat) :
    partCount (setPartCount p r (n + 1)) r = n + 1 := smapGet_set_ne_default (Nat.succ_ne_zero n)

@[simp] theorem reservedSlots_hostWrite (p : Part) (addr : Nat) (bytes : List Byte) (c : Nat) :
    reservedSlots (hostWrite p addr bytes) c = reservedSlots p c := rfl
@[simp] theorem reservedSlots_setPartCount (p : Part) (r : RingId) (n c : Nat) :
    reservedSlots (setPartCount p r n) c = reservedSlots p c := rfl

theorem reservedSlots_setReserved {p : Part} (c n : Nat) (h : smapWf (fun _ => (0 : Nat)) p.host.reserved = true) :
    reservedSlots (setReserved p c n) c = n := smapGet_set_self c n h

/-! ### Completion entries (R383) -/

@[simp] theorem length_cplBytes (e : CplEntry) (phase : Bool) : (cplBytes e phase).length = 16 := by simp [cplBytes]

theorem leAt_cplBytes_tag (e : CplEntry) (phase : Bool) : leAt (cplBytes e phase) 0 2 = e.tag.toNat := by
  have hfield := leAt_append_leBytes_append [] 2 e.tag.toNat (leBytes 1 e.status.code ++
    (leBytes 1 ((if phase then 1 else 0) + e.ring.val * 2) ++ (leBytes 4 e.aux ++ leBytes 8 e.result)))
  simpa [cplBytes, Nat.mod_eq_of_lt e.tag.isLt] using hfield

theorem leAt_cplBytes_aux (e : CplEntry) (phase : Bool) : leAt (cplBytes e phase) 4 4 = e.aux % 2 ^ 32 :=
  leAt_append_leBytes_append (leBytes 2 e.tag.toNat ++ leBytes 1 e.status.code ++
    leBytes 1 ((if phase then 1 else 0) + e.ring.val * 2)) 4 e.aux (leBytes 8 e.result)

theorem leAt_cplBytes_result (e : CplEntry) (phase : Bool) : leAt (cplBytes e phase) 8 8 = e.result % 2 ^ 64 := by
  have hfield := leAt_append_leBytes_append (leBytes 2 e.tag.toNat ++ leBytes 1 e.status.code ++
    leBytes 1 ((if phase then 1 else 0) + e.ring.val * 2) ++ leBytes 4 e.aux) 8 e.result []
  simpa [cplBytes] using hfield

theorem toNat_cplBytes_status (e : CplEntry) (phase : Bool) : ((cplBytes e phase).getD 2 0).toNat = e.status.code := by
  have hlt : e.status.code < 256 := by cases e.status <;> decide
  simpa [cplBytes, leBytes] using hlt

theorem toNat_cplBytes_flags (e : CplEntry) (phase : Bool) :
    ((cplBytes e phase).getD 3 0).toNat = (if phase then 1 else 0) + 2 * e.ring.val := by
  have hlt : (if phase then 1 else 0) + e.ring.val * 2 < 256 := by split <;> omega
  simp [cplBytes, leBytes, Nat.mod_eq_of_lt hlt, Nat.mul_comm]

theorem writeCpl_mem (p : Part) (e : CplEntry) : (writeCpl p e).host.mem =
    (hostWrite p (ringBase p (.cpl e.cpl) + partCount p (.cpl e.cpl) % ringSize p (.cpl e.cpl) * 16)
      (cplBytes e (phaseOf (partCount p (.cpl e.cpl)) (ringSize p (.cpl e.cpl))))).host.mem := by
  rw [writeCpl, signalRing_mem]; rfl

theorem partCount_writeCpl (p : Part) (e : CplEntry) :
    partCount (writeCpl p e) (.cpl e.cpl) = partCount p (.cpl e.cpl) + 1 := by
  rw [writeCpl, partCount_signalRing]
  exact partCount_setPartCount_succ _ _ _

theorem reservedSlots_writeCpl {p : Part} (e : CplEntry) (h : smapWf (fun _ => (0 : Nat)) p.host.reserved = true) :
    reservedSlots (writeCpl p e) e.cpl.val = reservedSlots p e.cpl.val - 1 := by
  rw [writeCpl, reservedSlots_signalRing, reservedSlots_setReserved, reservedSlots_setPartCount,
    reservedSlots_hostWrite]
  exact h

/-- An entry goes into its ring while DMA may be issued and the ring takes entries (R370, R390). -/
theorem deliverCpl_eq_writeCpl {p : Part} {e : CplEntry} (hdma : dmaOk p = true) (hen : ringEn p (.cpl e.cpl) = true)
    (hstop : ringStopped p (.cpl e.cpl) = false) : deliverCpl p e = writeCpl p e := by
  simp [deliverCpl, hdma, hen, hstop]

/-- A command completes into its ring while DMA may be issued and the ring takes entries. -/
theorem complete_eq_writeCpl {p : Part} {h : Hdr} (hdma : dmaOk p = true) (hen : ringEn p (.cpl h.cpl) = true)
    (hstop : ringStopped p (.cpl h.cpl) = false) (st : Status) (aux result : Nat) :
    complete p h st aux result = writeCpl { p with host := { p.host with inflight := dropInflight h p.host.inflight } }
      ⟨h.cpl, h.tag, st, h.ring, aux % 2 ^ 32, result % 2 ^ 64⟩ := by
  rw [complete]
  exact deliverCpl_eq_writeCpl hdma hen hstop

/-- The memory that a completion leaves: its entry at the next slot of its ring. -/
theorem complete_mem {p : Part} {h : Hdr} (hdma : dmaOk p = true) (hen : ringEn p (.cpl h.cpl) = true)
    (hstop : ringStopped p (.cpl h.cpl) = false) (st : Status) (aux result : Nat) :
    (complete p h st aux result).host.mem =
      (hostWrite p (ringBase p (.cpl h.cpl) + partCount p (.cpl h.cpl) % ringSize p (.cpl h.cpl) * 16)
        (cplBytes ⟨h.cpl, h.tag, st, h.ring, aux % 2 ^ 32, result % 2 ^ 64⟩
          (phaseOf (partCount p (.cpl h.cpl)) (ringSize p (.cpl h.cpl))))).host.mem := by
  rw [complete_eq_writeCpl hdma hen hstop, writeCpl_mem]; rfl

/-- Settles O23: a completion writes `cplBytes` at the next slot, and each field reads back from those 16 bytes. -/
theorem completionEntryLayout : Obligations.CompletionEntryLayout := by
  rintro p h st aux result n base ⟨-, hmem, -⟩ hdma hen hstop rfl hbase
  have hc := complete_eq_writeCpl hdma hen hstop st aux result
  rw [complete_mem hdma hen hstop, ← hbase]
  refine ⟨?_, ?_, ?_, ?_, ?_, fun a ha => ?_, ?_, fun hwf => ?_⟩
  · exact (leNat_mem_hostWrite hmem base (off := 0) (by simp)).trans (leAt_cplBytes_tag _ _)
  · rw [mem_hostWrite_inside hmem base (by simp), toNat_cplBytes_status]
  · rw [mem_hostWrite_inside hmem base (by simp), toNat_cplBytes_flags]
    simp [phaseOf]
  · rw [leNat_mem_hostWrite hmem base (by simp), leAt_cplBytes_aux, Nat.mod_mod]
  · rw [leNat_mem_hostWrite hmem base (by simp), leAt_cplBytes_result, Nat.mod_mod]
  · exact mem_hostWrite_outside hmem (by simpa using ha)
  · rw [hc]; exact partCount_writeCpl _ _
  · rw [hc]; exact reservedSlots_writeCpl _ hwf

/-! ### The event queue (R385, R387) -/

@[simp] theorem length_eventBytes (e : Event) (phase : Bool) (seq : Nat) : (eventBytes e phase seq).length = 32 := by
  simp [eventBytes, fitBytes]

/-- An event of a masked source is discarded. -/
theorem raise_of_masked {p : Part} {src : Nat} (h : eventMasked p src = true) (l : List (Nat × Nat)) :
    raise p src l = p := if_pos h

/-- An event joins the end of the queue while fewer than 256 wait. -/
theorem raise_of_room {p : Part} {src : Nat} (h : eventMasked p src = false) (hroom : p.host.events.length < 256)
    (l : List (Nat × Nat)) : raise p src l = { p with host := { p.host with
      events := p.host.events ++ [⟨src, false, p.host.lostNext, nsOf p.now, l⟩], lostNext := false } } := by
  simp [raise, queueEvent, h, Nat.not_le.2 hroom]

/-- An event is lost and counted while 256 wait. -/
theorem raise_of_full {p : Part} {src : Nat} (h : eventMasked p src = false) (hfull : 256 ≤ p.host.events.length)
    (l : List (Nat × Nat)) :
    raise p src l = bumpFld { p with host := { p.host with lostNext := true } } HIF_LOST_COUNT 1 := by
  simp [raise, queueEvent, h, hfull]

/-- A saturating count of a single register reads back (R14). -/
theorem fld_bumpFld {p : Part} (f : FieldRow) (n : Nat) (h : smapWf regReset p.regs = true)
    (hf : f.lo + f.width ≤ 32) : fld (bumpFld p f n) f = min (fld p f + n) (2 ^ f.width - 1) := by
  have hlt : min (fld p f + n) (2 ^ f.width - 1) < 2 ^ f.width :=
    (Nat.min_le_right _ _).trans_lt (Nat.sub_one_lt (Nat.two_pow_pos _).ne')
  exact (fld_setFld f _ h hf).trans (Nat.mod_eq_of_lt hlt)

/-- A ring that may take an entry takes the front of the queue (R387). -/
theorem eventRingWrite_of_room {p : Part} {e : Event} {rest : List Event} (he : p.host.events = e :: rest)
    (hdma : dmaOk p = true) (hen : ringEn p .evt = true) (hstop : ringStopped p .evt = false)
    (hroom : partCount p .evt < hostCount p .evt + ringSize p .evt) :
    eventRingWrite p = signalRing { p with host := { p.host with
      mem := (hostWrite p (ringBase p .evt + partCount p .evt % ringSize p .evt * 32)
        (eventBytes e (phaseOf (partCount p .evt) (ringSize p .evt)) (p.host.evtSeq % 65536))).host.mem
      partCount := (setPartCount p .evt (partCount p .evt + 1)).host.partCount
      events := rest, evtSeq := p.host.evtSeq + 1, evtHeld := p.host.evtHeld - 1 } } .evt := by
  simp [eventRingWrite, he, hdma, hen, hstop, hroom, hostWrite, setPartCount]

/-- A full ring takes nothing (R387). -/
theorem eventRingWrite_of_full {p : Part} (hfull : hostCount p .evt + ringSize p .evt ≤ partCount p .evt) :
    eventRingWrite p = p := by
  rw [eventRingWrite]
  split
  · rfl
  · simp [Nat.not_lt.2 hfull]

theorem exec_eventRingWrite {s : State} (ha : awake s) :
    exec .eventRingWrite s = .next (withPart s (eventRingWrite s.part)) := run_of_awake ha _

/-- Settles O24: raising takes one of three cases, and a ring with a free slot takes the front of the queue. -/
theorem eventQueue : Obligations.EventQueue := by
  refine ⟨fun p src l => ⟨fun hm => raise_of_masked hm l, fun hm hroom => raise_of_room hm hroom l,
    fun ⟨hregs, _⟩ hm hfull => ?_⟩, fun s e rest n size ha ⟨_, hmem, _⟩ he hn hsize hdma hen hstop => ?_⟩
  · rw [raise_of_full hm hfull]
    exact ⟨rfl, fld_bumpFld HIF_LOST_COUNT 1 hregs (by decide)⟩
  · subst hn hsize
    rw [exec_eventRingWrite ha]
    refine ⟨fun hroom => ?_, fun hfull => by rw [eventRingWrite_of_full hfull, withPart_self]⟩
    rw [eventRingWrite_of_room he hdma hen hstop hroom]
    refine ⟨_, rfl, ?_, ?_, ?_, fun i hi => ?_, fun a hout => ?_⟩
    · rw [withPart_part, signalRing_frame]
    · rw [withPart_part, signalRing_events]
    · rw [withPart_part, partCount_signalRing]
      exact partCount_setPartCount_succ _ _ _
    · rw [withPart_part, signalRing_mem]
      exact mem_hostWrite_inside hmem _ (by simpa using hi)
    · rw [withPart_part, signalRing_mem]
      exact mem_hostWrite_outside hmem (by simpa using hout)

end Sys2Proof.Machine

/-!
PROOFS. The source routes of the service network (chapter 14): the turn rule of R402 against the check that ROUTE_WRITE
makes, and the X-then-Y route that every table entry holds after a reset.
-/
namespace Sys2Proof.Machine

/-! ### The turn rule on neighbours and on the whole route (R402) -/

/-- What R402 asks of two hops in a row: a west hop follows only a west hop, and the second does not reverse the first. -/
def turnOk (a b : Nat) : Prop := (b = 3 → a = 3) ∧ b ≠ (a + 2) % 4

/-- The check walks the route and asks it of each two neighbours. -/
theorem turnsOk_iff_isChain (l : List Nat) : turnsOk l = true ↔ l.IsChain turnOk := by
  induction l with
  | nil => simp [turnsOk]
  | cons a l ih =>
    cases l with
    | nil => simp [turnsOk]
    | cons b l =>
      rw [List.isChain_cons_cons, ← ih]
      simp [turnsOk, turnOk, imp_iff_not_or, ne_comm]

/-- Along a checked route any two hops in a row keep the rule. -/
theorem turnOk_of_isChain {l : List Nat} (h : l.IsChain turnOk) {i a b : Nat} (ha : l[i]? = some a)
    (hb : l[i + 1]? = some b) : turnOk a b := by
  obtain ⟨_, rfl⟩ := List.getElem?_eq_some_iff.1 ha
  obtain ⟨hlt, rfl⟩ := List.getElem?_eq_some_iff.1 hb
  exact List.isChain_iff_getElem.1 h i hlt

/-- West hops that follow only west hops all stand at the head of the route. -/
theorem west_before_of_isChain {l : List Nat} (h : l.IsChain turnOk) {i j : Nat} (hij : i < j) (hj : l[j]? = some 3) :
    l[i]? = some 3 := by
  have hback : ∀ k, l[k + 1]? = some 3 → l[k]? = some 3 := fun k hk => by
    obtain ⟨hlt, -⟩ := List.getElem?_eq_some_iff.1 hk
    have hget := List.getElem?_eq_getElem (Nat.lt_of_succ_lt hlt)
    rw [hget, (turnOk_of_isChain h hget hk).1 rfl]
  induction hij with
  | refl => exact hback i hj
  | @step m _ ih => exact ih (hback m hj)

/-- The check of neighbours is R402's rule: every west hop before every other, and no hop reversing the one before. -/
theorem turnsOk_iff (l : List Nat) : turnsOk l = true ↔
    (∀ i j : Nat, i < j → l[j]? = some 3 → l[i]? = some 3) ∧
    (∀ (i : Nat) a b, l[i]? = some a → l[i + 1]? = some b → b ≠ (a + 2) % 4) := by
  rw [turnsOk_iff_isChain]
  constructor
  · exact fun h => ⟨fun i j => west_before_of_isChain h, fun i a b ha hb => (turnOk_of_isChain h ha hb).2⟩
  · rintro ⟨hwest, hrev⟩
    refine List.isChain_iff_getElem.2 fun i hi => ?_
    have ha := List.getElem?_eq_getElem (Nat.lt_of_succ_lt hi)
    have hb := List.getElem?_eq_getElem hi
    refine ⟨fun h3 => ?_, hrev i _ _ ha hb⟩
    have hi3 := hwest i (i + 1) i.lt_succ_self (by rw [hb, h3])
    exact Option.some.inj (ha.symm.trans hi3)

/-- A walk of two lists of hops is the second walk from where the first ends. -/
theorem hopsEnd_append (r : Nat) (l m : List Nat) : hopsEnd r (l ++ m) = (hopsEnd r l).bind (hopsEnd · m) := by
  induction l generalizing r with
  | nil => rfl
  | cons h l ih => cases hr : hopFrom r h <;> simp [hopsEnd, hr, ih]

/-- A route that leads to a router leaves the mesh at no hop. -/
theorem hopsEnd_take_ne_none {r d : Nat} {l : List Nat} (h : hopsEnd r l = some d) (k : Nat) :
    hopsEnd r (l.take k) ≠ none := by
  intro hk
  rw [← List.take_append_drop k l, hopsEnd_append, hk] at h
  simp at h

/-- The check of a route write says R402's rule. -/
theorem routeOk_iff {n r : Nat} (hr : niRouter n = some r) (d v : Nat) : routeOk n d v = true ↔
    natBits v 16 4 ≤ 8 ∧
    (∀ i j : Nat, i < j → (routeHops v)[j]? = some 3 → (routeHops v)[i]? = some 3) ∧
    (∀ (i : Nat) a b, (routeHops v)[i]? = some a → (routeHops v)[i + 1]? = some b → b ≠ (a + 2) % 4) ∧
    (∀ k ≤ (routeHops v).length, hopsEnd r ((routeHops v).take k) ≠ none) ∧ hopsEnd r (routeHops v) = some d := by
  have hend : hopsEnd r (routeHops v) = some d ↔
      (∀ k ≤ (routeHops v).length, hopsEnd r ((routeHops v).take k) ≠ none) ∧ hopsEnd r (routeHops v) = some d :=
    ⟨fun h => ⟨fun k _ => hopsEnd_take_ne_none h k, h⟩, And.right⟩
  simp only [routeOk, hr, Bool.and_eq_true, decide_eq_true_eq, beq_iff_eq]
  rw [turnsOk_iff, ← hend, and_assoc, and_assoc]

/-! ### ROUTE_WRITE by case -/

theorem exec_routeWrite {s : State} (ha : awake s) (n : Fin 64) (d : Fin 8) (v : Reg32) :
    exec (.routeWrite n d v) s = .next (withPart s (routeWrite n d v s.part)) := run_of_awake ha _

theorem routeWrite_of_locked {p : Part} (h : locked p = true) (n : Fin 64) (d : Fin 8) (v : Reg32) :
    routeWrite n d v p = p := by
  simp [routeWrite, h]

theorem routeWrite_of_ok {p : Part} {n : Fin 64} {d : Fin 8} {v : Reg32} (h : locked p = false)
    (hok : routeOk n.val d.val v.toNat = true) : routeWrite n d v p =
      setFld (setRegAt p (SVN_HOPS.at (n.val * 8 + d.val)) (v &&& 0xFFFFF#32)) SVN_ROUTE_ERR 0 := by
  simp [routeWrite, h, hok]

theorem routeWrite_of_not_ok {p : Part} {n : Fin 64} {d : Fin 8} {v : Reg32} (h : locked p = false)
    (hok : ¬ routeOk n.val d.val v.toNat = true) : routeWrite n d v p = setFld p SVN_ROUTE_ERR 1 := by
  simp [routeWrite, h, hok]

/-! ### The route after a reset (R401, R402) -/

/-- Hop k of a packed route reads back, whatever stands above the route. -/
theorem packHops_digit (l : List Nat) (x k : Nat) (hl : ∀ h ∈ l, h < 4) (hk : k < l.length) :
    (packHops l + x * 4 ^ l.length) / 4 ^ k % 4 = l[k] := by
  induction l generalizing k with
  | nil => simp at hk
  | cons h l ih =>
    have hh : h < 4 := hl h List.mem_cons_self
    have hsplit : packHops (h :: l) + x * 4 ^ (h :: l).length = h + 4 * (packHops l + x * 4 ^ l.length) := by
      simp only [packHops, List.length_cons]; ring
    rw [hsplit]
    cases k with
    | zero => simp [Nat.mod_eq_of_lt hh]
    | succ k =>
      have hdiv : (h + 4 * (packHops l + x * 4 ^ l.length)) / 4 = packHops l + x * 4 ^ l.length := by omega
      rw [Nat.pow_succ', ← Nat.div_div_eq_div_mul, hdiv]
      exact ih k (fun a ha => hl a (List.mem_cons_of_mem _ ha)) (by simpa using hk)

theorem packHops_lt (l : List Nat) (hl : ∀ h ∈ l, h < 4) : packHops l < 4 ^ l.length := by
  induction l with
  | nil => simp [packHops]
  | cons h l ih =>
    have hh : h < 4 := hl h List.mem_cons_self
    have ht := ih fun a ha => hl a (List.mem_cons_of_mem _ ha)
    simp only [packHops, List.length_cons, Nat.pow_succ]
    omega

/-- The value that holds a route, in the fields SVN_HOPS and SVN_HOP_COUNT. -/
def routeValue (l : List Nat) : Nat := packHops l + l.length * 2 ^ 16

theorem hopCount_routeValue {l : List Nat} (hl : ∀ h ∈ l, h < 4) (hlen : l.length ≤ 8) :
    natBits (routeValue l) 16 4 = l.length := by
  have hlt : packHops l < 2 ^ 16 := calc
    packHops l < 4 ^ l.length := packHops_lt l hl
    _ ≤ 4 ^ 8 := Nat.pow_le_pow_right (by omega) hlen
  unfold natBits routeValue
  omega

/-- A route reads back from the value that holds it. -/
theorem routeHops_routeValue {l : List Nat} (hl : ∀ h ∈ l, h < 4) (hlen : l.length ≤ 8) :
    routeHops (routeValue l) = l := by
  have hval : routeValue l = packHops l + (l.length * 4 ^ (8 - l.length)) * 4 ^ l.length := by
    rw [mul_assoc, ← Nat.pow_add, Nat.sub_add_cancel hlen]; rfl
  refine List.ext_getElem (by simp [routeHops, hopCount_routeValue hl hlen]) fun k _ hk => ?_
  simp only [routeHops, List.getElem_map, List.getElem_range, natBits]
  rw [hval, Nat.pow_mul]
  exact packHops_digit l _ k hl hk

theorem niRouter_lt {n r : Nat} (h : niRouter n = some r) : r < 8 := by
  unfold niRouter at h
  grind (splits := 25)

/-- Between any two of the eight central routers the X-then-Y route has at most 8 hops of the four directions, keeps the
turn rule and ends where it should. -/
theorem xyHops_meets_rule : ∀ r d : Fin 8, (xyHops r d).length ≤ 8 ∧ (∀ h ∈ xyHops r d, h < 4) ∧
    turnsOk (xyHops r d) = true ∧ hopsEnd r (xyHops r d) = some d.val := by
  decide

theorem routeOk_xyHops {n r : Nat} (hr : niRouter n = some r) (d : Fin 8) :
    routeOk n d.val (routeValue (xyHops r d.val)) = true := by
  obtain ⟨hlen, hdir, hturn, hend⟩ := xyHops_meets_rule ⟨r, niRouter_lt hr⟩ d
  simp only at hlen hdir hturn hend
  simp [routeOk, hr, routeHops_routeValue hdir hlen, hopCount_routeValue hdir hlen, hlen, hturn, hend]

/-- The registers SVN_NIn_ROUTEd reset to the route between their routers. -/
theorem regReset_hops (n : Fin 64) (d : Fin 8) :
    regReset (SVN_HOPS.at (n.val * 8 + d.val)) = BitVec.ofNat 32 (routeReset n.val d.val) := by
  have hdist : SVN_HOPS.at (n.val * 8 + d.val) = SVN_HOPS.off + (32 * n.val + 4 * d.val) := by
    simp only [FieldRow.at, SVN_HOPS, dimsAt]; omega
  have hn : (32 * n.val + 4 * d.val) / 32 = n.val := by omega
  have hd : (32 * n.val + 4 * d.val) % 32 / 4 = d.val := by omega
  have hhit : SVN_HOPS.hits (SVN_HOPS.off + (32 * n.val + 4 * d.val)) = true := by
    simp only [FieldRow.hits, Nat.le_add_right, Nat.add_sub_cancel_left, decide_true, Bool.true_and]
    simp only [SVN_HOPS, dimsHit, Bool.and_eq_true, decide_eq_true_eq, beq_iff_eq]
    omega
  rw [hdist, regReset, if_pos hhit, Nat.add_sub_cancel_left, hn, hd]

/-- Settles O17: ROUTE_WRITE's check is the turn rule, and the X-then-Y route meets it. -/
theorem routeTurnRule : Obligations.RouteTurnRule := by
  refine ⟨?_, fun s n d v ha hl => ?_, fun n d r hr => ⟨?_, routeOk_xyHops hr d⟩⟩
  · rintro s n d v r _ ha hl hr rfl
    rw [← routeOk_iff hr, exec_routeWrite ha]
    exact ⟨fun hok => by rw [routeWrite_of_ok hl hok], fun hbad => by rw [routeWrite_of_not_ok hl hbad]⟩
  · rw [exec_routeWrite ha, routeWrite_of_locked hl]; rfl
  · rw [regReset_hops, routeReset, hr]

end Sys2Proof.Machine

/-!
PROOFS. Resets (chapter 15): the reset pins act while SYS_RST_N is low and no other command does, and a reset of the whole
part from any of the three causes (R423 to R425).
-/
namespace Sys2Proof.Machine

/-! ### A change of the part state while the event queue has room (R387, R425) -/

/-- A change of the part state joins at most one event to the queue, and loses none while the queue has room. -/
theorem setPartState_of_room {p : Part} (hroom : p.host.events.length < 256) (st : PartState) :
    ∃ (ev : List Event) (lost : Bool), ev.length ≤ p.host.events.length + 1 ∧
      setPartState p st = { p with
        host := { p.host with events := ev, lostNext := lost }, boot := { p.boot with ps := st } } := by
  by_cases hps : p.boot.ps = st
  · exact ⟨p.host.events, p.host.lostNext, Nat.le_succ _, by rw [setPartState, if_pos hps, ← hps]⟩
  rw [setPartState, if_neg hps]
  cases hmask : eventMasked { p with boot := { p.boot with ps := st } } 200 with
  | true => exact ⟨p.host.events, p.host.lostNext, Nat.le_succ _, raise_of_masked hmask _⟩
  | false => exact ⟨_, false, by simp, raise_of_room hmask hroom _⟩

/-! ### A reset of the whole part (R423 to R425) -/

/-- What a reset leaves (R423): the initial part but for the cause, the drawn challenge (R318), host memory, the OTP, the
flash and the levels of the reset pins, with a part state, a boot stage, a sample of CFG_ADDR and events to be named. -/
def freshPart (cause : Nat) (p : Part) (ps : PartState) (stage pins : Nat) (ev : List Event) (lost : Bool) : Part :=
  { Part.init with
    regs := [(SYS_CAUSE.off, BitVec.ofNat 32 (2 ^ cause))]
    free := p.free + 1
    trc := { TrcState.init with chal := p.free }
    host := { HostState.init with mem := p.host.mem, events := ev, lostNext := lost }
    boot := { BootState.init with
      ps := ps, rstLow := p.boot.rstLow, perstLow := p.boot.perstLow, pins := pins, stage := stage
      flash := p.boot.flash, otp := p.boot.otp, otpRead := p.boot.otp } }

theorem resetPart_eq (cause : Nat) (p : Part) : ∃ (ev : List Event) (lost : Bool), ev.length ≤ 1 ∧
    resetPart cause p = freshPart cause p .powerup 0 p.boot.pins ev lost :=
  setPartState_of_room (p := freshPart cause p p.boot.ps 0 p.boot.pins [] false) (Nat.zero_lt_succ 255) .powerup

theorem resetPart_rstLow (cause : Nat) (p : Part) : (resetPart cause p).boot.rstLow = p.boot.rstLow := by
  obtain ⟨ev, lost, -, hreset⟩ := resetPart_eq cause p
  rw [hreset]; rfl

/-- The whole part is reset, and the boot starts unless SYS_RST_N is low. The rows of POWER_ON, SYS_RST_N_LOW and
PERST_N_FALL come to this (`powerOn_eq`, `sysRstLow_eq`, `perstFall_eq`). -/
def resetAndBoot (cause : Nat) (pins : BitVec 6) (p : Part) : Part :=
  if p.boot.rstLow then resetPart cause p else startBoot pins (resetPart cause p)

theorem resetAndBoot_eq (cause : Nat) (pins : BitVec 6) (p : Part) :
    ∃ (stage cfg : Nat) (ev : List Event) (lost : Bool), resetAndBoot cause pins p =
      freshPart cause p (if p.boot.rstLow then .powerup else .boot) stage cfg ev lost := by
  obtain ⟨ev, lost, hev, hreset⟩ := resetPart_eq cause p
  cases hlow : p.boot.rstLow with
  | true => exact ⟨0, p.boot.pins, ev, lost, by rw [resetAndBoot, if_pos hlow, hreset]; rfl⟩
  | false =>
    have hroom : (freshPart cause p .powerup 1 pins.toNat ev lost).host.events.length < 256 :=
      Nat.lt_of_le_of_lt hev (by decide)
    obtain ⟨ev', lost', -, hboot⟩ := setPartState_of_room hroom .boot
    refine ⟨1, pins.toNat, ev', lost', ?_⟩
    rw [resetAndBoot, if_neg (by simp [hlow]), hreset]
    exact hboot

/-- The register file after a reset: SYS_RESET_CAUSE names the cause, and every other register has its reset value. -/
theorem regAt_resetAndBoot (cause : Nat) (pins : BitVec 6) (p : Part) (off : Nat) :
    regAt (resetAndBoot cause pins p) off =
      if off = SYS_CAUSE.off then BitVec.ofNat 32 (2 ^ cause) else regReset off := by
  obtain ⟨stage, cfg, ev, lost, hreset⟩ := resetAndBoot_eq cause pins p
  rw [hreset]
  exact if_congr eq_comm rfl rfl

/-! ### The rows of the reset pins -/

/-- The part with SYS_RST_N and PERST_N at given levels. -/
def withPins (p : Part) (low perst : Bool) : Part :=
  { p with boot := { p.boot with rstLow := low, perstLow := perst } }

theorem powerOn_eq (low : Bool) (pins : BitVec 6) (p : Part) :
    powerOn low pins p = resetAndBoot 0 pins (withPins p low true) := rfl

/-- The falling of SYS_RST_N resets the part; no boot starts, so no sample of the pins is taken. -/
theorem sysRstLow_eq {p : Part} (h : p.boot.rstLow = false) (pins : BitVec 6) :
    sysRstLow p = resetAndBoot 1 pins (withPins p true p.boot.perstLow) := by
  rw [sysRstLow, if_neg (by simp [h])]; rfl

theorem perstFall_eq {p : Part} (h : p.boot.perstLow = false) (pins : BitVec 6) :
    perstFall pins p = resetAndBoot 2 pins (withPins p p.boot.rstLow true) := by
  rw [perstFall, if_neg (by simp [h]), resetAndBoot, ← resetPart_rstLow 2]; rfl

/-- The causes of a reset: the command `c` in state `s`, the bit of SYS_RESET_CAUSE that it sets, and the levels of
SYS_RST_N and PERST_N after it (R423). -/
def Resets (s : State) (c : Instr) (cause : Nat) (low perst : Bool) : Prop :=
  (∃ b, c = .powerOn low b ∧ cause = 0 ∧ perst = true) ∨
  (c = .sysRstNLow ∧ s.part.boot.rstLow = false ∧ cause = 1 ∧ low = true ∧ perst = s.part.boot.perstLow) ∨
  (∃ b, c = .perstNFall b ∧ s.part.boot.perstLow = false ∧ cause = 2 ∧ low = s.part.boot.rstLow ∧ perst = true)

/-- Each cause of a reset comes to the one reset of the whole part. -/
theorem exec_of_resets {s : State} {c : Instr} {cause : Nat} {low perst : Bool} (h : Resets s c cause low perst) :
    ∃ pins, exec c s = .next (withPart s (resetAndBoot cause pins (withPins s.part low perst))) := by
  rcases h with ⟨b, rfl, rfl, rfl⟩ | ⟨rfl, hhigh, rfl, rfl, rfl⟩ | ⟨b, rfl, hhigh, rfl, rfl, rfl⟩
  · exact ⟨b, by rw [← powerOn_eq]; rfl⟩
  · exact ⟨0, by rw [← sysRstLow_eq hhigh]; rfl⟩
  · exact ⟨b, by rw [← perstFall_eq hhigh]; rfl⟩

/-! ### The part held in reset (R423) -/

/-- Every command but the five of the reset pins runs as `run` has it, outside reset only. -/
theorem exec_eq_run_of_not_pin {c : Instr} (hpower : ∀ l b, c ≠ .powerOn l b) (hlow : c ≠ .sysRstNLow)
    (hrelease : ∀ b, c ≠ .sysRstNRelease b) (hfall : ∀ b, c ≠ .perstNFall b) (hrise : c ≠ .perstNRise) :
    ∃ f : Part → Part, ∀ s, exec c s = run f s := by
  cases c with
  | powerOn l b => exact absurd rfl (hpower l b)
  | sysRstNLow => exact absurd rfl hlow
  | sysRstNRelease b => exact absurd rfl (hrelease b)
  | perstNFall b => exact absurd rfl (hfall b)
  | perstNRise => exact absurd rfl hrise
  | _ => exact ⟨_, fun _ => rfl⟩

/-- A command that runs outside reset leaves a part held in reset as it is. -/
theorem run_of_held {s : State} (h : s.part.boot.rstLow = true) (f : Part → Part) : run f s = .next s := by
  rw [run, outOfReset, if_pos h]

/-- Settles O3: the three causes come to one reset, which leaves the initial part but for the cause, the pins and what
R423 keeps; while SYS_RST_N is low a command that is not of the reset pins runs as `run`, which does nothing. -/
theorem resetReturnsEverything : Obligations.ResetReturnsEverything := by
  refine ⟨fun s c hheld hpower hlow hrelease hfall hrise => ?_, fun s c cause low perst hcause => ?_⟩
  · obtain ⟨f, hrun⟩ := exec_eq_run_of_not_pin hpower hlow hrelease hfall hrise
    rw [hrun, run_of_held hheld]
  · obtain ⟨pins, hexec⟩ := exec_of_resets hcause
    refine ⟨_, hexec, regAt_resetAndBoot cause pins _, ?_⟩
    obtain ⟨stage, cfg, ev, lost, hreset⟩ := resetAndBoot_eq cause pins (withPins s.part low perst)
    rw [withPart_part, hreset]
    exact ⟨rfl, rfl, rfl, rfl, rfl, rfl, rfl, rfl, fun _ => ⟨rfl, rfl⟩, rfl, rfl, rfl, rfl, rfl, rfl, rfl⟩

end Sys2Proof.Machine
